-- ==== Sys2Proof/Word.lean ====
section
/-! DEFINITION. The word and byte types, and the sparse store: a list of (key, value) pairs in one canonical form, with
what an unlisted key reads as given by a default. -/

namespace Sys2Proof

/-- A register word (R26: every register is 32 bits wide). -/
abbrev Word := BitVec 32

/-- A byte of the Stacks or of a message. -/
abbrev Byte := BitVec 8

/-- A sparse store: pairs of a key and its value. -/
abbrev Cells (β : Type) := List (Nat × β)

variable {β : Type}

/-- The value at a key; an unlisted key reads as the default. -/
def cellsGet (d : Nat → β) : Cells β → Nat → β
  | [], a => d a
  | (k, v) :: m, a => if a = k then v else cellsGet d m a

/-- The store without the key. -/
def cellsDel : Cells β → Nat → Cells β
  | [], _ => []
  | (k, v) :: m, a => if a = k then cellsDel m a else (k, v) :: cellsDel m a

/-- The store with the key listed at its place in rising order. -/
def cellsPut : Cells β → Nat → β → Cells β
  | [], a, x => [(a, x)]
  | (k, v) :: m, a, x =>
    if a < k then (a, x) :: (k, v) :: m
    else if a = k then (a, x) :: m
    else (k, v) :: cellsPut m a x

/-- Writing a value: the default value removes the entry, any other lists it. -/
def cellsSet [DecidableEq β] (d : Nat → β) (m : Cells β) (a : Nat) (x : β) : Cells β :=
  if x = d a then cellsDel m a else cellsPut m a x

/-- Every listed key is above `lo`, keys rise strictly, and no entry equals the default. -/
def cellsWfFrom [DecidableEq β] (d : Nat → β) : Nat → Cells β → Bool
  | _, [] => true
  | lo, (k, v) :: m => decide (lo ≤ k) && decide (v ≠ d k) && cellsWfFrom d (k + 1) m

/-- The canonical form of a sparse store. -/
def cellsWf [DecidableEq β] (d : Nat → β) (m : Cells β) : Bool := cellsWfFrom d 0 m

end Sys2Proof
end

