-- ==== Sys2Proof/Syntax.lean ====
section
/-! DEFINITION. The commands of the block: one constructor for each row of the opcode table, with the operands it takes from
outside, and the types those operands are made of. -/

namespace Sys2Proof

/-! ## Who and where -/

/-- The two Caraxline links: the uplink and the cascade link. -/
inductive Lnk where
  | ul | cs
  deriving DecidableEq, Repr

/-- 0 for the uplink, 1 for the cascade link. -/
def Lnk.idx : Lnk → Nat
  | .ul => 0
  | .cs => 1

/-- The management paths of R425, one latch each. -/
inductive Path where
  | flow1Ul | flow1Cs | bridge | svcf | svcp
  deriving DecidableEq, Repr

/-- How a strap reads in one sample, taken with the pull-up and again with the pull-down (R41). -/
inductive StrapTie where
  | gnd | hi | opn
  deriving DecidableEq, Repr

/-- The three samples of one strap (R41). -/
structure StrapSamples where
  a : StrapTie
  b : StrapTie
  c : StrapTie
  deriving DecidableEq, Repr

/-- The 64-bit counters of R425. -/
inductive Counter64 where
  | epoch
  | cw (k : Lnk) (lane : Fin 4)
  deriving DecidableEq, Repr

/-- The internal owners that write Folio sections (R62, R63, R355). -/
inductive FolioOwner where
  | coppice | muniment | tapStore | munimentClear
  deriving DecidableEq, Repr

/-! ## Link management cells (R122) -/

/-- ACK (R115): the highest covered block, the next sequence number expected and a bad-block map for each link lane. -/
structure AckMsg where
  bcnt : BitVec 16
  nextSeq : BitVec 16
  maps : List (BitVec 64)
  deriving DecidableEq, Repr

/-- ADV (R122, R123). -/
structure AdvMsg where
  vers : BitVec 8
  rates : BitVec 8
  cap : BitVec 8
  lanes : BitVec 8
  flags : BitVec 8
  loopLanes : BitVec 8
  chosen : BitVec 8
  nextSeq : BitVec 16
  part : BitVec 16
  deriving DecidableEq, Repr

/-- The eight bytes of one link lane of an EQ cell (R88, R122), and the request for precoding that training carries with them,
for which R80 and R122 give no bytes (log entry 80). -/
structure EqLane where
  mode : BitVec 8
  req : List Byte
  resp : BitVec 8
  pre : Option Bool
  deriving DecidableEq, Repr

/-- One part of an ALLOT (R147): entries are flow and extra grant. -/
structure AllotPart where
  index : Nat
  parts : Nat
  epoch : BitVec 16
  cap : BitVec 16
  res : BitVec 8
  entries : List (Nat × Nat)
  deriving DecidableEq, Repr

/-- One part of a DEMAND (R148): entries are flow, backlog and DL. -/
structure DemandPart where
  index : Nat
  parts : Nat
  epoch : BitVec 16
  entries : List (Nat × Nat × Nat)
  deriving DecidableEq, Repr

/-- The arrangements of R100. -/
inductive Arr where
  | a22 | a31 | a13
  deriving DecidableEq, Repr

/-- The staged words of a flow entry (R141). -/
inductive FlowWord where
  | guar | ceil | decl
  deriving DecidableEq, Repr

/-- What a parity check of a flow entry found (R159, R160): one configuration copy, both copies, or the dynamic state. -/
inductive ParityKind where
  | oneCopy | bothCopies | dynamicState
  deriving DecidableEq, Repr

/-! ## Encrypted flows (R366) -/

/-- A message on an encrypted flow: class, LEN and ciphertext of each cell, and the seal cell's payload. -/
structure SealedMsg where
  cls : Nat
  lens : List Nat
  cells : List (List Byte)
  tail : List Byte
  deriving DecidableEq, Repr

/-! ## Surfaces, streams and DisplayPort (R198, R208, R210, R230, R233) -/

/-- A packet that a SuperSpeed device sends upstream: whether it carries isochronous data, its 16-byte header, and its data (R245). -/
structure SsPacket where
  iso : Bool
  header : List Byte
  data : Option (List Byte)
  deriving DecidableEq, Repr

/-- A cell of a message as it reaches a block: TYPE with its MORE bit, LEN in doublewords, and payload. -/
structure MsgCell where
  typ : Nat
  len : Nat
  payload : List Byte
  deriving DecidableEq, Repr

/-- The timing of a raster: totals, active sizes, porches, sync widths, polarities and pixel clock in kHz. -/
structure Raster where
  htotal : Nat
  hactive : Nat
  vtotal : Nat
  vactive : Nat
  hfp : Nat
  hsw : Nat
  vfp : Nat
  vsw : Nat
  hpol : Bool
  vpol : Bool
  pclk : Nat
  deriving DecidableEq, Repr

/-- A line of a fallback stream: the timing of its MSA, whether it is uncompressed RGB, its bits per component, the active line
and its pixels in storage format. -/
structure StreamLine where
  msa : Raster
  rgb : Bool
  bpc : Nat
  line : Nat
  pixels : List Nat
  deriving DecidableEq, Repr

/-- The sink's answer to an AUX transaction. -/
inductive AuxReply where
  | ack (data : List Byte) | nack | defer
  deriving DecidableEq, Repr


/-! ## Power Delivery (R286, R289, R292) -/

/-- The kinds of a power data object. -/
inductive PdoKind where
  | fixed | pps | avs
  deriving DecidableEq, Repr

/-- An offer of a source: its kind, its voltage (the highest of an APDO) in mV, its current in mA, and whether it belongs to EPR
mode. -/
structure Pdo where
  kind : PdoKind
  mv : Nat
  ma : Nat
  epr : Bool
  deriving DecidableEq, Repr

/-- What a cable's e-marker answers (R292): passive, its current in A, EPR Capable, and the identity words. -/
structure CableId where
  passive : Bool
  amps : Nat
  epr : Bool
  words : List Word
  deriving DecidableEq, Repr

/-- The two modes the dock offers on UL. -/
inductive AltMode where
  | caraxline | displayPort
  deriving DecidableEq, Repr

/-! ## What a command brings with it -/

/-- What a lane receives in one block: how far it lags its group, and the symbols (R84, R87). -/
structure Reception where
  skewNs : Nat
  levels : List (Fin 4)
  deriving DecidableEq, Repr

/-- Where a SuperSpeed packet goes, and what devices send upstream after it (R245). -/
structure SsDelivery where
  port : Fin 8
  answers : List SsPacket
  deriving DecidableEq, Repr

/-- What receiver detection finds, and whether a partner found wakes a suspended hub (R248, R253). -/
structure Detection where
  found : Bool
  wakes : Bool
  deriving DecidableEq, Repr

/-- A TLP of an endpoint, and whether the switch routes it to its other port (R263, R268). -/
structure SentTlp where
  bytes : List Byte
  peer : Bool
  deriving DecidableEq, Repr

/-- The frames of an NTB, and the packet filter the host has set since the last (R278). -/
structure NtbIn where
  frames : List (List Byte)
  filter : Option (BitVec 4)
  deriving DecidableEq, Repr

/-- What the host gives the service function: its configuration, its address and its interface setting (R257, R400). -/
structure SvcfSetting where
  on : Bool
  address : BitVec 7
  setting : BitVec 8
  deriving DecidableEq, Repr

/-- The cell a flit of the fabric belongs to: its link, its flow, and whether it is to leave by the link. -/
structure FabricCell where
  lnk : Lnk
  flow : Fin 256
  leaving : Bool
  deriving DecidableEq, Repr

/-- A parity failure of a flit (R376): the planes on which it fails, and the cell it belongs to, if this device's flow table names it. -/
structure FlitFault where
  planes : List (Fin 9)
  cell : Option FabricCell
  deriving DecidableEq, Repr

/-- A proof of the standby begins, or the one in progress ends with its result (R390). -/
inductive ProofStep where
  | begins
  | ends (pass : Bool)
  deriving DecidableEq, Repr

/-! ## The commands -/

/-- What answers a presence poll (R342): the word read, and whether the third position from the poller holds an AP2080, which no register
of the partner tells (log entry 79). -/
structure PollAnswer where
  data : Word
  third : Bool
  deriving DecidableEq, Repr

/-- A read setup of the service port (R427): the address; the CMD byte, where it is one that R427 does not list; and the bytes that follow
what the setup expects. -/
structure SvcpSetup where
  addr : BitVec 40
  other : Option (BitVec 8)
  after : List (BitVec 8)
  deriving DecidableEq, Repr

/-- One constructor for each row of the opcode table; each docstring gives the row's rule and what happens. -/
inductive Instr where
  /-- R53. VAON reaches regulation and VSYS has held at or above 4.5 V for 1 ms, which starts step 1 of start-up. -/
  | powerGood (role testEn : StrapSamples)
  /-- R44. VSYS falls below 4.3 V and the device restarts from power-on reset. -/
  | brownOut (folioStep : Fin 8)
  /-- R54. A start-up step begins 100 µs after the previous step ends and powers its units in the fixed order. -/
  | startupStep
  /-- R55. A rail or switched-output ramp ends and a ramp that was waiting for it may begin. -/
  | rampEnd
  /-- R55. A staggered VBUS, DP_PWR or M2_3V3 enable falls due after its spacing from the previous enable. -/
  | staggeredEnable (kind : Fin 3)
  /-- R75. The background zero-fill of the Stacks completes and scrub may start. -/
  | zeroFillDone
  /-- R60. A write of RST_CTRL.WARM completes and schedules a warm reset 10 µs later, deferred behind any Folio write. -/
  | warm (p : Path) (v : Word)
  /-- R58. A warm reset begins, returns WARM-domain registers and runs start-up steps 3-12 while keeping PD contracts. -/
  | warmReset
  /-- R420. A page soft reset returns the page's PAGE-domain registers to reset and restarts its block with the effects of R59. -/
  | srst (p : Fin 64)
  /-- R419. Writing PAGE_CTRL.EN to 0 holds the block stopped, silences its sources and ends its maintenance activities. -/
  | pageDisable (p : Fin 64)
  /-- R419. Writing PAGE_CTRL.EN back to 1 restarts the block as at the end of a page soft reset. -/
  | pageEnable (p : Fin 64)
  /-- R421. Writing PAGE_CTRL.LOCK makes every RWL field of the page read-only until warm or power-on reset. -/
  | lock (p : Fin 64)
  /-- R28. A 32-bit write to a register without behaviour of its own is performed atomically under its access code, or ignored and counted when locked. -/
  | registerWrite (p : Path) (a : BitVec 18) (v : Word)
  /-- R425. A read of EPOCH_LO or CW_LO returns the low word and latches the high word in the latch of the arriving path. -/
  | counterLoRead (p : Path) (n : Counter64)
  /-- R70. FOLIO_CTRL.WRITE starts a host Folio write that takes the maintenance slot and target lock or is refused. -/
  | folioWrite (v : Word)
  /-- R70. FOLIO_CTRL.VERIFY reads back and checks the copy that is not the newest under the same lock. -/
  | folioVerify (v : Word)
  /-- R69. An internal owner (Coppice, the Muniment store or the tap store) requests a Folio write of its own section. -/
  | folioOwnerWrite (o : FolioOwner)
  /-- R70. The Folio programming and read-back end with DONE, a sector replacement and retry, or PROGRAM_FAIL. -/
  | folioWriteDone (bad : Option (Fin 16))
  /-- R74. After the link has run 10 s in S0 without retraining, the tap store saves a record if the identity is new or a tap differs by more than one step. -/
  | tapSave (k : Lnk)
  /-- R150. The epoch counter advances every 1,024 reference periods and starts every per-epoch activity. -/
  | epochStrobe
  /-- R410. At each 128-epoch boundary ALIVE toggles if the previous heartbeat token returned, and a new token is sent. -/
  | aliveBoundary
  /-- R410. The heartbeat token returns through the management agent and event aggregator. -/
  | heartbeatTokenReturn
  /-- R317. In S3 ALIVE toggles from the always-on oscillator without the token test. -/
  | aliveOscillatorToggle
  /-- R106. A block received on a lane is aligned, its marker checked, its codeword decoded and its cells delivered or the block declared bad. -/
  | blockReceive (l : Fin 8) (r : Reception)
  /-- R107. A lane with more than 4 bad blocks in 1,024 raises the lane-impaired event, aborts its eye scan and is taken out of service. -/
  | laneImpaired (l : Fin 8)
  /-- R85. Four missed comma positions or 16 MCRC failures drop a lane to SEARCH, count LOL, raise its event and take it out of service. -/
  | lossOfLock (l : Fin 8)
  /-- R110. A block is sent on a lane carrying LINK, allotted, replayed, urgent or IDLE cells and the periodic ACK. -/
  | blockTransmit (l : Fin 8)
  /-- R116. An ACK frees replay entries or replays the sequenced cells of blocks reported bad. -/
  | ack (k : Lnk) (m : AckMsg)
  /-- R118. A received ACK_REQ is answered with an ACK. -/
  | ackReq (k : Lnk)
  /-- R118. 128 block durations without an ACK while entries are held send ACK_REQ, and the third unanswered one starts recovery. -/
  | ackReqTimeout (k : Lnk)
  /-- R129. A received CREDIT_INIT resets the transmitter's credit counts to the partner's advertised free space. -/
  | creditInit (k : Lnk) (np p cpl mgt : BitVec 16)
  /-- R123. A received ADV drives the version and rate choice and the sending of CHOSEN. -/
  | adv (k : Lnk) (m : AdvMsg)
  /-- R88. A received EQ cell's coefficient request is applied whole or not at all and answered per tap. -/
  | eq (k : Lnk) (lanes : List EqLane)
  /-- R124. A training attempt starts at L1 in reset directions on mode entry, escalation, RETRAIN or after 100 µs idle following a failed attempt. -/
  | trainingAttemptStart (k : Lnk)
  /-- R124. 10 µs after matching CHOSEN values, lanes go idle and PLLs relock at the chosen rate. -/
  | pllRelock (k : Lnk)
  /-- R90. A lane's adaptation reaches the end of its states, entering TRACK or FAILED. -/
  | adaptationComplete (l : Fin 8) (aligned : Bool) (taps : List Word)
  /-- R125. A training step exceeds its bound and the attempt fails, leading to fallback or training failure. -/
  | trainingStepTimeout (k : Lnk)
  /-- R127. A LANE_OUT cell starts removal of a lane from service for retraining, or recovery if it is the last lane. -/
  | laneOut (k : Lnk) (lane : Fin 4) (reason : BitVec 8)
  /-- R127. A LANE_IN cell marks the partner's retrain of a lane as ended. -/
  | laneIn (k : Lnk) (lane : Fin 4)
  /-- R127. No LANE_IN from the partner within 10 ms fails the lane until the next full training and raises its adaptation-failure event. -/
  | laneInTimeout (k : Lnk) (lane : Fin 4)
  /-- R129. A received RECOVER starts recovery. -/
  | recover (k : Lnk) (reason : BitVec 8)
  /-- R129. A recovery step that overruns its bound escalates to full training. -/
  | recoveryEscalate (k : Lnk)
  /-- R124. LINK_CTRL.RETRAIN starts full training. -/
  | retrain (k : Lnk) (v : Word)
  /-- R129. LINK_CTRL.RECOVER starts recovery. -/
  | linkRecover (k : Lnk) (v : Word)
  /-- R137. LINK_CTRL.CNT_CLR clears the FEC table, LINK_CNT, REPLAY_CNT and STREAM_LOST. -/
  | linkCntClr (k : Lnk) (v : Word)
  /-- R131. A received HOLD stops new non-LMC cells from one block later until a block without HOLD and a fresh ALLOT arrive. -/
  | hold (k : Lnk) (epoch : Word)
  /-- R131. HOLD present for more than 4 epochs raises the HOLD-overrun event. -/
  | holdOverrun (k : Lnk)
  /-- R132. A received SLEEP_REQ is accepted, sending QUIET and entering electrical idle, or refused with a SLEEP_ACK code. -/
  | sleepReq (k : Lnk) (level : BitVec 8)
  /-- R132. A received SLEEP_ACK completes or refuses the device's own sleep request. -/
  | sleepAck (k : Lnk) (code : BitVec 8)
  /-- R133. A lane's activity detector sees 200 ns of swing and the end sends its own wake pattern if not already sending. -/
  | activityDetect (l : Fin 8)
  /-- R133. A sleeping link starts its exit by sending the 1.0 µs wake pattern on every transmit lane. -/
  | linkWake (k : Lnk)
  /-- R133. After the wake pattern the end sends REJOIN blocks, lanes lock and the link is UP with state unchanged. -/
  | wakePatternEnd (k : Lnk)
  /-- R149. An ALLOT received by an MH4160 partner sets the extra grants of the named epoch. -/
  | allot (k : Lnk) (m : AllotPart)
  /-- R149. A received block with EPB set begins the scheduling end's epoch at the partner, which sends its DEMAND within 3 µs. -/
  | partnerEpochBegin (k : Lnk)
  /-- R148. A received DEMAND supplies the partner's backlog and deadlines for the allotment two epochs later. -/
  | demand (k : Lnk) (m : DemandPart)
  /-- R128. A received TURN_REQ is accepted with LAST_BCNT or refused within 1 µs. -/
  | turnReq (k : Lnk) (target : Arr) (lanes : BitVec 8) (last : List (BitVec 16))
  /-- R128. A received accepting TURN_ACK makes the decider send TURN_GO and arm its lanes if before E1 − 1 µs; a refusal is counted. -/
  | turnAck (k : Lnk) (code : BitVec 8) (last : List (BitVec 16))
  /-- R128. A received TURN_GO sets the responder's turning lanes to TURN_ARMED. -/
  | turnGo (k : Lnk)
  /-- R102. At E1 − 1 µs each unconfirmed turning lane is abandoned and its locks are released at E1. -/
  | turnConfirmDeadline (k : Lnk)
  /-- R101. The old transmitter sends the named last block with QUIET, then enters electrical idle and switches to receive. -/
  | turnQuiet (l : Fin 8)
  /-- R101. On QUIET end, idle or loss of lock, the old receiver removes its termination and loads its transmit settings. -/
  | turnReceiverRelease (l : Fin 8)
  /-- R101. 400 ns after the step-4 trigger the new transmitter sends REJOIN blocks. -/
  | rejoinStart (l : Fin 8)
  /-- R101. The new receiver locks and deskews and the lane is reported ready to the link layer. -/
  | turnLaneReady (l : Fin 8)
  /-- R102. A turning lane not ready at both ends by E1 + 4.0 µs is aborted, counted and retrained via LANE_OUT. -/
  | turnReadyDeadline (k : Lnk)
  /-- R97. EYE_CTRL.START begins an eye scan on the lane or is refused with a code in EYE_STATUS. -/
  | eyeScanStart (l : Fin 8) (v : Word)
  /-- R96. A grid point's dwell ends, its error count is stored, and the next point or DONE follows. -/
  | eyeScanPoint (l : Fin 8) (errors : Nat)
  /-- R97. EYE_CTRL.ABORT ends a running scan within 10 µs with ABORTED and releases the lock. -/
  | eyeScanAbort (l : Fin 8) (v : Word)
  /-- R92. LANE_EQ_CTRL.RETRAIN runs adaptation again on one out-of-service lane under its maintenance lock. -/
  | laneEqRetrain (l : Fin 8) (v : Word)
  /-- R98. LOOP 0b001 takes the lane's lock and loops generator to checker through the analog path. -/
  | nearEndSerial (l : Fin 8) (v : Word)
  /-- R98. LOOP 0b010 takes the lane's lock and loops generator to checker bypassing the analog stages. -/
  | nearEndParallel (l : Fin 8) (v : Word)
  /-- R98. LOOP 0b011 takes the lane's lock and re-sends symbols received on link lane k on lane (k + 2) mod 4. -/
  | farEndRetimed (l : Fin 8) (v : Word)
  /-- R98. LOOP 0b100 takes the lane's lock and sends or checks the selected pattern. -/
  | pattern (l : Fin 8) (v : Word)
  /-- R98. LOOP 0b000 ends the loopback or pattern mode and releases the lane's lock. -/
  | loopNone (l : Fin 8) (v : Word)
  /-- R141. A FLOW_CFG write commits the entry and staged words under admission, replacing the entry or restoring the staging copy. -/
  | flowCfg (f : Fin 256) (v : Word)
  /-- R141. A write to FLOW_GUAR, FLOW_CEIL or FLOW_DECL goes to the staging copy of the entry. -/
  | flowStageWrite (f : Fin 256) (w : FlowWord) (v : Word)
  /-- R159. A parity error in a flow entry moves the flow to a spare entry, or both copies failing makes it FAILED. -/
  | flowEntryParityError (f : Fin 256) (kind : ParityKind)
  /-- R164. CIRC_CTRL.CNT_CLR clears every FLOW_CNT and the SCHED block counters. -/
  | circCntClr (v : Word)
  /-- R173. A READ request through a window, ABS or flow 1 is checked, performed, forwarded or refused and completed with READ_CPL. -/
  | read (k : Lnk) (f : Fin 256) (typ : Fin 8) (bytes : List Byte)
  /-- R176. A non-posted WRITE is checked and performed or forwarded, and WRITE_CPL is sent after every element is performed. -/
  | writeNonPosted (k : Lnk) (f : Fin 256) (typ : Fin 8) (bytes : List Byte)
  /-- R177. A posted WRITE is performed in order per flow and target, or logged on failure without a completion. -/
  | writePosted (k : Lnk) (f : Fin 256) (typ : Fin 8) (bytes : List Byte)
  /-- R182. At the second epoch boundary after filling, a window's prefetch buffer is discarded and counted. -/
  | prefetchExpiry (w : Fin 16)
  /-- R183. A waiting forwarded request is sent once a tag, CPL reservation and NP credit are all held. -/
  | forwardRequest
  /-- R184. A READ_CPL for a tag is accepted into reserved space and sent on to the requester. -/
  | readCpl (k : Lnk) (f : Fin 256) (cls : Fin 8) (bytes : List Byte)
  /-- R184. A WRITE_CPL for a tag is accepted into reserved space and sent on to the requester. -/
  | writeCpl (k : Lnk) (f : Fin 256) (cls : Fin 8) (bytes : List Byte)
  /-- R185. A forwarded request without completion within CPL_TO completes with TIMEOUT, releases its reservation and raises EV097. -/
  | completionTimeout (t : Fin 256)
  /-- R185. A timed-out tag becomes reusable 2 × CPL_TO after its timeout. -/
  | tagReuseTimeout (t : Fin 256)
  /-- R169. Setting WIN_CTRL.EN enables the window unless its settings are invalid, in which case the write is ignored and counted. -/
  | windowEnable (w : Fin 16) (v : Word)
  /-- R169. Clearing WIN_CTRL.EN disables the window and discards its prefetch buffer. -/
  | windowDisable (w : Fin 16) (v : Word)
  /-- R179. BRDG_LOG_REL.REL frees the oldest error log entry. -/
  | rel (v : Word)
  /-- R188. BRDG_CTRL.CNT_CLR clears the bridge counters, CFG_IGN and every WIN_CNT. -/
  | brdgCntClr (v : Word)
  /-- R191. Setting SD_CTRL.VALID validates the descriptor unless its checks fail, when the write is ignored and counted. -/
  | surfaceValidate (n : Fin 64) (v : Word)
  /-- R191. Clearing SD_CTRL.VALID makes later tile and raw-cell writes to the surface refused. -/
  | surfaceInvalidate (n : Fin 64) (v : Word)
  /-- R200. A complete TILE update message is checked, judged for lateness and queued for a write unit or rejected. -/
  | tile (f : Fin 256) (cells : List MsgCell)
  /-- R200. A complete FILL message is checked as a whole and its rectangle queued for writing or rejected. -/
  | fill (f : Fin 256) (cells : List MsgCell)
  /-- R201. An assembly buffer frees and a cell waiting at the SRF ingress is taken. -/
  | assemblyBufferFree
  /-- R203. A free write unit begins a tile write once no head is fetching the tile's band. -/
  | tileWriteStart (f : Fin 256)
  /-- R202. A write unit finishes a tile, writing the directory entry last, and releases the band. -/
  | tileWriteEnd (u : Fin 2)
  /-- R209. A RAW_LINE cell writes its pixels into ring line LINE mod HEIGHT and tags it, or is discarded. -/
  | rawLine (f : Fin 256) (cells : List MsgCell)
  /-- R210. A received fallback DP stream line is written into its receiver ring while RX_CTRL.EN is 1. -/
  | fallbackStreamLine (k : Fin 4) (m : StreamLine)
  /-- R211. A stream whose MSA is absent two frame times or whose allocation is removed clears ACTIVE and raises EV131. -/
  | streamLost (k : Fin 4)
  /-- R213. SURF_CTRL.CNT_CLR clears SD_CNT, SD_REJ, CFG_IGN and every RX_STATUS.UNDER. -/
  | surfCntClr (v : Word)
  /-- R216. Setting HEAD_CTRL.EN starts the head at line VACTIVE with live planes from the shadows, or is refused with CREF. -/
  | headEnable (h : Fin 4) (v : Word)
  /-- R216. Clearing HEAD_CTRL.EN stops fetching at the next line boundary and sends the idle pattern. -/
  | headDisable (h : Fin 4) (v : Word)
  /-- R214. A head begins its next line, advancing LINE and FRAME and doing what that line calls for. -/
  | lineStart (h : Fin 4)
  /-- R218. A head begins to fetch a band at FETCH_h(b) once no tile write into that band is in progress. -/
  | bandFetchStart (h : Fin 4)
  /-- R218. The last byte of a band reaches the band buffer and the band's write exclusion ends. -/
  | bandFetchEnd (h : Fin 4)
  /-- R225. HEAD_COMMIT.ARM arms a head commit for the next line VACTIVE, or defers it and sets MISSED inside the closed window. -/
  | headArm (h : Fin 4) (v : Word)
  /-- R224. HEAD_COMMIT.CANCEL disarms a pending head commit. -/
  | headCancel (h : Fin 4) (v : Word)
  /-- R241. HEAD_COMMIT.CNT_CLR clears MISS_CNT and UNDER_CNT. -/
  | headCntClr (h : Fin 4) (v : Word)
  /-- R225. MARG_COMMIT.ARM arms a Marginalia commit with the same window and deferral rules. -/
  | margArm (h : Fin 4) (v : Word)
  /-- R224. MARG_COMMIT.CANCEL disarms a pending Marginalia commit. -/
  | margCancel (h : Fin 4) (v : Word)
  /-- R227. A qualified tearing-effect edge is latched and ends or pre-empts the head's hold. -/
  | teEdge (h : Fin 4) (rising : Bool)
  /-- R228. A head held TE_TO lines without an edge proceeds as if one arrived and raises EV135. -/
  | teTimeout (h : Fin 4)
  /-- R232. HPD high for 2 ms declares the sink plugged, raises EV139 and starts DP training when EN is set. -/
  | hpdPlug (o : Fin 4)
  /-- R232. HPD low for 2 ms declares the sink unplugged and raises EV139. -/
  | hpdUnplug (o : Fin 4)
  /-- R232. A 0.25-2 ms low pulse makes the DPTX read link status and retrain if the link was lost. -/
  | irqHpd (o : Fin 4) (linkLost : Bool)
  /-- R232. DP link training ends trained, or failed at every rate with EV140. -/
  | dpTrainingComplete (o : Fin 4) (result : Option (Fin 7 × Fin 3))
  /-- R232. DPTX_CTRL.RETRAIN retrains the DisplayPort link now. -/
  | dptxRetrain (o : Fin 4) (v : Word)
  /-- R233. AUX GO with CMD native write runs a DPCD write transaction. -/
  | nativeWrite (o : Fin 4) (v : Word)
  /-- R233. AUX GO with CMD native read runs a DPCD read transaction. -/
  | nativeRead (o : Fin 4) (v : Word)
  /-- R233. AUX GO with CMD I²C write runs an I²C-over-AUX write. -/
  | i2cWrite (o : Fin 4) (v : Word)
  /-- R233. AUX GO with CMD I²C read runs an I²C-over-AUX read. -/
  | i2cRead (o : Fin 4) (v : Word)
  /-- R233. AUX GO with CMD I²C write MOT runs an I²C-over-AUX write with middle-of-transaction. -/
  | i2cWriteMot (o : Fin 4) (v : Word)
  /-- R233. AUX GO with CMD I²C read MOT runs an I²C-over-AUX read with middle-of-transaction. -/
  | i2cReadMot (o : Fin 4) (v : Word)
  /-- R233. An AUX reply ends the transaction or causes a DEFER retry, up to 7 times. -/
  | auxReply (o : Fin 4) (r : AuxReply)
  /-- R233. 400 µs without a reply retries, and after 3 retries reports TIMEOUT. -/
  | auxTimeout (o : Fin 4)
  /-- R234. A DPTX_SLOTS write sets MST slot counts, ignored if they sum above 63. -/
  | dptxSlotsWrite (o : Fin 4) (v : Word)
  /-- R237. DP_PWR over 0.60 A for 1 ms or 1.0 A opens the switch, sets PWR_OC and raises EV141. -/
  | dpPwrOvercurrent (o : Fin 4)
  /-- R237. A write of DPTX_CTRL.PWR_EN switches DP_PWR, refused within 100 ms of an over-current opening. -/
  | pwrEn (o : Fin 4) (v : Word)
  /-- R245. An SS_HDR tunnel message carries a SuperSpeed packet header to the hub. -/
  | ssHdr (f : Fin 256) (cells : List MsgCell) (d : SsDelivery)
  /-- R245. An SS_DATA tunnel message carries a data packet header with its data to the hub. -/
  | ssData (f : Fin 256) (cells : List MsgCell) (d : SsDelivery) (iso : Bool)
  /-- R246. A U2_TXN tunnel message is run on its microframe and answered by U2_RES, or answered with PID 0 if its microframe has passed. -/
  | u2Txn (f : Fin 256) (cells : List MsgCell) (port : Fin 8) (iso : Bool) (pid : BitVec 8) (reply : List Byte)
  /-- R249. UPORT RESET resets the tunnelled upstream port and powers off ports 1-6. -/
  | uportReset (f : Fin 256) (cells : List MsgCell)
  /-- R246. UPORT SUSPEND suspends the tunnelled upstream port. -/
  | uportSuspend (f : Fin 256) (cells : List MsgCell)
  /-- R254. UPORT RESUME resumes the hub, merging with an overlapping device remote wake. -/
  | uportResume (f : Fin 256) (cells : List MsgCell)
  /-- R244. Every 125 µs the adapter generates a start-of-frame on the local high-speed bus. -/
  | startOfFrame
  /-- R248. A USB 2.0 connect that has held 4 µs is reported. -/
  | portConnect (p : Fin 6) (high wakes : Bool)
  /-- R248. A USB 2.0 disconnect that has held 4 µs is reported. -/
  | portDisconnect (p : Fin 6) (wakes : Bool)
  /-- R248. Rd held 150 ms on DS0 or DS1 accepts attach and VBUS is applied. -/
  | typecAttachDs (p : Fin 2)
  /-- R248. Loss of Rd on DS0 or DS1 removes VBUS within 10 ms. -/
  | typecDetachDs (p : Fin 2)
  /-- R248. SuperSpeed receiver detection repeats every 12 ms while no partner is found. -/
  | receiverDetection (p : Fin 4) (r : Detection)
  /-- R249. A PORT_POWER request powers a port under the ramp spacing, with no effect while CUTOFF is 1. -/
  | portPower (p : Fin 6) (on : Bool)
  /-- R249. A waiting VBUS ramp begins once 25 ms have passed since the last one, in port order. -/
  | vbusRampStart
  /-- R258. A host reset of a downstream port discards its in-flight transactions and clears its TT buffers. -/
  | portReset (p : Fin 8)
  /-- R250. Babble disables the port and counts it, cutting the port off after BABBLE_LIM in 10 s. -/
  | babble (p : Fin 6)
  /-- R251. A port switch trip opens the switch, reports over-current, clears PORT_POWER and raises EV160. -/
  | portOvercurrent (p : Fin 6) (wakes : Bool)
  /-- R251. 100 ms after a trip a held PORT_POWER request is served. -/
  | overcurrentHoldoffEnd (p : Fin 6)
  /-- R252. The V5DS rail sensor trips and opens every port of the ganged group. -/
  | v5dsRailTrip
  /-- R253. A downstream remote wake is forwarded upstream, as UPORT WAKE in native mode, when the host permits. -/
  | remoteWake (p : Fin 8) (permitted : Bool)
  /-- R255. Service-function REG_READ reads consecutive registers once at SETUP. -/
  | svcfRegRead (addr : Word) (len : BitVec 16)
  /-- R257. Service-function REG_WRITE buffers its data stage for performance at the status stage. -/
  | svcfRegWrite (addr : Word) (data : List Byte)
  /-- R255. Service-function STK_READ reads the local Stacks, reporting DATA_ERROR in LAST_STATUS. -/
  | svcfStkRead (addr : Word) (len : BitVec 16)
  /-- R257. Service-function STK_WRITE buffers its data for performance at the status stage. -/
  | svcfStkWrite (addr : Word) (data : List Byte)
  /-- R255. LAST_STATUS returns the last request's bRequest, status and failing address. -/
  | lastStatus (addr : Word) (len : BitVec 16)
  /-- R257. The first IN token of a write's status stage performs the buffered writes in address order, answering NAK or NRDY until done. -/
  | statusStage
  /-- R257. A bus reset of the upstream port discards buffered write data with RESET_DISCARD and resets the function's address and configuration. -/
  | usbBusReset
  /-- R262. HUB_CTRL.CNT_CLR clears TUN_REJ, every BABBLE_CNT and every OC_CNT. -/
  | hubCntClr (v : Word)
  /-- R266. A tunnelled TLP message from the host is checked and forwarded to the switch, or discarded as Malformed. -/
  | tlp (f : Fin 256) (cells : List MsgCell) (dest : Fin 3) (ahead : Option (BitVec 16 × List Byte))
  /-- R268. A TLP from an endpoint is sent on the port's flow, held in the upstream buffer when needed. -/
  | endpointTlp (p : Fin 2) (t : SentTlp)
  /-- R269. Two epoch boundaries after a read-ahead, the held data is discarded and counted. -/
  | pciePrefetchExpiry
  /-- R265. Setting PCIE_TUN.EN enables the tunnel unless a named flow is unusable or duplicated. -/
  | pcieTunEnable (v : Word)
  /-- R270. Power Controller Control on requests socket power under the ramp conditions. -/
  | powerControllerOn (p : Fin 2)
  /-- R270. Once its spacing conditions hold, M2_3V3 ramps to 3.135 V. -/
  | socketRampStart (p : Fin 2)
  /-- R270. 100 ms after M2_3V3 reaches 3.135 V, PERST_N is released and the link trains. -/
  | perstRelease (p : Fin 2)
  /-- R271. Power Controller Control off asserts PERST_N, stops REFCLK and opens the socket switch. -/
  | powerControllerOff (p : Fin 2)
  /-- R271. OFF_DELAY after native mode ends without re-entry, each socket is powered off. -/
  | offDelayExpiry
  /-- R272. A CLKREQ_N change stops or restarts a port's REFCLK under L1.2. -/
  | clkreq (p : Fin 2) (level l12 : Bool)
  /-- R272. PEWAKE_N low for 1 µs sends a PME message and is a wake source. -/
  | pewake (p : Fin 2)
  /-- R273. A socket switch trip sets Power Fault, asserts PERST_N and raises EV167. -/
  | socketOvercurrent (p : Fin 2)
  /-- R274. A downstream link going down unprompted reports Surprise Down, completes held requests with UR and raises EV168. -/
  | surpriseDown (p : Fin 2)
  /-- R274. A downstream link partner returns and the link retrains, reporting Data Link Layer State Changed. -/
  | downstreamLinkUp (p : Fin 2) (speed : Fin 5) (width : Fin 3)
  /-- R281. PCIE_CTRL.CNT_CLR clears TLP_REJ, PCIE_PF_DISCARD and every PEP_STATUS count. -/
  | pcieCntClr (v : Word)
  /-- R277. A downstream FRAME message is sent by the MAC in completion order, or discarded and counted. -/
  | frame (f : Fin 256) (cells : List MsgCell)
  /-- R277. A received Ethernet frame is classified by PCP and sent on its flow or dropped, with PAUSE above 75 % buffer. -/
  | frameReceived (bytes : List Byte)
  /-- R278. An NCM NTB from the host carries frames to the MAC in fallback and USB-only modes. -/
  | ntb (n : NtbIn)
  /-- R276. The Ethernet link comes up or goes down after auto-negotiation and raises EV169. -/
  | ethLinkChange (lp : Option (BitVec 5 × Bool))
  /-- R276. EPHY_CTRL.RENEG restarts auto-negotiation. -/
  | reneg (v : Word)
  /-- R276. The transmit queue empty for EEE_IDLE µs puts the MAC into Low Power Idle. -/
  | lowPowerIdle
  /-- R281. ENET_CTRL.CNT_CLR clears ENET_CNT and ENET_RXERR. -/
  | enetCntClr (v : Word)
  /-- R283. Rd held 150 ms on a sourcing port accepts a sink attach. -/
  | sinkAttach (p : Fin 2) (flip : Bool)
  /-- R283. CC open 10 ms (1 ms during a transition) declares detach, opens the switch and discharges VBUS. -/
  | sinkDetach (p : Fin 2) (moving : Bool)
  /-- R283. A source attaches on PI, or on UL while Sink, with VBUS present. -/
  | sourceAttach (pi : Bool) (cur : Fin 3) (flip : Bool)
  /-- R286. Received Source_Capabilities make a sink port request the highest-power candidate. -/
  | sourceCapabilities (pi : Bool) (caps : List Pdo)
  /-- R290. A Request to a sourcing port is accepted and transitioned, rejected, or answered Wait while the level changes. -/
  | request (p : Fin 2) (pos : Fin 16) (mv ma : Nat) (epr stale : Bool)
  /-- R288. A Wait answer schedules retries of the Request, or of PR_Swap after 5 s. -/
  | wait (p : Fin 3)
  /-- R288. A Request retry falls due on the backoff schedule, stopping after the eighth attempt with EV197. -/
  | waitRetry (p : Fin 3)
  /-- R287. Every 8 s under a PPS or AVS contract as Sink the dock sends its Request again. -/
  | ppsRequestTimer (p : Fin 3)
  /-- R287. No Request for 15 s under a PPS or AVS contract as Source sends Hard Reset and raises EV195. -/
  | ppsTimeout (p : Fin 2)
  /-- R282. A received PR_Swap is accepted on UL only towards the default uplink role, otherwise rejected. -/
  | prSwap (p : Fin 3) (cur : Fin 3)
  /-- R288. 5 s after a Wait or Reject the dock sends PR_Swap again, at most three times. -/
  | prSwapRetry
  /-- R282. A received DR_Swap is answered with Reject. -/
  | drSwap (p : Fin 3)
  /-- R282. A received VCONN_Swap is accepted on UL and CS. -/
  | vconnSwap (p : Fin 3)
  /-- R292. Discover Identity to SOP' sets the cable fields, identity words and TURN_MEDIA. -/
  | cableDiscovery (p : Fin 2) (id : Option CableId)
  /-- R293. Discover Identity on UL is answered with the dock's ID Header, Cert Stat, Product and UFP VDOs. -/
  | discoverIdentity
  /-- R293. Discover SVIDs lists 0xC4A2 then 0xFF01 as enabled. -/
  | discoverSvids
  /-- R294. Discover Modes for 0xC4A2 returns the Caraxline mode VDO. -/
  | discoverModes (m : AltMode)
  /-- R295. The first Enter Mode for an offered mode is acknowledged and fixes the uplink mode, and a second is NAKed. -/
  | enterMode (m : AltMode)
  /-- R295. Exit Mode ends the entered mode and returns the uplink to USB-only operation. -/
  | exitMode (m : AltMode)
  /-- R296. DP Configure selects pin assignment C or D, or is NAKed, and HPD goes high within 10 ms. -/
  | dpConfigure (pin : Option Bool)
  /-- R296. DP Status reports Multi-function Preferred and HPD. -/
  | dpStatus
  /-- R297. With a CS contract and UL native, the dock discovers the peer and sends Enter Mode on CS. -/
  | csDiscovery (caraxline : Bool)
  /-- R300. A Hard Reset sent or received returns both ends to default roles and ends any mode. -/
  | hardReset (p : Fin 3)
  /-- R300. PD_CTRL.HRST sends Hard Reset on the port. -/
  | hrst (p : Fin 3) (v : Word)
  /-- R298. VBUS_PI below 80 % for 5 µs or PI detach opens the input, walks the budget and signals Fast Role Swap. -/
  | inputLoss (gone moving : Bool)
  /-- R298. The Fast Role Swap signal on UL CC ends after 90 µs. -/
  | frsSignalEnd
  /-- R298. VBUS_UL reaches vSafe5V from the host and VSYS is fed from UL. -/
  | frsVbusPresent
  /-- R298. A received FR_Swap is accepted and the dock completes the swap as Sink. -/
  | frSwap
  /-- R303. A source switch trip opens the switch, discharges VBUS, sends Hard Reset and raises EV205. -/
  | sourceOvercurrent (p : Fin 2)
  /-- R303. Input over-voltage or reverse drive opens the switch, sends Hard Reset and raises EV206. -/
  | inputFault (p : Fin 3)
  /-- R303. VBUS not below vSafe0V 650 ms after discharge raises EV207. -/
  | dischargeTimeout (p : Fin 2)
  /-- R309. P_IN not falling for RESTORE lets risen grants take effect in rank order. -/
  | restoreTimer
  /-- R310. 500 ms after a level fall without a contract within the new level, Hard Reset is sent. -/
  | levelFallTimeout (p : Fin 2)
  /-- R312. Input draw above the contract current for 1 ms holds the lowest-ranked granted item and raises EV204. -/
  | inputOverload
  /-- R314. PP_CTRL.CNT_CLR clears PP_CNT. -/
  | ppCntClr (v : Word)
  /-- R323. A STATE command begins 10 µs after its WAIT write and asks blocks in order to stop for S1, S2 or S3. -/
  | stateCmd
  /-- R329. An OPPOINT command begins 10 µs after its WAIT write, fit-tests a lowering or ramps VCORE up for a raise. -/
  | oppoint
  /-- R323. A block asked by the sequencer agrees and stops, and the next block is asked or the state is entered. -/
  | blockAgrees (l2 : Bool)
  /-- R323. A block not agreeing within its bound refuses with TIMEOUT and the entry rolls back with EV016. -/
  | agreementTimeout
  /-- R326. An armed wake source fires, is latched in WAKE_CAUSE, and starts the exit to S0. -/
  | wake (src : Option (Fin 11))
  /-- R325. PS_TIMER expires in S1-S3 and fires the TIMER wake source. -/
  | psTimerExpiry
  /-- R328. A domain restart ramps its supply, at least 100 µs after the last domain ramp, and releases its clamps when in regulation. -/
  | domainRamp
  /-- R329. VCORE settles at the new point and PS_STATUS.OP takes it, with RESULT DONE. -/
  | vcoreSettled
  /-- R330. An island about to raise its frequency asks for VISL, granted 2 µs after the ramp ends. -/
  | vislRaiseRequest (need : Fin 4)
  /-- R330. An island that lowered its frequency lets the sequencer lower VISL within 1 ms. -/
  | vislLower
  /-- R335. A CASC_POSN write assigns the device's cascade position, ignored on a paired board. -/
  | cascPosnWrite (v : Word)
  /-- R340. CASC_RLY_CTRL.GO with WR 0 sends a 32-bit ABS read on flow 1 of the A-link. -/
  | relayRead (v : Word)
  /-- R340. CASC_RLY_CTRL.GO with WR 1 sends a 32-bit ABS write on flow 1 of the A-link. -/
  | relayWrite (v : Word)
  /-- R342. Every 128 epochs the device polls its A-link partner with one flow-1 read and counts a miss if the last is outstanding. -/
  | presencePoll
  /-- R342. A completed poll updates BEYOND and the master's PRESENT, raising EV104 on a rise. -/
  | pollCompletion (status : Fin 256) (x : PollAnswer)
  /-- R343. MISS_LIM missed polls, a DOWN A-link or an ended mode declares every device beyond absent. -/
  | peerAbsent
  /-- R351. CASC_CTRL.CNT_CLR clears CASC_CNT. -/
  | cascCntClr (v : Word)
  /-- R363. DERIVE forms a KDK or FLOW key in DST from PARENT by the counter-mode KDF. -/
  | derive (v : Word)
  /-- R361. IMPORT places KD_IN bytes as the key of DST with no parent, checking it in CHECKED mode. -/
  | importKey (v : Word)
  /-- R364. ECDH checks the host point, derives a session KDK into DST and outputs Q_dev with a signature. -/
  | ecdh (v : Word)
  /-- R361. CLEAR makes DST FREE unless it has a VALID child or a bound live flow. -/
  | clear (v : Word)
  /-- R368. INVALIDATE frees DST, orphans its descendants and puts bound flows in REKEY_WAIT with EV233. -/
  | invalidate (v : Word)
  /-- R370. ATST_CTRL.GO produces a signed attestation statement over the nonce and measurements. -/
  | atstGo (v : Word)
  /-- R371. ATST_CTRL.CERT_WRITE programs the identity certificate from staged bytes or ends with an error. -/
  | certWrite (v : Word) (burnOk : Bool)
  /-- R354. LC_CTRL.GO burns a permitted life-cycle transition, sets PEND and raises EV228, or ends BAD_TRANSITION or NO_SEED. -/
  | lcGo (v : Word) (burnOk : Bool)
  /-- R367. A flow-key table write changing SLOT rebinds the flow at the next epoch boundary, raising KGEN. -/
  | rebinding (f : Fin 256) (v : Word)
  /-- R366. An OUT message of an encrypted flow is sealed with AES-256-GCM and followed by its seal cell. -/
  | seal (f : Fin 256) (cls : Fin 8) (cells : List (Nat × List Byte))
  /-- R367. An IN message with its seal cell is opened and released, or rejected with EV235. -/
  | openMsg (k : Lnk) (f : Fin 256) (m : SealedMsg)
  /-- R356. The entropy start-up test completes, setting ENT READY or retrying after failure with EV224. -/
  | entropyTest (pass : Bool)
  /-- R357. Every 1 s the DRBG is reseeded with conditioned entropy. -/
  | reseed
  /-- R357. A continuous health test failure sets ENT FAILED and raises EV225. -/
  | continuousTestFail
  /-- R359. Each REMASK period a re-mask pass rewrites every slot under a fresh mask, with EV227 when overdue. -/
  | remask (retry : Bool)
  /-- R359. Every 4 s every slot is verified, correcting or making BAD with EV226. -/
  | slotScrub (found : List (Fin 64 × Bool))
  /-- R355. In RETURN or SCRAPPED the store requests all-zero key-slot Folio writes until both copies hold them. -/
  | keyFolioClear
  /-- R376. A flit with parity failure is rebuilt with EV073, or discarded with EV074 on two planes. -/
  | flitParityError (flit : Nat) (fault : FlitFault)
  /-- R377. A corrected or uncorrectable burst records its row in the suspect table and may trigger a row or bank repair. -/
  | stacksBurstError (addr : BitVec 32) (bank : Fin 33) (row : Fin 16384) (uncor head : Bool)
  /-- R377. A row repair starts with its bank lock and unit and copies the row to a spare. -/
  | rowRepair
  /-- R377. A bank repair starts BIST of the channel's spare bank. -/
  | bankRepair
  /-- R377. Spare bank BIST ends and the copy starts, or the spare is retired. -/
  | bankBistDone (pass : Bool)
  /-- R377. A row or bank copy ends and the address is remapped in one step. -/
  | repairCopyDone
  /-- R378. A 64 KiB scrub stretch starts with a unit and bank lock, writing back corrected bursts. -/
  | scrubStretch (ch : Fin 8) (bank : Fin 33) (found : List (BitVec 32 × Fin 16384 × Bool))
  /-- R375. An SRAM row failing its trigger is copied and remapped while its macro is held. -/
  | sramRowRepair (m : Fin 184) (row : BitVec 16) (test : Bool)
  /-- R375. Every 1 s slice calibration checks for a slice at its limit and triggers a lane repair. -/
  | backgroundCalibration (l : Fin 8) (bad : List (Fin 28))
  /-- R379. A lane repair takes the lane out, swaps the slice, retrains and rejoins. -/
  | laneRepair (l : Fin 8)
  /-- R375. Every 1 s a switch segment's on-resistance is checked and a spare segment brought in. -/
  | segmentCheck (sw : Fin 5) (bad : List (Fin 14))
  /-- R375. Every 1 s a current sensor self-test switches in a spare or gangs the port on failure. -/
  | sensorSelfTest (pool : Fin 3) (port : Fin 6)
  /-- R381. Every 1 ms each slack monitor measures MEAS, raising EV239 on drift or barring points with EV240. -/
  | slackMeasurement (meas : List (Option Nat))
  /-- R387. The checkpoint not complete by E(m+1) − 0.5 µs declares the active router failed. -/
  | ckptLate
  /-- R387. An uncorrectable error in router state declares the active router failed. -/
  | stateErr
  /-- R387. The arbiter checker sees an illegal grant and declares the active router failed. -/
  | arbCheck (port : Fin 16)
  /-- R387. ROUT_CTRL.FORCE in S0 with STATE NORMAL forces a fail-over. -/
  | force (v : Word)
  /-- R388. Grants are blocked, HOLD is sent, the standby's gate closes and the checkpoint is loaded, or safe state follows. -/
  | failover (badA badB badImage : Bool)
  /-- R162. At the later of E(j+1) and the load's end the restarting router computes and sends the ALLOT that ends HOLD. -/
  | restartComputation
  /-- R390. 1 s after a fail-over or every PROVE minutes, the standby is tested and made standby or retired. -/
  | standbyProof (step : ProofStep)
  /-- R393. COPP_CTRL.CNT_CLR clears COPP_CNT. -/
  | coppCntClr (v : Word)
  /-- R393. SCRB_CTRL.CNT_CLR clears SCRB_STATUS. -/
  | scrbCntClr (v : Word)
  /-- R398. An event source fires and takes its reaction, merging, logging, delivering, repairing, failing over or entering safe state. -/
  | eventFiring (ext : Option (Fin 256 × Word))
  /-- R400. The host polls the interrupt endpoint and takes the next closed event message. -/
  | interruptPoll
  /-- R400. A closed event message held back by HOLD, sleep or credit is sent on flow 2. -/
  | flow2MessageSend
  /-- R400. A W1C of EV_STICKY clears latched firings and releases INT_N when no qualifying bit remains. -/
  | evStickyClear (p : Fin 64) (v : Word)
  /-- R395. A write of EVT_SRC.REACT sets the source's reaction or is ignored and counted if not permitted. -/
  | reactWrite (src : Fin 256) (v : Word)
  /-- R415. EVT_CTRL.CNT_CLR clears EVT_CNT. -/
  | evtCntClr (v : Word)
  /-- R402. A LEDG_REL write with the freezing SEQ releases the Ledger, raising EV244 if LOST was nonzero. -/
  | ledgRel (v : Word)
  /-- R403. SAFE_CTRL.ENTER raises EV013 and enters safe state with cause ENTER. -/
  | safeCtrlEnter (v : Word)
  /-- R406. AUTO_WARM seconds after safe-state entry the device requests a warm reset, at most three times. -/
  | autoWarm
  /-- R440. Every 1 ms the die sensors are read, raising EV002 above 110 °C and EV003 at 125 °C. -/
  | temperatureSample (a b d e : BitVec 12)
  /-- R397. A core, island, Stacks or 1.8 V rail outside ±5 % for 10 µs outside a ramp raises EV008. -/
  | railFault (rail : Fin 4)
  /-- R397. The reference outside ±100 ppm against the always-on oscillator raises EV009. -/
  | referenceFault (ppm : Word)
  /-- R413. A write of EV_FORCE fires the source with FTST_DETAIL when armed, or is ignored with EV010. -/
  | evForce (p : Fin 64) (v : Word)
  /-- R414. Selecting EXTEST when armed raises EV013 and enters safe state before the boundary cells take the balls. -/
  | extest
  /-- R428. Service-port REG_WRITE performs each register word on its fourth byte, stretching SCL before the acknowledge. -/
  | svcpRegWrite (addr : BitVec 40) (bytes : List Byte)
  /-- R427. Service-port REG_READ sets the register read address. -/
  | svcpRegRead (x : SvcpSetup)
  /-- R428. Service-port STK_WRITE performs each Stacks word on its fourth byte. -/
  | svcpStkWrite (addr : BitVec 40) (bytes : List Byte)
  /-- R427. Service-port STK_READ sets the Stacks read address. -/
  | svcpStkRead (x : SvcpSetup)
  /-- R428. A read transaction to 0x75 reads one word as each is due, until the master NACKs. -/
  | svcpRead (n : Fin 256)
  /-- R428. A master holding SCL low over 25 ms ends the transaction as if STOP was sent. -/
  | sclTimeout
  /-- R46. SVC_VREF below 1.6 V makes the service balls high-impedance and discards a partial word. -/
  | svcVrefLoss
  /-- R283. The source partner on UL, while the dock is Sink, detaches, ending the entered mode, clearing the cable fields and voiding the contract. -/
  | sourceDetach (moving : Bool)
  /-- R380. With the 3.3 V sensor pool exhausted, the V3P3 rail sensor trips at 8.0 A for 1 ms and opens every switch of the group. -/
  | v3p3RailTrip
  /-- R428. A STOP on the service port ends the transaction, discarding a partial word and counting it in ABORTED. -/
  | stop
  /-- R46. SVC_VREF rises back above 1.6 V and the service port, INT_N and ALIVE leave high impedance. -/
  | svcVrefReturn
  /-- R291. The partner's Accept of a Request, PR_Swap or VCONN_Swap that the dock sent leads to the new contract or role. -/
  | accept (p : Fin 3) (cur : Fin 3)
  /-- R288. The partner's Reject of a Request, PR_Swap or VCONN_Swap that the dock sent is counted and, for VCONN_Swap, leaves the cable unknown. -/
  | reject (p : Fin 3)
  /-- R316. In the fallback and USB-only modes the host suspends the hub's upstream port, which stands in for link sleep. -/
  | upstreamSuspend
  /-- R254. Resume signalling from upstream in the fallback modes resumes the hub, merging with an overlapping device remote wake. -/
  | resumeSignalling
  /-- R400. The host configures the service function over the UL pairs, which lets the interrupt endpoint take part in event delivery. -/
  | setConfiguration (x : SvcfSetting)
  deriving DecidableEq, Repr

end Sys2Proof
end

