-- ==== Sys2Proof/Decode.lean ====
section
/-! DEFINITION. The command that a word of the opcode table spells. The table gives no row bits, so no word spells a command. -/

namespace Sys2Proof

/-- The command spelled by a word: none, since spec/opcode_table.json numbers no bits for any row (log entry 1). -/
def decodeTableWord (_nbits _w : Nat) : Option Instr := none

end Sys2Proof
end

