-- ==== Sys2Proof/Config.lean ====
section
/-! DEFINITION. What an implementation fixes, the constants of the spec that are not registers, and the free values: constants
without a body, of which nothing can be proved but that they are the same for the same arguments. -/

namespace Sys2Proof.Config

/-! ## Free values -/

/-- A free value of up to 32 bits, fresh for each number. Used where the spec states no result (log entry 3). -/
opaque freeWord : Nat → BitVec 32

/-- SHA-384 of a byte string, 48 bytes. The standard's own mechanism is not restated by the spec (00_scope.md); it is kept
uninterpreted (log entry 4). -/
opaque sha384 : List (BitVec 8) → List (BitVec 8)

/-- HMAC-SHA-384 of a key and a message, 48 bytes (log entry 4). -/
opaque hmac384 : List (BitVec 8) → List (BitVec 8) → List (BitVec 8)

/-- AES-256 key wrap of a byte string under a key (log entry 4). -/
opaque aesKeyWrap : List (BitVec 8) → List (BitVec 8) → List (BitVec 8)

/-- AES-256 key unwrap: the wrapped bytes, or none when the integrity check fails (log entry 4). -/
opaque aesKeyUnwrap : List (BitVec 8) → List (BitVec 8) → Option (List (BitVec 8))

/-- AES-256-GCM: key, nonce, additional data and plaintext give ciphertext and 16-byte tag (log entry 4). -/
opaque aesGcm : List (BitVec 8) → List (BitVec 8) → List (BitVec 8) → List (BitVec 8) → List (BitVec 8) × List (BitVec 8)

/-- AES-256-GCM opening: key, nonce, additional data, ciphertext and tag give the plaintext, or none when the tag fails (log
entry 4). -/
opaque aesGcmOpen : List (BitVec 8) → List (BitVec 8) → List (BitVec 8) → List (BitVec 8) → List (BitVec 8) → Option (List (BitVec 8))

/-- P-384 public point of a private scalar, 97 bytes (log entry 4). -/
opaque p384Public : List (BitVec 8) → List (BitVec 8)

/-- Whether 97 bytes are a point of P-384 other than infinity (log entry 4). -/
opaque p384Valid : List (BitVec 8) → Bool

/-- The P-384 shared secret of a private scalar and a point (log entry 4). -/
opaque p384Shared : List (BitVec 8) → List (BitVec 8) → List (BitVec 8)

/-- An ECDSA P-384 signature by a private scalar over a byte string, with a per-signature number (log entry 4). -/
opaque p384Sign : List (BitVec 8) → List (BitVec 8) → Nat → List (BitVec 8)

/-- The order of P-384 (FIPS 186; PRESUMED, log entry 4). -/
def p384Order : Nat :=
  0xFFFFFFFFFFFFFFFFFFFFFFFFFFFFFFFFFFFFFFFFFFFFFFFFC7634D81F4372DDF581A0DB248B0A77AECEC196ACCC52973

/-- FETCH_h(b) of a head in RING or FOLLOW mode, which the spec leaves undefined (R229): a line for a head, a band and an epoch
(log entry 3). -/
opaque openFetch : Nat → Nat → Nat → Nat

/-- What a receiver's tracking loop adds to an element of its settings in an epoch: a stay in TRACK, the lane, the element and the
epoch of the stay (R92; log entry 81). -/
opaque trackStep : Nat → Nat → Nat → Nat → Int

/-- Symbol `n` of a test pattern of LANE_CTRL.PRBS_SEL at a rate code (R98), defined in IEEE 802.3 and not restated by the spec (log
entry 83). -/
opaque patternSymbol : Nat → Nat → Nat → Nat

/-- Output of the deterministic random bit generator for a seeding, fresh for each number (R357; log entry 4). -/
opaque drbg : Nat → Nat → List (BitVec 8)

/-- What a rail's converter measures, in units of 10 mV, fresh for each number (VCNV table, R430; log entry 3). -/
opaque railMeasured : Nat → Nat → Nat

/-! ## The configuration space of the PCIe switch (R263, R264; log entry 90) -/

/-- What a port of the switch declares (R263): its Device ID, whether it is the upstream port, Max Payload Size Supported, ASPM Support
(bit 0 L0s, bit 1 L1), L1 PM Substates, the highest link speed in tenths of GT/s and the lanes, DL_Active, the capabilities PM, MSI,
AER, Secondary PCIe, Physical Layer 16.0 and 32.0 GT/s and ACS, and of its slot: Hot-Plug Capable, Hot-Plug Surprise, Power Controller Present, attention button, MRL sensor, indicators, interlock. -/
structure PortCaps where
  device : Nat
  upstream : Bool
  maxPayload : Nat
  aspm : Nat
  l1Substates : Bool
  speed : Nat
  lanes : Nat
  dlActive : Bool
  pm : Bool
  msi : Bool
  aer : Bool
  secondary : Bool
  physical16 : Bool
  physical32 : Bool
  acs : Bool
  hotPlug : Bool
  surprise : Bool
  powerController : Bool
  attention : Bool
  mrl : Bool
  indicators : Bool
  interlock : Bool
  deriving DecidableEq, Repr

/-- What a configuration register other than those of `switchWord` reads, from what the port declares, the register, the word the host
wrote last and the port's status bits. The layout is PCI Express Base 5.0's, which the spec does not restate. -/
opaque cfgWord : PortCaps → Nat → BitVec 32 → Nat → BitVec 32

/-- Where a function's configuration space holds its PCI Express capability and its ACS capability, which the spec does not say: the
function, and 0 or 1. -/
opaque capAt : Nat → Nat → Nat

/-- The status bits of a port that a write of a register clears: the function, the register and the word. -/
opaque cfgClears : Nat → Nat → BitVec 32 → Nat

/-- Whether the configuration the host wrote lets a port report a condition: the function, the condition (0 an error, 1 a change of
its slot) and the configuration. -/
opaque cfgReports : Nat → Nat → List (Nat × BitVec 32) → Bool

/-- Address and data of a port's MSI, from the configuration the host wrote. -/
opaque msiOf : Nat → List (Nat × BitVec 32) → BitVec 32 × BitVec 32

/-! ## What the fuses of a part hold (R353, R363, R370, R381) -/

/-- The test root, the same in every part (R353). -/
opaque testRoot : List (BitVec 8)

/-- The device root and the return root, 48 bytes each (R353). -/
opaque deviceRoot : List (BitVec 8)
opaque returnRoot : List (BitVec 8)

/-- The fused serial number, 8 bytes (R363). -/
opaque serial : List (BitVec 8)

/-- The MAC address fused at manufacture (R276). -/
opaque fusedMac : BitVec 48

/-- The fuse image without root and seed fuses (R370), by the life-cycle codes the fuses hold: in force and pending (R353, R354). -/
opaque fuseImage : Nat → Nat → List (BitVec 8)

/-- The fused baseline of a slack monitor, in ps (R382). -/
opaque fusedBaseline : Nat → Nat

/-! ## Published figures -/

/-- Worst-case handshake cycle of an operating point, in ps (R18). -/
def cyclePs : Nat → Nat
  | 0 => 3000
  | 1 => 1800
  | 2 => 1250
  | _ => 1000

/-- Length of an epoch in nanoseconds (R18, 00_scope.md: 1,024 periods of the 125 MHz reference). -/
def epochNs : Nat := 8192

/-- Fabric port floor of an operating point, in hundredths of Gb/s (R18). -/
def portFloor : Nat → Nat
  | 0 => 17070
  | 1 => 28440
  | 2 => 40960
  | _ => 51200

/-- Full cell rate of a lane at a rate code (0 L1 … 3 L4), in hundredths of Gb/s (R21). -/
def laneRate : Nat → Nat
  | 0 => 2545
  | 1 => 5390
  | 2 => 8084
  | _ => 10779

/-- Core voltage of an operating point, in 10 mV (R18). -/
def coreVolts : Nat → Nat
  | 0 => 60
  | 1 => 68
  | 2 => 76
  | _ => 84

/-- Allottable cells of a lane per epoch at a rate code (R110). -/
def allottable : Nat → Nat
  | 0 => 195
  | 1 => 419
  | 2 => 628
  | _ => 838

end Sys2Proof.Config
end

