-- ==== Sys2Proof/Machine/RegMap.lean ====
section
/-! DEFINITION. The register map: the address of every register, the place of every field, and of every register its
reset value, its reset domain and which of its bits answer to which access code (R7). Written from the register tables of
the spec; each definition names the rule and the file of its table. A register's key is its management address,
page × 0x1000 + offset (R26, R416). -/

namespace Sys2Proof.Machine

/-- A field of a register: the register's management address, the field's lowest bit and its width. -/
structure Fld where
  addr : Nat
  lo : Nat
  width : Nat
  deriving DecidableEq, Repr

/-- The two parts of R2. -/
inductive Part where
  | mh4160 | mh4142
  deriving DecidableEq, Repr

/-- The reset domains of R9. -/
inductive Domain where
  | por | warm | page | folio
  deriving DecidableEq, Repr

/-- One row of the register map: `count` registers of one layout, `stride` bytes apart from `off` of a page. The masks
say which bits carry which access code of R7; a bit in none of them is RO or reserved (R8). -/
structure RegDesc where
  off : Nat
  stride : Nat
  count : Nat
  reset : Nat
  dom : Domain
  rw : Nat
  rwl : Nat
  w1c : Nat
  w1s : Nat
  wo : Nat
  deriving DecidableEq, Repr

/-- Whether the row describes the register at offset `o`. -/
def RegDesc.covers (d : RegDesc) (o : Nat) : Bool :=
  if d.stride = 0 then o == d.off
  else d.off ≤ o && (o - d.off) % d.stride == 0 && (o - d.off) / d.stride < d.count

/-! ## The common header (R418) -/


/-! ## Registers of spec/02_package_pins_supplies.md -/

/-- STRAP_STATUS: page GLOB (0x00), offset 0x400. R43 (02_package_pins_supplies.md). -/
def STRAP_STATUS : Nat := 0x0 + 0x400
def STRAP_STATUS.UNSTABLE : Fld := ⟨STRAP_STATUS, 8, 1⟩
def STRAP_STATUS.CASC_ROLE : Fld := ⟨STRAP_STATUS, 4, 2⟩
def STRAP_STATUS.TEST_EN : Fld := ⟨STRAP_STATUS, 0, 1⟩

/-! ## Registers of spec/03_startup_and_folios.md -/

/-- FOLIO_CTRL: page FOLIO (0x01), offset 0x040. R75 (03_startup_and_folios.md). -/
def FOLIO_CTRL : Nat := 0x1000 + 0x040
def FOLIO_CTRL.SECT : Fld := ⟨FOLIO_CTRL, 4, 2⟩
def FOLIO_CTRL.VERIFY : Fld := ⟨FOLIO_CTRL, 2, 1⟩
def FOLIO_CTRL.WRITE : Fld := ⟨FOLIO_CTRL, 0, 1⟩
/-- FOLIO_SRC: page FOLIO (0x01), offset 0x044. R75 (03_startup_and_folios.md). -/
def FOLIO_SRC : Nat := 0x1000 + 0x044
def FOLIO_SRC.BASE : Fld := ⟨FOLIO_SRC, 0, 16⟩
/-- FOLIO_STATUS: page FOLIO (0x01), offset 0x400. R75 (03_startup_and_folios.md). -/
def FOLIO_STATUS : Nat := 0x1000 + 0x400
def FOLIO_STATUS.RESULT : Fld := ⟨FOLIO_STATUS, 16, 8⟩
def FOLIO_STATUS.TORN_WRITER : Fld := ⟨FOLIO_STATUS, 8, 4⟩
def FOLIO_STATUS.BUSY : Fld := ⟨FOLIO_STATUS, 7, 1⟩
def FOLIO_STATUS.SHELF : Fld := ⟨FOLIO_STATUS, 6, 1⟩
def FOLIO_STATUS.TORN_B : Fld := ⟨FOLIO_STATUS, 5, 1⟩
def FOLIO_STATUS.TORN_A : Fld := ⟨FOLIO_STATUS, 4, 1⟩
def FOLIO_STATUS.VALID_B : Fld := ⟨FOLIO_STATUS, 3, 1⟩
def FOLIO_STATUS.VALID_A : Fld := ⟨FOLIO_STATUS, 2, 1⟩
def FOLIO_STATUS.NEWEST : Fld := ⟨FOLIO_STATUS, 1, 1⟩
def FOLIO_STATUS.ACTIVE : Fld := ⟨FOLIO_STATUS, 0, 1⟩
/-- FOLIO_ACC_A: page FOLIO (0x01), offset 0x404. R75 (03_startup_and_folios.md). -/
def FOLIO_ACC_A : Nat := 0x1000 + 0x404
def FOLIO_ACC_A.ACCESSION : Fld := ⟨FOLIO_ACC_A, 0, 32⟩
/-- FOLIO_ACC_B: page FOLIO (0x01), offset 0x408. R75 (03_startup_and_folios.md). -/
def FOLIO_ACC_B : Nat := 0x1000 + 0x408
def FOLIO_ACC_B.ACCESSION : Fld := ⟨FOLIO_ACC_B, 0, 32⟩
/-- FOLIO_SKIP: page FOLIO (0x01), offset 0x40C. R75 (03_startup_and_folios.md). -/
def FOLIO_SKIP : Nat := 0x1000 + 0x40C
def FOLIO_SKIP.SKIPPED : Fld := ⟨FOLIO_SKIP, 0, 16⟩

/-! ## Registers of spec/04_lanes.md -/

/-- LANE_CTRL: pages ULN0–ULN3 and CLN0–CLN3, offset 0x040. R104 (04_lanes.md). -/
def LANE_CTRL (l : Nat) : Nat := 0x1000 * (0x10 + l) + 0x040
def LANE_CTRL.LOOP_RATE (l : Nat) : Fld := ⟨LANE_CTRL l, 12, 2⟩
def LANE_CTRL.PRBS_SEL (l : Nat) : Fld := ⟨LANE_CTRL l, 8, 4⟩
def LANE_CTRL.LOOP (l : Nat) : Fld := ⟨LANE_CTRL l, 4, 3⟩
/-- LANE_EQ_CTRL: pages ULN0–ULN3 and CLN0–CLN3, offset 0x044. R104 (04_lanes.md). -/
def LANE_EQ_CTRL (l : Nat) : Nat := 0x1000 * (0x10 + l) + 0x044
def LANE_EQ_CTRL.RETRAIN (l : Nat) : Fld := ⟨LANE_EQ_CTRL l, 8, 1⟩
def LANE_EQ_CTRL.PRECODE (l : Nat) : Fld := ⟨LANE_EQ_CTRL l, 6, 2⟩
def LANE_EQ_CTRL.USE_RECORD (l : Nat) : Fld := ⟨LANE_EQ_CTRL l, 5, 1⟩
def LANE_EQ_CTRL.OVR_EN (l : Nat) : Fld := ⟨LANE_EQ_CTRL l, 3, 1⟩
def LANE_EQ_CTRL.PRESET (l : Nat) : Fld := ⟨LANE_EQ_CTRL l, 0, 3⟩
/-- EYE_CTRL: pages ULN0–ULN3 and CLN0–CLN3, offset 0x048. R104 (04_lanes.md). -/
def EYE_CTRL (l : Nat) : Nat := 0x1000 * (0x10 + l) + 0x048
def EYE_CTRL.START (l : Nat) : Fld := ⟨EYE_CTRL l, 31, 1⟩
def EYE_CTRL.ABORT (l : Nat) : Fld := ⟨EYE_CTRL l, 30, 1⟩
def EYE_CTRL.EYE (l : Nat) : Fld := ⟨EYE_CTRL l, 24, 2⟩
def EYE_CTRL.DWELL (l : Nat) : Fld := ⟨EYE_CTRL l, 20, 4⟩
def EYE_CTRL.PATTERN (l : Nat) : Fld := ⟨EYE_CTRL l, 19, 1⟩
/-- LANE_STATUS: pages ULN0–ULN3 and CLN0–CLN3, offset 0x400. R104 (04_lanes.md). -/
def LANE_STATUS (l : Nat) : Nat := 0x1000 * (0x10 + l) + 0x400
def LANE_STATUS.EQ_STATE (l : Nat) : Fld := ⟨LANE_STATUS l, 24, 4⟩
def LANE_STATUS.LSTATE_RX (l : Nat) : Fld := ⟨LANE_STATUS l, 22, 2⟩
def LANE_STATUS.TURN_MEDIA (l : Nat) : Fld := ⟨LANE_STATUS l, 21, 1⟩
def LANE_STATUS.TURN_TRAINED (l : Nat) : Fld := ⟨LANE_STATUS l, 20, 1⟩
def LANE_STATUS.PRE_TX (l : Nat) : Fld := ⟨LANE_STATUS l, 19, 1⟩
def LANE_STATUS.PRE_RX (l : Nat) : Fld := ⟨LANE_STATUS l, 18, 1⟩
def LANE_STATUS.RATE (l : Nat) : Fld := ⟨LANE_STATUS l, 16, 2⟩
def LANE_STATUS.DIR (l : Nat) : Fld := ⟨LANE_STATUS l, 15, 1⟩
def LANE_STATUS.SVC (l : Nat) : Fld := ⟨LANE_STATUS l, 14, 1⟩
def LANE_STATUS.ALIGN (l : Nat) : Fld := ⟨LANE_STATUS l, 12, 2⟩
def LANE_STATUS.REC_IDX (l : Nat) : Fld := ⟨LANE_STATUS l, 10, 2⟩
def LANE_STATUS.TAP_SRC (l : Nat) : Fld := ⟨LANE_STATUS l, 8, 2⟩
def LANE_STATUS.LINK_LANE (l : Nat) : Fld := ⟨LANE_STATUS l, 6, 2⟩
/-- EYE_STATUS: pages ULN0–ULN3 and CLN0–CLN3, offset 0x404. R104 (04_lanes.md). -/
def EYE_STATUS (l : Nat) : Nat := 0x1000 * (0x10 + l) + 0x404
def EYE_STATUS.BUSY (l : Nat) : Fld := ⟨EYE_STATUS l, 31, 1⟩
def EYE_STATUS.RESULT (l : Nat) : Fld := ⟨EYE_STATUS l, 16, 8⟩
def EYE_STATUS.POINTS (l : Nat) : Fld := ⟨EYE_STATUS l, 0, 10⟩
/-- LANE_CNT: pages ULN0–ULN3 and CLN0–CLN3, offset 0x408. R104 (04_lanes.md). -/
def LANE_CNT (l : Nat) : Nat := 0x1000 * (0x10 + l) + 0x408
def LANE_CNT.LOL (l : Nat) : Fld := ⟨LANE_CNT l, 16, 16⟩
def LANE_CNT.MCRC_ERR (l : Nat) : Fld := ⟨LANE_CNT l, 0, 16⟩
/-- TURN_CNT: pages ULN0–ULN3 and CLN0–CLN3, offset 0x40C. R104 (04_lanes.md). -/
def TURN_CNT (l : Nat) : Nat := 0x1000 * (0x10 + l) + 0x40C
def TURN_CNT.DONE (l : Nat) : Fld := ⟨TURN_CNT l, 16, 16⟩
def TURN_CNT.ABORTED (l : Nat) : Fld := ⟨TURN_CNT l, 0, 16⟩
/-- PRBS_ERR: pages ULN0–ULN3 and CLN0–CLN3, offset 0x410. R104 (04_lanes.md). -/
def PRBS_ERR (l : Nat) : Nat := 0x1000 * (0x10 + l) + 0x410
def PRBS_ERR.COUNT (l : Nat) : Fld := ⟨PRBS_ERR l, 0, 32⟩

/-! ## Registers of spec/05_caraxline_link.md -/

/-- LINK_CTRL: pages ULNK (0x18) and CLNK (0x19), offset 0x040. R137 (05_caraxline_link.md). -/
def LINK_CTRL (k : Nat) : Nat := 0x1000 * (0x18 + k) + 0x040
def LINK_CTRL.CNT_CLR (k : Nat) : Fld := ⟨LINK_CTRL k, 10, 1⟩
def LINK_CTRL.RETRAIN (k : Nat) : Fld := ⟨LINK_CTRL k, 9, 1⟩
def LINK_CTRL.RECOVER (k : Nat) : Fld := ⟨LINK_CTRL k, 8, 1⟩
def LINK_CTRL.MAX_RATE (k : Nat) : Fld := ⟨LINK_CTRL k, 4, 2⟩
def LINK_CTRL.V2_EN (k : Nat) : Fld := ⟨LINK_CTRL k, 1, 1⟩
def LINK_CTRL.V1_EN (k : Nat) : Fld := ⟨LINK_CTRL k, 0, 1⟩
/-- LINK_STATUS: pages ULNK (0x18) and CLNK (0x19), offset 0x400. R137 (05_caraxline_link.md). -/
def LINK_STATUS (k : Nat) : Nat := 0x1000 * (0x18 + k) + 0x400
def LINK_STATUS.STATE (k : Nat) : Fld := ⟨LINK_STATUS k, 28, 4⟩
def LINK_STATUS.VERSION (k : Nat) : Fld := ⟨LINK_STATUS k, 26, 2⟩
def LINK_STATUS.RATE (k : Nat) : Fld := ⟨LINK_STATUS k, 24, 2⟩
def LINK_STATUS.DN_MAP (k : Nat) : Fld := ⟨LINK_STATUS k, 20, 4⟩
def LINK_STATUS.UP_MAP (k : Nat) : Fld := ⟨LINK_STATUS k, 16, 4⟩
def LINK_STATUS.ARR (k : Nat) : Fld := ⟨LINK_STATUS k, 14, 2⟩
def LINK_STATUS.CAPPED (k : Nat) : Fld := ⟨LINK_STATUS k, 13, 1⟩
def LINK_STATUS.HOLD_RX (k : Nat) : Fld := ⟨LINK_STATUS k, 12, 1⟩
def LINK_STATUS.SCHED (k : Nat) : Fld := ⟨LINK_STATUS k, 11, 1⟩
def LINK_STATUS.ATTEMPT (k : Nat) : Fld := ⟨LINK_STATUS k, 8, 3⟩
/-- LINK_CNT: pages ULNK (0x18) and CLNK (0x19), offset 0x404. R137 (05_caraxline_link.md). -/
def LINK_CNT (k : Nat) : Nat := 0x1000 * (0x18 + k) + 0x404
def LINK_CNT.RECOVERIES (k : Nat) : Fld := ⟨LINK_CNT k, 16, 16⟩
def LINK_CNT.TRAIN_FAIL (k : Nat) : Fld := ⟨LINK_CNT k, 8, 8⟩
def LINK_CNT.PROTO_ERR (k : Nat) : Fld := ⟨LINK_CNT k, 0, 8⟩
/-- REPLAY_CNT: pages ULNK (0x18) and CLNK (0x19), offset 0x408. R137 (05_caraxline_link.md). -/
def REPLAY_CNT (k : Nat) : Nat := 0x1000 * (0x18 + k) + 0x408
def REPLAY_CNT.REPLAYED (k : Nat) : Fld := ⟨REPLAY_CNT k, 16, 16⟩
def REPLAY_CNT.BAD_BLOCKS (k : Nat) : Fld := ⟨REPLAY_CNT k, 0, 16⟩
/-- STREAM_LOST: pages ULNK (0x18) and CLNK (0x19), offset 0x40C. R137 (05_caraxline_link.md). -/
def STREAM_LOST (k : Nat) : Nat := 0x1000 * (0x18 + k) + 0x40C
def STREAM_LOST.COUNT (k : Nat) : Fld := ⟨STREAM_LOST k, 0, 32⟩

/-! ## Registers of spec/06_circulation.md -/

/-- FLOW_CFG: pages FLOW0–FLOW3, offset 0x800 + 0x20 × (f mod 64). R140 (06_circulation.md). -/
def FLOW_CFG (f : Nat) : Nat := 0x1000 * (0xB + f / 64) + 0x800 + 0x20 * (f % 64)
def FLOW_CFG.VALID (f : Nat) : Fld := ⟨FLOW_CFG f, 31, 1⟩
def FLOW_CFG.CLASS (f : Nat) : Fld := ⟨FLOW_CFG f, 28, 3⟩
def FLOW_CFG.ENC (f : Nat) : Fld := ⟨FLOW_CFG f, 27, 1⟩
def FLOW_CFG.SIDE (f : Nat) : Fld := ⟨FLOW_CFG f, 26, 1⟩
def FLOW_CFG.BEAM_HEAD (f : Nat) : Fld := ⟨FLOW_CFG f, 23, 3⟩
def FLOW_CFG.ENDPOINT (f : Nat) : Fld := ⟨FLOW_CFG f, 19, 4⟩
def FLOW_CFG.WEIGHT (f : Nat) : Fld := ⟨FLOW_CFG f, 8, 8⟩
def FLOW_CFG.HOLD_LIM (f : Nat) : Fld := ⟨FLOW_CFG f, 0, 8⟩
/-- FLOW_GUAR: pages FLOW0–FLOW3, offset 0x804 + 0x20 × (f mod 64). R140 (06_circulation.md). -/
def FLOW_GUAR (f : Nat) : Nat := 0x1000 * (0xB + f / 64) + 0x804 + 0x20 * (f % 64)
def FLOW_GUAR.G_OUT (f : Nat) : Fld := ⟨FLOW_GUAR f, 16, 12⟩
def FLOW_GUAR.G_IN (f : Nat) : Fld := ⟨FLOW_GUAR f, 0, 12⟩
/-- FLOW_CEIL: pages FLOW0–FLOW3, offset 0x808 + 0x20 × (f mod 64). R140 (06_circulation.md). -/
def FLOW_CEIL (f : Nat) : Nat := 0x1000 * (0xB + f / 64) + 0x808 + 0x20 * (f % 64)
def FLOW_CEIL.C_OUT (f : Nat) : Fld := ⟨FLOW_CEIL f, 16, 12⟩
def FLOW_CEIL.C_IN (f : Nat) : Fld := ⟨FLOW_CEIL f, 0, 12⟩
/-- FLOW_DECL: pages FLOW0–FLOW3, offset 0x80C + 0x20 × (f mod 64). R140 (06_circulation.md). -/
def FLOW_DECL (f : Nat) : Nat := 0x1000 * (0xB + f / 64) + 0x80C + 0x20 * (f % 64)
def FLOW_DECL.D_OUT (f : Nat) : Fld := ⟨FLOW_DECL f, 16, 12⟩
def FLOW_DECL.D_IN (f : Nat) : Fld := ⟨FLOW_DECL f, 0, 12⟩
/-- FLOW_STATE: pages FLOW0–FLOW3, offset 0x810 + 0x20 × (f mod 64). R140 (06_circulation.md). -/
def FLOW_STATE (f : Nat) : Nat := 0x1000 * (0xB + f / 64) + 0x810 + 0x20 * (f % 64)
def FLOW_STATE.STATE (f : Nat) : Fld := ⟨FLOW_STATE f, 29, 3⟩
def FLOW_STATE.SPARE (f : Nat) : Fld := ⟨FLOW_STATE f, 28, 1⟩
def FLOW_STATE.ADMIT (f : Nat) : Fld := ⟨FLOW_STATE f, 24, 4⟩
def FLOW_STATE.A_OUT (f : Nat) : Fld := ⟨FLOW_STATE f, 12, 12⟩
def FLOW_STATE.A_IN (f : Nat) : Fld := ⟨FLOW_STATE f, 0, 12⟩
/-- FLOW_BACKLOG: pages FLOW0–FLOW3, offset 0x814 + 0x20 × (f mod 64). R140 (06_circulation.md). -/
def FLOW_BACKLOG (f : Nat) : Nat := 0x1000 * (0xB + f / 64) + 0x814 + 0x20 * (f % 64)
def FLOW_BACKLOG.B_OUT (f : Nat) : Fld := ⟨FLOW_BACKLOG f, 16, 12⟩
def FLOW_BACKLOG.B_IN (f : Nat) : Fld := ⟨FLOW_BACKLOG f, 0, 12⟩
/-- FLOW_DEF: pages FLOW0–FLOW3, offset 0x818 + 0x20 × (f mod 64). R140 (06_circulation.md). -/
def FLOW_DEF (f : Nat) : Nat := 0x1000 * (0xB + f / 64) + 0x818 + 0x20 * (f % 64)
def FLOW_DEF.DEF_OUT (f : Nat) : Fld := ⟨FLOW_DEF f, 16, 8⟩
def FLOW_DEF.DEF_IN (f : Nat) : Fld := ⟨FLOW_DEF f, 0, 8⟩
/-- FLOW_CNT: pages FLOW0–FLOW3, offset 0x81C + 0x20 × (f mod 64). R140 (06_circulation.md). -/
def FLOW_CNT (f : Nat) : Nat := 0x1000 * (0xB + f / 64) + 0x81C + 0x20 * (f % 64)
def FLOW_CNT.LATE (f : Nat) : Fld := ⟨FLOW_CNT f, 16, 16⟩
def FLOW_CNT.OVER (f : Nat) : Fld := ⟨FLOW_CNT f, 0, 16⟩
/-- CIRC_CTRL: page CIRC (0x0A), offset 0x040. R164 (06_circulation.md). -/
def CIRC_CTRL : Nat := 0xA000 + 0x040
def CIRC_CTRL.CNT_CLR : Fld := ⟨CIRC_CTRL, 10, 1⟩
def CIRC_CTRL.HORIZON : Fld := ⟨CIRC_CTRL, 0, 8⟩
/-- CIRC_TURN: page CIRC (0x0A), offset 0x044. R164 (06_circulation.md). -/
def CIRC_TURN : Nat := 0xA000 + 0x044
def CIRC_TURN.MODE : Fld := ⟨CIRC_TURN, 30, 2⟩
def CIRC_TURN.TARGET : Fld := ⟨CIRC_TURN, 28, 2⟩
def CIRC_TURN.DWELL : Fld := ⟨CIRC_TURN, 16, 8⟩
def CIRC_TURN.CONFIRM : Fld := ⟨CIRC_TURN, 8, 8⟩
def CIRC_TURN.HYST : Fld := ⟨CIRC_TURN, 0, 8⟩
/-- CIRC_ADMIT: page CIRC (0x0A), offset 0x400. R164 (06_circulation.md). -/
def CIRC_ADMIT : Nat := 0xA000 + 0x400
def CIRC_ADMIT.RESULT : Fld := ⟨CIRC_ADMIT, 16, 8⟩
def CIRC_ADMIT.FLOW : Fld := ⟨CIRC_ADMIT, 0, 8⟩

/-! ## Registers of spec/07_bridge_windows.md -/

/-- WIN_CTRL: page BWIN (0x1B), offset 0x040 + 0x10 × w. R188 (07_bridge_windows.md). -/
def WIN_CTRL (i : Nat) : Nat := 0x1B000 + 0x040 + 0x10 * i
def WIN_CTRL.EN (i : Nat) : Fld := ⟨WIN_CTRL i, 31, 1⟩
def WIN_CTRL.CLASS (i : Nat) : Fld := ⟨WIN_CTRL i, 30, 1⟩
def WIN_CTRL.ORDER (i : Nat) : Fld := ⟨WIN_CTRL i, 28, 2⟩
def WIN_CTRL.PREFETCH (i : Nat) : Fld := ⟨WIN_CTRL i, 27, 1⟩
def WIN_CTRL.PF_DEPTH (i : Nat) : Fld := ⟨WIN_CTRL i, 24, 3⟩
def WIN_CTRL.SIZE (i : Nat) : Fld := ⟨WIN_CTRL i, 16, 5⟩
/-- WIN_BASE: page BWIN (0x1B), offset 0x044 + 0x10 × w. R188 (07_bridge_windows.md). -/
def WIN_BASE (i : Nat) : Nat := 0x1B000 + 0x044 + 0x10 * i
def WIN_BASE.BASE (i : Nat) : Fld := ⟨WIN_BASE i, 0, 28⟩
/-- WIN_ROUTE: page BWIN (0x1B), offset 0x048 + 0x10 × w. R188 (07_bridge_windows.md). -/
def WIN_ROUTE (i : Nat) : Nat := 0x1B000 + 0x048 + 0x10 * i
def WIN_ROUTE.REMOTE (i : Nat) : Fld := ⟨WIN_ROUTE i, 31, 1⟩
def WIN_ROUTE.POS (i : Nat) : Fld := ⟨WIN_ROUTE i, 24, 2⟩
def WIN_ROUTE.PFLOW (i : Nat) : Fld := ⟨WIN_ROUTE i, 0, 8⟩
/-- WIN_CNT: page BWIN (0x1B), offset 0x04C + 0x10 × w. R188 (07_bridge_windows.md). -/
def WIN_CNT (i : Nat) : Nat := 0x1B000 + 0x04C + 0x10 * i
def WIN_CNT.ERRORS (i : Nat) : Fld := ⟨WIN_CNT i, 16, 16⟩
def WIN_CNT.ACCESSES (i : Nat) : Fld := ⟨WIN_CNT i, 0, 16⟩
/-- BRDG_CTRL: page BRDG (0x1A), offset 0x040. R188 (07_bridge_windows.md). -/
def BRDG_CTRL : Nat := 0x1A000 + 0x040
def BRDG_CTRL.CNT_CLR : Fld := ⟨BRDG_CTRL, 8, 1⟩
def BRDG_CTRL.CPL_TO : Fld := ⟨BRDG_CTRL, 0, 6⟩
/-- BRDG_LOG_REL: page BRDG (0x1A), offset 0x044. R188 (07_bridge_windows.md). -/
def BRDG_LOG_REL : Nat := 0x1A000 + 0x044
def BRDG_LOG_REL.REL : Fld := ⟨BRDG_LOG_REL, 0, 1⟩
/-- BRDG_STATUS: page BRDG (0x1A), offset 0x400. R188 (07_bridge_windows.md). -/
def BRDG_STATUS : Nat := 0x1A000 + 0x400
def BRDG_STATUS.CFG_IGN : Fld := ⟨BRDG_STATUS, 24, 8⟩
def BRDG_STATUS.LOG_OVF : Fld := ⟨BRDG_STATUS, 23, 1⟩
def BRDG_STATUS.LOG_COUNT : Fld := ⟨BRDG_STATUS, 16, 5⟩
def BRDG_STATUS.LOG_OLDEST : Fld := ⟨BRDG_STATUS, 12, 4⟩
def BRDG_STATUS.TAGS : Fld := ⟨BRDG_STATUS, 0, 9⟩
/-- PF_HIT: page BRDG (0x1A), offset 0x404. R188 (07_bridge_windows.md). -/
def PF_HIT : Nat := 0x1A000 + 0x404
def PF_HIT.COUNT : Fld := ⟨PF_HIT, 0, 32⟩
/-- PF_DISCARD: page BRDG (0x1A), offset 0x408. R188 (07_bridge_windows.md). -/
def PF_DISCARD : Nat := 0x1A000 + 0x408
def PF_DISCARD.COUNT : Fld := ⟨PF_DISCARD, 0, 32⟩
/-- ERR_CNT: page BRDG (0x1A), offset 0x40C. R188 (07_bridge_windows.md). -/
def ERR_CNT : Nat := 0x1A000 + 0x40C
def ERR_CNT.TIMEOUTS : Fld := ⟨ERR_CNT, 16, 16⟩
def ERR_CNT.LATE : Fld := ⟨ERR_CNT, 0, 16⟩

/-! ## Registers of spec/08_display_surfaces.md -/

/-- SD_CTRL: page SDSC (0x1E), offset 0x800 + 0x20 × s. R213 (08_display_surfaces.md). -/
def SD_CTRL (i : Nat) : Nat := 0x1E000 + 0x800 + 0x20 * i
def SD_CTRL.VALID (i : Nat) : Fld := ⟨SD_CTRL i, 31, 1⟩
def SD_CTRL.LAYOUT (i : Nat) : Fld := ⟨SD_CTRL i, 29, 2⟩
def SD_CTRL.FORMAT (i : Nat) : Fld := ⟨SD_CTRL i, 26, 3⟩
/-- SD_SIZE: page SDSC (0x1E), offset 0x804 + 0x20 × s. R213 (08_display_surfaces.md). -/
def SD_SIZE (i : Nat) : Nat := 0x1E000 + 0x804 + 0x20 * i
def SD_SIZE.HEIGHT (i : Nat) : Fld := ⟨SD_SIZE i, 16, 13⟩
def SD_SIZE.WIDTH (i : Nat) : Fld := ⟨SD_SIZE i, 0, 13⟩
/-- SD_BASE: page SDSC (0x1E), offset 0x808 + 0x20 × s. R213 (08_display_surfaces.md). -/
def SD_BASE (i : Nat) : Nat := 0x1E000 + 0x808 + 0x20 * i
def SD_BASE.BASE (i : Nat) : Fld := ⟨SD_BASE i, 0, 20⟩
/-- SD_AUX: page SDSC (0x1E), offset 0x80C + 0x20 × s. R213 (08_display_surfaces.md). -/
def SD_AUX (i : Nat) : Nat := 0x1E000 + 0x80C + 0x20 * i
def SD_AUX.AUX (i : Nat) : Fld := ⟨SD_AUX i, 0, 20⟩
/-- SD_CNT: page SDSC (0x1E), offset 0x810 + 0x20 × s. R213 (08_display_surfaces.md). -/
def SD_CNT (i : Nat) : Nat := 0x1E000 + 0x810 + 0x20 * i
def SD_CNT.WRITTEN (i : Nat) : Fld := ⟨SD_CNT i, 16, 16⟩
def SD_CNT.LATE (i : Nat) : Fld := ⟨SD_CNT i, 0, 16⟩
/-- SD_REJ: page SDSC (0x1E), offset 0x814 + 0x20 × s. R213 (08_display_surfaces.md). -/
def SD_REJ (i : Nat) : Nat := 0x1E000 + 0x814 + 0x20 * i
def SD_REJ.REJECTED (i : Nat) : Fld := ⟨SD_REJ i, 0, 16⟩
/-- SURF_CTRL: page SURF (0x1D), offset 0x040. R213 (08_display_surfaces.md). -/
def SURF_CTRL : Nat := 0x1D000 + 0x040
def SURF_CTRL.CNT_CLR : Fld := ⟨SURF_CTRL, 8, 1⟩
def SURF_CTRL.BEAM_INT : Fld := ⟨SURF_CTRL, 4, 4⟩
def SURF_CTRL.BEAM_EN : Fld := ⟨SURF_CTRL, 0, 4⟩
/-- RX_CTRL: page SURF (0x1D), offset 0x044 + 4 × k. R213 (08_display_surfaces.md). -/
def RX_CTRL (i : Nat) : Nat := 0x1D000 + 0x044 + 0x4 * i
def RX_CTRL.EN (i : Nat) : Fld := ⟨RX_CTRL i, 31, 1⟩
def RX_CTRL.BASE (i : Nat) : Fld := ⟨RX_CTRL i, 0, 20⟩
/-- SURF_STATUS: page SURF (0x1D), offset 0x400. R213 (08_display_surfaces.md). -/
def SURF_STATUS : Nat := 0x1D000 + 0x400
def SURF_STATUS.CFG_IGN : Fld := ⟨SURF_STATUS, 24, 8⟩
def SURF_STATUS.ASM_USED : Fld := ⟨SURF_STATUS, 8, 7⟩
def SURF_STATUS.UNITS_BUSY : Fld := ⟨SURF_STATUS, 0, 2⟩
/-- SURF_REJ0: page SURF (0x1D), offset 0x404. R213 (08_display_surfaces.md). -/
def SURF_REJ0 : Nat := 0x1D000 + 0x404
def SURF_REJ0.REASON : Fld := ⟨SURF_REJ0, 24, 8⟩
def SURF_REJ0.FLOW : Fld := ⟨SURF_REJ0, 16, 8⟩
def SURF_REJ0.SURF : Fld := ⟨SURF_REJ0, 8, 6⟩
def SURF_REJ0.OP : Fld := ⟨SURF_REJ0, 0, 8⟩
/-- SURF_REJ1: page SURF (0x1D), offset 0x408. R213 (08_display_surfaces.md). -/
def SURF_REJ1 : Nat := 0x1D000 + 0x408
def SURF_REJ1.TY : Fld := ⟨SURF_REJ1, 16, 9⟩
def SURF_REJ1.TX : Fld := ⟨SURF_REJ1, 0, 7⟩
/-- RX_STATUS: page SURF (0x1D), offset 0x410 + 4 × k. R213 (08_display_surfaces.md). -/
def RX_STATUS (i : Nat) : Nat := 0x1D000 + 0x410 + 0x4 * i
def RX_STATUS.ACTIVE (i : Nat) : Fld := ⟨RX_STATUS i, 31, 1⟩
def RX_STATUS.UNSUPP (i : Nat) : Fld := ⟨RX_STATUS i, 30, 1⟩
def RX_STATUS.BPC (i : Nat) : Fld := ⟨RX_STATUS i, 28, 2⟩
def RX_STATUS.UNDER (i : Nat) : Fld := ⟨RX_STATUS i, 0, 16⟩

/-! ## Registers of spec/09_scanout_heads.md -/

/-- HEAD_CTRL: pages HEAD0–HEAD3, offset 0x040. R241 (09_scanout_heads.md). -/
def HEAD_CTRL (h : Nat) : Nat := 0x1000 * (0x20 + h) + 0x040
def HEAD_CTRL.EN (h : Nat) : Fld := ⟨HEAD_CTRL h, 31, 1⟩
def HEAD_CTRL.MODE (h : Nat) : Fld := ⟨HEAD_CTRL h, 29, 2⟩
def HEAD_CTRL.TE_EN (h : Nat) : Fld := ⟨HEAD_CTRL h, 28, 1⟩
def HEAD_CTRL.TE_POL (h : Nat) : Fld := ⟨HEAD_CTRL h, 27, 1⟩
def HEAD_CTRL.OUT (h : Nat) : Fld := ⟨HEAD_CTRL h, 25, 2⟩
def HEAD_CTRL.DSC_EN (h : Nat) : Fld := ⟨HEAD_CTRL h, 24, 1⟩
def HEAD_CTRL.BPC10 (h : Nat) : Fld := ⟨HEAD_CTRL h, 23, 1⟩
def HEAD_CTRL.CLOSE (h : Nat) : Fld := ⟨HEAD_CTRL h, 8, 8⟩
/-- HEAD_HTIM: pages HEAD0–HEAD3, offset 0x044. R241 (09_scanout_heads.md). -/
def HEAD_HTIM (h : Nat) : Nat := 0x1000 * (0x20 + h) + 0x044
def HEAD_HTIM.HTOTAL (h : Nat) : Fld := ⟨HEAD_HTIM h, 16, 16⟩
def HEAD_HTIM.HACTIVE (h : Nat) : Fld := ⟨HEAD_HTIM h, 0, 16⟩
/-- HEAD_VTIM: pages HEAD0–HEAD3, offset 0x048. R241 (09_scanout_heads.md). -/
def HEAD_VTIM (h : Nat) : Nat := 0x1000 * (0x20 + h) + 0x048
def HEAD_VTIM.VTOTAL (h : Nat) : Fld := ⟨HEAD_VTIM h, 16, 16⟩
def HEAD_VTIM.VACTIVE (h : Nat) : Fld := ⟨HEAD_VTIM h, 0, 16⟩
/-- HEAD_SYNC: pages HEAD0–HEAD3, offset 0x04C. R241 (09_scanout_heads.md). -/
def HEAD_SYNC (h : Nat) : Nat := 0x1000 * (0x20 + h) + 0x04C
def HEAD_SYNC.HPOL (h : Nat) : Fld := ⟨HEAD_SYNC h, 31, 1⟩
def HEAD_SYNC.VPOL (h : Nat) : Fld := ⟨HEAD_SYNC h, 30, 1⟩
def HEAD_SYNC.HFP (h : Nat) : Fld := ⟨HEAD_SYNC h, 20, 10⟩
def HEAD_SYNC.HSW (h : Nat) : Fld := ⟨HEAD_SYNC h, 12, 8⟩
def HEAD_SYNC.VFP (h : Nat) : Fld := ⟨HEAD_SYNC h, 4, 8⟩
def HEAD_SYNC.VSW (h : Nat) : Fld := ⟨HEAD_SYNC h, 0, 4⟩
/-- HEAD_PCLK: pages HEAD0–HEAD3, offset 0x050. R241 (09_scanout_heads.md). -/
def HEAD_PCLK (h : Nat) : Nat := 0x1000 * (0x20 + h) + 0x050
def HEAD_PCLK.PCLK (h : Nat) : Fld := ⟨HEAD_PCLK h, 0, 23⟩
/-- HEAD_OPT: pages HEAD0–HEAD3, offset 0x054. R241 (09_scanout_heads.md). -/
def HEAD_OPT (h : Nat) : Nat := 0x1000 * (0x20 + h) + 0x054
def HEAD_OPT.SLICES (h : Nat) : Fld := ⟨HEAD_OPT h, 29, 3⟩
def HEAD_OPT.BPP16 (h : Nat) : Fld := ⟨HEAD_OPT h, 18, 11⟩
def HEAD_OPT.TE_TO (h : Nat) : Fld := ⟨HEAD_OPT h, 0, 16⟩
/-- HEAD_PLANE: pages HEAD0–HEAD3, offset 0x080. R241 (09_scanout_heads.md). -/
def HEAD_PLANE (h : Nat) : Nat := 0x1000 * (0x20 + h) + 0x080
def HEAD_PLANE.MAIN_EN (h : Nat) : Fld := ⟨HEAD_PLANE h, 31, 1⟩
def HEAD_PLANE.SURF (h : Nat) : Fld := ⟨HEAD_PLANE h, 24, 6⟩
def HEAD_PLANE.BG (h : Nat) : Fld := ⟨HEAD_PLANE h, 0, 24⟩
/-- HEAD_COMMIT: pages HEAD0–HEAD3, offset 0x084. R241 (09_scanout_heads.md). -/
def HEAD_COMMIT (h : Nat) : Nat := 0x1000 * (0x20 + h) + 0x084
def HEAD_COMMIT.CNT_CLR (h : Nat) : Fld := ⟨HEAD_COMMIT h, 2, 1⟩
def HEAD_COMMIT.CANCEL (h : Nat) : Fld := ⟨HEAD_COMMIT h, 1, 1⟩
def HEAD_COMMIT.ARM (h : Nat) : Fld := ⟨HEAD_COMMIT h, 0, 1⟩
/-- HEAD_STATUS: pages HEAD0–HEAD3, offset 0x400. R241 (09_scanout_heads.md). -/
def HEAD_STATUS (h : Nat) : Nat := 0x1000 * (0x20 + h) + 0x400
def HEAD_STATUS.SCANNING (h : Nat) : Fld := ⟨HEAD_STATUS h, 31, 1⟩
def HEAD_STATUS.VBLANK (h : Nat) : Fld := ⟨HEAD_STATUS h, 30, 1⟩
def HEAD_STATUS.TE_HOLD (h : Nat) : Fld := ⟨HEAD_STATUS h, 29, 1⟩
def HEAD_STATUS.ARMED (h : Nat) : Fld := ⟨HEAD_STATUS h, 28, 1⟩
def HEAD_STATUS.MISSED (h : Nat) : Fld := ⟨HEAD_STATUS h, 27, 1⟩
def HEAD_STATUS.LOCKED (h : Nat) : Fld := ⟨HEAD_STATUS h, 26, 1⟩
def HEAD_STATUS.CREF (h : Nat) : Fld := ⟨HEAD_STATUS h, 24, 2⟩
def HEAD_STATUS.LIVE_SURF (h : Nat) : Fld := ⟨HEAD_STATUS h, 16, 6⟩
def HEAD_STATUS.MISS_CNT (h : Nat) : Fld := ⟨HEAD_STATUS h, 8, 8⟩
def HEAD_STATUS.UNDER_CNT (h : Nat) : Fld := ⟨HEAD_STATUS h, 0, 8⟩
/-- HEAD_POS: pages HEAD0–HEAD3, offset 0x404. R241 (09_scanout_heads.md). -/
def HEAD_POS (h : Nat) : Nat := 0x1000 * (0x20 + h) + 0x404
def HEAD_POS.FRAME (h : Nat) : Fld := ⟨HEAD_POS h, 16, 16⟩
def HEAD_POS.LINE (h : Nat) : Fld := ⟨HEAD_POS h, 0, 16⟩
/-- MARG_CTRL: page MARG (0x1F), offset 0x040 + 0x20 × h. R241 (09_scanout_heads.md). -/
def MARG_CTRL (i : Nat) : Nat := 0x1F000 + 0x040 + 0x20 * i
def MARG_CTRL.EN (i : Nat) : Fld := ⟨MARG_CTRL i, 31, 1⟩
def MARG_CTRL.FMT (i : Nat) : Fld := ⟨MARG_CTRL i, 30, 1⟩
def MARG_CTRL.SCALE (i : Nat) : Fld := ⟨MARG_CTRL i, 28, 2⟩
def MARG_CTRL.SEL (i : Nat) : Fld := ⟨MARG_CTRL i, 27, 1⟩
def MARG_CTRL.GALPHA (i : Nat) : Fld := ⟨MARG_CTRL i, 16, 8⟩
/-- MARG_POS: page MARG (0x1F), offset 0x044 + 0x20 × h. R241 (09_scanout_heads.md). -/
def MARG_POS (i : Nat) : Nat := 0x1F000 + 0x044 + 0x20 * i
def MARG_POS.Y (i : Nat) : Fld := ⟨MARG_POS i, 16, 13⟩
def MARG_POS.X (i : Nat) : Fld := ⟨MARG_POS i, 0, 13⟩
/-- MARG_SIZE: page MARG (0x1F), offset 0x048 + 0x20 × h. R241 (09_scanout_heads.md). -/
def MARG_SIZE (i : Nat) : Nat := 0x1F000 + 0x048 + 0x20 * i
def MARG_SIZE.H (i : Nat) : Fld := ⟨MARG_SIZE i, 16, 11⟩
def MARG_SIZE.W (i : Nat) : Fld := ⟨MARG_SIZE i, 0, 11⟩
/-- MARG_BASE: page MARG (0x1F), offset 0x04C + 0x20 × h. R241 (09_scanout_heads.md). -/
def MARG_BASE (i : Nat) : Nat := 0x1F000 + 0x04C + 0x20 * i
def MARG_BASE.BASE1 (i : Nat) : Fld := ⟨MARG_BASE i, 16, 16⟩
def MARG_BASE.BASE0 (i : Nat) : Fld := ⟨MARG_BASE i, 0, 16⟩
/-- MARG_COMMIT: page MARG (0x1F), offset 0x050 + 0x20 × h. R241 (09_scanout_heads.md). -/
def MARG_COMMIT (i : Nat) : Nat := 0x1F000 + 0x050 + 0x20 * i
def MARG_COMMIT.CANCEL (i : Nat) : Fld := ⟨MARG_COMMIT i, 1, 1⟩
def MARG_COMMIT.ARM (i : Nat) : Fld := ⟨MARG_COMMIT i, 0, 1⟩
/-- MARG_STATUS: page MARG (0x1F), offset 0x400 + 4 × h. R241 (09_scanout_heads.md). -/
def MARG_STATUS (i : Nat) : Nat := 0x1F000 + 0x400 + 0x4 * i
def MARG_STATUS.REFUSED (i : Nat) : Fld := ⟨MARG_STATUS i, 4, 1⟩
def MARG_STATUS.ARMED (i : Nat) : Fld := ⟨MARG_STATUS i, 3, 1⟩
def MARG_STATUS.MISSED (i : Nat) : Fld := ⟨MARG_STATUS i, 2, 1⟩
def MARG_STATUS.LIVE_SEL (i : Nat) : Fld := ⟨MARG_STATUS i, 1, 1⟩
def MARG_STATUS.LIVE_EN (i : Nat) : Fld := ⟨MARG_STATUS i, 0, 1⟩
/-- DPTX_CTRL: pages DPTX0–DPTX3, offset 0x040. R241 (09_scanout_heads.md). -/
def DPTX_CTRL (h : Nat) : Nat := 0x1000 * (0x24 + h) + 0x040
def DPTX_CTRL.EN (h : Nat) : Fld := ⟨DPTX_CTRL h, 31, 1⟩
def DPTX_CTRL.MST (h : Nat) : Fld := ⟨DPTX_CTRL h, 30, 1⟩
def DPTX_CTRL.PWR_EN (h : Nat) : Fld := ⟨DPTX_CTRL h, 29, 1⟩
def DPTX_CTRL.MAX_RATE (h : Nat) : Fld := ⟨DPTX_CTRL h, 25, 3⟩
def DPTX_CTRL.MAX_LANES (h : Nat) : Fld := ⟨DPTX_CTRL h, 23, 2⟩
def DPTX_CTRL.RETRAIN (h : Nat) : Fld := ⟨DPTX_CTRL h, 22, 1⟩
/-- DPTX_SLOTS: pages DPTX0–DPTX3, offset 0x044. R241 (09_scanout_heads.md). -/
def DPTX_SLOTS (h : Nat) : Nat := 0x1000 * (0x24 + h) + 0x044
def DPTX_SLOTS.S3 (h : Nat) : Fld := ⟨DPTX_SLOTS h, 24, 6⟩
def DPTX_SLOTS.S2 (h : Nat) : Fld := ⟨DPTX_SLOTS h, 16, 6⟩
def DPTX_SLOTS.S1 (h : Nat) : Fld := ⟨DPTX_SLOTS h, 8, 6⟩
def DPTX_SLOTS.S0 (h : Nat) : Fld := ⟨DPTX_SLOTS h, 0, 6⟩
/-- DPTX_AUX: pages DPTX0–DPTX3, offset 0x048. R241 (09_scanout_heads.md). -/
def DPTX_AUX (h : Nat) : Nat := 0x1000 * (0x24 + h) + 0x048
def DPTX_AUX.GO (h : Nat) : Fld := ⟨DPTX_AUX h, 31, 1⟩
def DPTX_AUX.CMD (h : Nat) : Fld := ⟨DPTX_AUX h, 28, 3⟩
def DPTX_AUX.LEN (h : Nat) : Fld := ⟨DPTX_AUX h, 24, 4⟩
def DPTX_AUX.ADDR (h : Nat) : Fld := ⟨DPTX_AUX h, 0, 20⟩
/-- DPTX_STATUS: pages DPTX0–DPTX3, offset 0x400. R241 (09_scanout_heads.md). -/
def DPTX_STATUS (h : Nat) : Nat := 0x1000 * (0x24 + h) + 0x400
def DPTX_STATUS.HPD (h : Nat) : Fld := ⟨DPTX_STATUS h, 31, 1⟩
def DPTX_STATUS.TRAINED (h : Nat) : Fld := ⟨DPTX_STATUS h, 30, 1⟩
def DPTX_STATUS.RATE (h : Nat) : Fld := ⟨DPTX_STATUS h, 27, 3⟩
def DPTX_STATUS.LANES (h : Nat) : Fld := ⟨DPTX_STATUS h, 25, 2⟩
def DPTX_STATUS.PWR_OC (h : Nat) : Fld := ⟨DPTX_STATUS h, 24, 1⟩
def DPTX_STATUS.PWR_ON (h : Nat) : Fld := ⟨DPTX_STATUS h, 23, 1⟩
def DPTX_STATUS.FIT_ERR (h : Nat) : Fld := ⟨DPTX_STATUS h, 22, 1⟩
def DPTX_STATUS.AUX_RES (h : Nat) : Fld := ⟨DPTX_STATUS h, 16, 4⟩
def DPTX_STATUS.AUX_BUSY (h : Nat) : Fld := ⟨DPTX_STATUS h, 15, 1⟩
def DPTX_STATUS.IRQ_CNT (h : Nat) : Fld := ⟨DPTX_STATUS h, 0, 8⟩

/-! ## Registers of spec/10_usb_hub.md -/

/-- HUB_CTRL: page HUB (0x28), offset 0x040. R262 (10_usb_hub.md). -/
def HUB_CTRL : Nat := 0x28000 + 0x040
def HUB_CTRL.CNT_CLR : Fld := ⟨HUB_CTRL, 12, 1⟩
def HUB_CTRL.BABBLE_LIM : Fld := ⟨HUB_CTRL, 8, 4⟩
/-- HUB_TUN: page HUB (0x28), offset 0x044. R262 (10_usb_hub.md). -/
def HUB_TUN : Nat := 0x28000 + 0x044
def HUB_TUN.EN : Fld := ⟨HUB_TUN, 31, 1⟩
def HUB_TUN.ISO_FLOW : Fld := ⟨HUB_TUN, 8, 8⟩
def HUB_TUN.BULK_FLOW : Fld := ⟨HUB_TUN, 0, 8⟩
/-- HUB_STATUS: page HUB (0x28), offset 0x400. R262 (10_usb_hub.md). -/
def HUB_STATUS : Nat := 0x28000 + 0x400
def HUB_STATUS.UP : Fld := ⟨HUB_STATUS, 28, 4⟩
def HUB_STATUS.SUSPENDED : Fld := ⟨HUB_STATUS, 27, 1⟩
def HUB_STATUS.TUN_REJ : Fld := ⟨HUB_STATUS, 0, 16⟩
/-- PORT_CTRL: page HUBP (0x29), offset 0x040 + 4 × p. R262 (10_usb_hub.md). -/
def PORT_CTRL (i : Nat) : Nat := 0x29000 + 0x040 + 0x4 * i
def PORT_CTRL.DISABLE (i : Nat) : Fld := ⟨PORT_CTRL i, 31, 1⟩
/-- PORT_STATUS: page HUBP (0x29), offset 0x400 + 4 × p. R262 (10_usb_hub.md). -/
def PORT_STATUS (i : Nat) : Nat := 0x29000 + 0x400 + 0x4 * i
def PORT_STATUS.VBUS_ON (i : Nat) : Fld := ⟨PORT_STATUS i, 31, 1⟩
def PORT_STATUS.CONNECTED (i : Nat) : Fld := ⟨PORT_STATUS i, 30, 1⟩
def PORT_STATUS.SPEED (i : Nat) : Fld := ⟨PORT_STATUS i, 28, 2⟩
def PORT_STATUS.OC (i : Nat) : Fld := ⟨PORT_STATUS i, 27, 1⟩
def PORT_STATUS.CUTOFF (i : Nat) : Fld := ⟨PORT_STATUS i, 26, 1⟩
def PORT_STATUS.GANGED (i : Nat) : Fld := ⟨PORT_STATUS i, 25, 1⟩
def PORT_STATUS.RSM_HOST (i : Nat) : Fld := ⟨PORT_STATUS i, 24, 1⟩
def PORT_STATUS.RSM_DEV (i : Nat) : Fld := ⟨PORT_STATUS i, 23, 1⟩
def PORT_STATUS.ILIM (i : Nat) : Fld := ⟨PORT_STATUS i, 20, 3⟩
def PORT_STATUS.BABBLE_CNT (i : Nat) : Fld := ⟨PORT_STATUS i, 8, 8⟩
def PORT_STATUS.OC_CNT (i : Nat) : Fld := ⟨PORT_STATUS i, 0, 8⟩
/-- SVCF_STATUS: page SVCF (0x2A), offset 0x400. R262 (10_usb_hub.md). -/
def SVCF_STATUS : Nat := 0x2A000 + 0x400
def SVCF_STATUS.LAST_REQ : Fld := ⟨SVCF_STATUS, 24, 8⟩
def SVCF_STATUS.RESULT : Fld := ⟨SVCF_STATUS, 16, 8⟩
def SVCF_STATUS.CONFIGURED : Fld := ⟨SVCF_STATUS, 15, 1⟩
def SVCF_STATUS.REFUSED : Fld := ⟨SVCF_STATUS, 0, 15⟩

/-! ## Registers of spec/11_storage_and_network.md -/

/-- PCIE_CTRL: page PCIE (0x2B), offset 0x040. R281 (11_storage_and_network.md). -/
def PCIE_CTRL : Nat := 0x2B000 + 0x040
def PCIE_CTRL.OFF_DELAY : Fld := ⟨PCIE_CTRL, 8, 8⟩
def PCIE_CTRL.CNT_CLR : Fld := ⟨PCIE_CTRL, 2, 1⟩
def PCIE_CTRL.PF_EN : Fld := ⟨PCIE_CTRL, 0, 1⟩
/-- PCIE_TUN: page PCIE (0x2B), offset 0x044. R281 (11_storage_and_network.md). -/
def PCIE_TUN : Nat := 0x2B000 + 0x044
def PCIE_TUN.EN : Fld := ⟨PCIE_TUN, 31, 1⟩
def PCIE_TUN.CFG_FLOW : Fld := ⟨PCIE_TUN, 0, 8⟩
/-- PCIE_STATUS: page PCIE (0x2B), offset 0x400. R281 (11_storage_and_network.md). -/
def PCIE_STATUS : Nat := 0x2B000 + 0x400
def PCIE_STATUS.UP : Fld := ⟨PCIE_STATUS, 31, 1⟩
def PCIE_STATUS.TLP_REJ : Fld := ⟨PCIE_STATUS, 0, 16⟩
/-- PCIE_PF_DISCARD: page PCIE (0x2B), offset 0x404. R281 (11_storage_and_network.md). -/
def PCIE_PF_DISCARD : Nat := 0x2B000 + 0x404
def PCIE_PF_DISCARD.COUNT : Fld := ⟨PCIE_PF_DISCARD, 0, 32⟩
/-- PEP_CTRL: pages PEP0–PEP1, offset 0x040. R281 (11_storage_and_network.md). -/
def PEP_CTRL (p : Nat) : Nat := 0x1000 * (0x2C + p) + 0x040
def PEP_CTRL.FLOW (p : Nat) : Fld := ⟨PEP_CTRL p, 16, 8⟩
def PEP_CTRL.MAX_SPEED (p : Nat) : Fld := ⟨PEP_CTRL p, 8, 3⟩
def PEP_CTRL.AUTO_PWR (p : Nat) : Fld := ⟨PEP_CTRL p, 0, 1⟩
/-- PEP_STATUS: pages PEP0–PEP1, offset 0x400. R281 (11_storage_and_network.md). -/
def PEP_STATUS (p : Nat) : Nat := 0x1000 * (0x2C + p) + 0x400
def PEP_STATUS.PWR_ON (p : Nat) : Fld := ⟨PEP_STATUS p, 31, 1⟩
def PEP_STATUS.PERST (p : Nat) : Fld := ⟨PEP_STATUS p, 30, 1⟩
def PEP_STATUS.LINK_UP (p : Nat) : Fld := ⟨PEP_STATUS p, 29, 1⟩
def PEP_STATUS.PWR_FAULT (p : Nat) : Fld := ⟨PEP_STATUS p, 28, 1⟩
def PEP_STATUS.SURPRISE (p : Nat) : Fld := ⟨PEP_STATUS p, 27, 1⟩
def PEP_STATUS.SPEED (p : Nat) : Fld := ⟨PEP_STATUS p, 24, 3⟩
def PEP_STATUS.WIDTH (p : Nat) : Fld := ⟨PEP_STATUS p, 20, 4⟩
def PEP_STATUS.DOWN_CNT (p : Nat) : Fld := ⟨PEP_STATUS p, 8, 8⟩
def PEP_STATUS.OC_CNT (p : Nat) : Fld := ⟨PEP_STATUS p, 0, 8⟩
/-- ENET_CTRL: page ENET (0x2E), offset 0x040. R281 (11_storage_and_network.md). -/
def ENET_CTRL : Nat := 0x2E000 + 0x040
def ENET_CTRL.PAUSE : Fld := ⟨ENET_CTRL, 29, 1⟩
def ENET_CTRL.DEF_PCP : Fld := ⟨ENET_CTRL, 26, 3⟩
def ENET_CTRL.CNT_CLR : Fld := ⟨ENET_CTRL, 25, 1⟩
def ENET_CTRL.MAX_LEN : Fld := ⟨ENET_CTRL, 0, 13⟩
/-- ENET_TUN: page ENET (0x2E), offset 0x044. R281 (11_storage_and_network.md). -/
def ENET_TUN : Nat := 0x2E000 + 0x044
def ENET_TUN.EN : Fld := ⟨ENET_TUN, 31, 1⟩
/-- ENET_MAP0: page ENET (0x2E), offsets 0x048 and 0x04C. R281 (11_storage_and_network.md). -/
def ENET_MAP0 : Nat := 0x2E000 + 0x048
def ENET_MAP0.FLOW3 : Fld := ⟨ENET_MAP0, 24, 8⟩
def ENET_MAP0.FLOW2 : Fld := ⟨ENET_MAP0, 16, 8⟩
def ENET_MAP0.FLOW1 : Fld := ⟨ENET_MAP0, 8, 8⟩
def ENET_MAP0.FLOW0 : Fld := ⟨ENET_MAP0, 0, 8⟩
/-- ENET_MAP1: page ENET (0x2E), offsets 0x048 and 0x04C. R281 (11_storage_and_network.md). -/
def ENET_MAP1 : Nat := 0x2E000 + 0x04C
def ENET_MAP1.FLOW3 : Fld := ⟨ENET_MAP1, 24, 8⟩
def ENET_MAP1.FLOW2 : Fld := ⟨ENET_MAP1, 16, 8⟩
def ENET_MAP1.FLOW1 : Fld := ⟨ENET_MAP1, 8, 8⟩
def ENET_MAP1.FLOW0 : Fld := ⟨ENET_MAP1, 0, 8⟩
/-- ENET_MAC_LO: page ENET (0x2E), offset 0x050. R281 (11_storage_and_network.md). -/
def ENET_MAC_LO : Nat := 0x2E000 + 0x050
def ENET_MAC_LO.ADDR_LO : Fld := ⟨ENET_MAC_LO, 0, 32⟩
/-- ENET_MAC_HI: page ENET (0x2E), offset 0x054. R281 (11_storage_and_network.md). -/
def ENET_MAC_HI : Nat := 0x2E000 + 0x054
def ENET_MAC_HI.ADDR_HI : Fld := ⟨ENET_MAC_HI, 0, 16⟩
/-- ENET_STATUS: page ENET (0x2E), offset 0x400. R281 (11_storage_and_network.md). -/
def ENET_STATUS : Nat := 0x2E000 + 0x400
def ENET_STATUS.LINK : Fld := ⟨ENET_STATUS, 31, 1⟩
def ENET_STATUS.SPEED : Fld := ⟨ENET_STATUS, 28, 3⟩
def ENET_STATUS.EEE : Fld := ⟨ENET_STATUS, 27, 1⟩
/-- ENET_CNT: page ENET (0x2E), offset 0x404. R281 (11_storage_and_network.md). -/
def ENET_CNT : Nat := 0x2E000 + 0x404
def ENET_CNT.RX_DROP : Fld := ⟨ENET_CNT, 16, 16⟩
def ENET_CNT.TX_REJ : Fld := ⟨ENET_CNT, 0, 16⟩
/-- ENET_RXERR: page ENET (0x2E), offset 0x408. R281 (11_storage_and_network.md). -/
def ENET_RXERR : Nat := 0x2E000 + 0x408
def ENET_RXERR.FCS_ERR : Fld := ⟨ENET_RXERR, 0, 32⟩
/-- EPHY_CTRL: page EPHY (0x2F), offset 0x040. R281 (11_storage_and_network.md). -/
def EPHY_CTRL : Nat := 0x2F000 + 0x040
def EPHY_CTRL.RENEG : Fld := ⟨EPHY_CTRL, 21, 1⟩
def EPHY_CTRL.ADV : Fld := ⟨EPHY_CTRL, 16, 5⟩
def EPHY_CTRL.EEE : Fld := ⟨EPHY_CTRL, 15, 1⟩
def EPHY_CTRL.EEE_IDLE : Fld := ⟨EPHY_CTRL, 8, 7⟩
def EPHY_CTRL.LED2 : Fld := ⟨EPHY_CTRL, 4, 2⟩
def EPHY_CTRL.LED1 : Fld := ⟨EPHY_CTRL, 2, 2⟩
def EPHY_CTRL.LED0 : Fld := ⟨EPHY_CTRL, 0, 2⟩
/-- EPHY_STATUS: page EPHY (0x2F), offset 0x400. R281 (11_storage_and_network.md). -/
def EPHY_STATUS : Nat := 0x2F000 + 0x400
def EPHY_STATUS.AN_DONE : Fld := ⟨EPHY_STATUS, 31, 1⟩
def EPHY_STATUS.LP_EEE : Fld := ⟨EPHY_STATUS, 30, 1⟩
def EPHY_STATUS.LP_ADV : Fld := ⟨EPHY_STATUS, 25, 5⟩

/-! ## Registers of spec/12_power_delivery.md -/

/-- PD_CTRL: pages PDUL, PDCS, PDPI, offset 0x040. R314 (12_power_delivery.md). -/
def PD_CTRL (p : Nat) : Nat := 0x1000 * (0x30 + p) + 0x040
def PD_CTRL.EN (p : Nat) : Fld := ⟨PD_CTRL p, 31, 1⟩
def PD_CTRL.PRS_AUTO (p : Nat) : Fld := ⟨PD_CTRL p, 30, 1⟩
def PD_CTRL.FRS_EN (p : Nat) : Fld := ⟨PD_CTRL p, 29, 1⟩
def PD_CTRL.FRS_CUR (p : Nat) : Fld := ⟨PD_CTRL p, 27, 2⟩
def PD_CTRL.VCS_REQ (p : Nat) : Fld := ⟨PD_CTRL p, 26, 1⟩
def PD_CTRL.HRST (p : Nat) : Fld := ⟨PD_CTRL p, 25, 1⟩
/-- PD_SRC_CFG: pages PDUL, PDCS, offset 0x044. R314 (12_power_delivery.md). -/
def PD_SRC_CFG (p : Nat) : Nat := 0x1000 * (0x30 + p) + 0x044
def PD_SRC_CFG.PPS (p : Nat) : Fld := ⟨PD_SRC_CFG p, 31, 1⟩
def PD_SRC_CFG.EPR (p : Nat) : Fld := ⟨PD_SRC_CFG p, 30, 1⟩
def PD_SRC_CFG.MAX_W (p : Nat) : Fld := ⟨PD_SRC_CFG p, 16, 8⟩
/-- PD_SNK_CFG: pages PDUL, PDPI, offset 0x048. R314 (12_power_delivery.md). -/
def PD_SNK_CFG (p : Nat) : Nat := 0x1000 * (0x30 + p) + 0x048
def PD_SNK_CFG.EPR (p : Nat) : Fld := ⟨PD_SNK_CFG p, 31, 1⟩
def PD_SNK_CFG.APDO (p : Nat) : Fld := ⟨PD_SNK_CFG p, 30, 1⟩
def PD_SNK_CFG.MIN_W (p : Nat) : Fld := ⟨PD_SNK_CFG p, 16, 8⟩
def PD_SNK_CFG.SRC_MIN (p : Nat) : Fld := ⟨PD_SNK_CFG p, 8, 8⟩
/-- PD_IDENT0: pages PDUL, PDCS, PDPI, offset 0x04C. R314 (12_power_delivery.md). -/
def PD_IDENT0 (p : Nat) : Nat := 0x1000 * (0x30 + p) + 0x04C
def PD_IDENT0.PID (p : Nat) : Fld := ⟨PD_IDENT0 p, 16, 16⟩
def PD_IDENT0.VID (p : Nat) : Fld := ⟨PD_IDENT0 p, 0, 16⟩
/-- PD_IDENT1: pages PDUL, PDCS, PDPI, offset 0x050. R314 (12_power_delivery.md). -/
def PD_IDENT1 (p : Nat) : Nat := 0x1000 * (0x30 + p) + 0x050
def PD_IDENT1.XID (p : Nat) : Fld := ⟨PD_IDENT1 p, 0, 32⟩
/-- PD_ALT_CFG: pages PDUL, PDCS, offset 0x054. R314 (12_power_delivery.md). -/
def PD_ALT_CFG (p : Nat) : Nat := 0x1000 * (0x30 + p) + 0x054
def PD_ALT_CFG.CARAX (p : Nat) : Fld := ⟨PD_ALT_CFG p, 31, 1⟩
def PD_ALT_CFG.DP (p : Nat) : Fld := ⟨PD_ALT_CFG p, 30, 1⟩
def PD_ALT_CFG.PIN_C (p : Nat) : Fld := ⟨PD_ALT_CFG p, 29, 1⟩
def PD_ALT_CFG.PIN_D (p : Nat) : Fld := ⟨PD_ALT_CFG p, 28, 1⟩
def PD_ALT_CFG.MF_PREF (p : Nat) : Fld := ⟨PD_ALT_CFG p, 27, 1⟩
/-- PD_STATUS: pages PDUL, PDCS, PDPI, offset 0x400. R314 (12_power_delivery.md). -/
def PD_STATUS (p : Nat) : Nat := 0x1000 * (0x30 + p) + 0x400
def PD_STATUS.ATTACHED (p : Nat) : Fld := ⟨PD_STATUS p, 31, 1⟩
def PD_STATUS.SOURCE (p : Nat) : Fld := ⟨PD_STATUS p, 30, 1⟩
def PD_STATUS.DFP (p : Nat) : Fld := ⟨PD_STATUS p, 29, 1⟩
def PD_STATUS.VCONN (p : Nat) : Fld := ⟨PD_STATUS p, 28, 1⟩
def PD_STATUS.EXPLICIT (p : Nat) : Fld := ⟨PD_STATUS p, 27, 1⟩
def PD_STATUS.EPR (p : Nat) : Fld := ⟨PD_STATUS p, 26, 1⟩
def PD_STATUS.MODE (p : Nat) : Fld := ⟨PD_STATUS p, 23, 3⟩
def PD_STATUS.CBL_DONE (p : Nat) : Fld := ⟨PD_STATUS p, 22, 1⟩
def PD_STATUS.CBL_EMARK (p : Nat) : Fld := ⟨PD_STATUS p, 21, 1⟩
def PD_STATUS.CBL_PASSIVE (p : Nat) : Fld := ⟨PD_STATUS p, 20, 1⟩
def PD_STATUS.CBL_CUR (p : Nat) : Fld := ⟨PD_STATUS p, 18, 2⟩
def PD_STATUS.CBL_EPR (p : Nat) : Fld := ⟨PD_STATUS p, 17, 1⟩
def PD_STATUS.FLIP (p : Nat) : Fld := ⟨PD_STATUS p, 16, 1⟩
/-- PD_CONTRACT: pages PDUL, PDCS, PDPI, offset 0x404. R314 (12_power_delivery.md). -/
def PD_CONTRACT (p : Nat) : Nat := 0x1000 * (0x30 + p) + 0x404
def PD_CONTRACT.TYPE (p : Nat) : Fld := ⟨PD_CONTRACT p, 28, 4⟩
def PD_CONTRACT.VOLT (p : Nat) : Fld := ⟨PD_CONTRACT p, 16, 12⟩
def PD_CONTRACT.CURR (p : Nat) : Fld := ⟨PD_CONTRACT p, 8, 8⟩
def PD_CONTRACT.POS (p : Nat) : Fld := ⟨PD_CONTRACT p, 0, 4⟩
/-- PD_CBL: pages PDUL, PDCS, offset 0x408 + 4 × n. R314 (12_power_delivery.md). -/
def PD_CBL (p : Nat) (i : Nat) : Nat := 0x1000 * (0x30 + p) + 0x408 + 0x4 * i
def PD_CBL.IDENT (p : Nat) (i : Nat) : Fld := ⟨PD_CBL p i, 0, 32⟩
/-- PD_CNT: pages PDUL, PDCS, PDPI, offset 0x418. R314 (12_power_delivery.md). -/
def PD_CNT (p : Nat) : Nat := 0x1000 * (0x30 + p) + 0x418
def PD_CNT.HARD_RESETS (p : Nat) : Fld := ⟨PD_CNT p, 24, 8⟩
def PD_CNT.SOFT_RESETS (p : Nat) : Fld := ⟨PD_CNT p, 16, 8⟩
def PD_CNT.WAITS (p : Nat) : Fld := ⟨PD_CNT p, 8, 8⟩
def PD_CNT.REJECTS (p : Nat) : Fld := ⟨PD_CNT p, 0, 8⟩
/-- PP_CTRL: page PPATH (0x33), offset 0x040. R314 (12_power_delivery.md). -/
def PP_CTRL : Nat := 0x33000 + 0x040
def PP_CTRL.RESTORE : Fld := ⟨PP_CTRL, 8, 8⟩
def PP_CTRL.CNT_CLR : Fld := ⟨PP_CTRL, 0, 1⟩
/-- PP_STATUS: page PPATH (0x33), offset 0x400. R314 (12_power_delivery.md). -/
def PP_STATUS : Nat := 0x33000 + 0x400
def PP_STATUS.FEED : Fld := ⟨PP_STATUS, 30, 2⟩
def PP_STATUS.INPUT_PWR : Fld := ⟨PP_STATUS, 29, 1⟩
def PP_STATUS.LOW_INPUT : Fld := ⟨PP_STATUS, 28, 1⟩
def PP_STATUS.P_IN : Fld := ⟨PP_STATUS, 16, 12⟩
def PP_STATUS.LEFT : Fld := ⟨PP_STATUS, 0, 12⟩
/-- PP_HELD: page PPATH (0x33), offset 0x404. R314 (12_power_delivery.md). -/
def PP_HELD : Nat := 0x33000 + 0x404
def PP_HELD.CASC : Fld := ⟨PP_HELD, 13, 1⟩
def PP_HELD.SOCK1 : Fld := ⟨PP_HELD, 12, 1⟩
def PP_HELD.SOCK0 : Fld := ⟨PP_HELD, 11, 1⟩
def PP_HELD.ETH : Fld := ⟨PP_HELD, 10, 1⟩
def PP_HELD.DS : Fld := ⟨PP_HELD, 4, 6⟩
def PP_HELD.HEAD : Fld := ⟨PP_HELD, 0, 4⟩
/-- PP_LEVEL: page PPATH (0x33), offset 0x408. R314 (12_power_delivery.md). -/
def PP_LEVEL : Nat := 0x33000 + 0x408
def PP_LEVEL.UL_W : Fld := ⟨PP_LEVEL, 24, 8⟩
def PP_LEVEL.CS_W : Fld := ⟨PP_LEVEL, 16, 8⟩
def PP_LEVEL.DS0_I : Fld := ⟨PP_LEVEL, 14, 2⟩
def PP_LEVEL.DS1_I : Fld := ⟨PP_LEVEL, 12, 2⟩
/-- PP_CNT: page PPATH (0x33), offset 0x40C. R314 (12_power_delivery.md). -/
def PP_CNT : Nat := 0x33000 + 0x40C
def PP_CNT.SHEDS : Fld := ⟨PP_CNT, 16, 16⟩
def PP_CNT.OVERLOADS : Fld := ⟨PP_CNT, 0, 16⟩

/-! ## Registers of spec/13_power_states.md -/

/-- PS_MODE: page PSEQ (0x02), offset 0x040. R333 (13_power_states.md). -/
def PS_MODE : Nat := 0x2000 + 0x040
def PS_MODE.CMD : Fld := ⟨PS_MODE, 30, 2⟩
def PS_MODE.STATE : Fld := ⟨PS_MODE, 28, 2⟩
def PS_MODE.OP : Fld := ⟨PS_MODE, 24, 2⟩
/-- PS_WAIT: page PSEQ (0x02), offset 0x044. R333 (13_power_states.md). -/
def PS_WAIT : Nat := 0x2000 + 0x044
def PS_WAIT.WAIT : Fld := ⟨PS_WAIT, 0, 1⟩
/-- PS_WAKE_EN: page PSEQ (0x02), offset 0x048. R333 (13_power_states.md). -/
def PS_WAKE_EN : Nat := 0x2000 + 0x048
def PS_WAKE_EN.EN : Fld := ⟨PS_WAKE_EN, 0, 10⟩
/-- PS_TIMER: page PSEQ (0x02), offset 0x04C. R333 (13_power_states.md). -/
def PS_TIMER : Nat := 0x2000 + 0x04C
def PS_TIMER.MS : Fld := ⟨PS_TIMER, 0, 32⟩
/-- PS_STATUS: page PSEQ (0x02), offset 0x400. R333 (13_power_states.md). -/
def PS_STATUS : Nat := 0x2000 + 0x400
def PS_STATUS.STATE : Fld := ⟨PS_STATUS, 30, 2⟩
def PS_STATUS.OP : Fld := ⟨PS_STATUS, 26, 2⟩
def PS_STATUS.BUSY : Fld := ⟨PS_STATUS, 25, 1⟩
def PS_STATUS.LOWERING : Fld := ⟨PS_STATUS, 24, 1⟩
def PS_STATUS.RESULT : Fld := ⟨PS_STATUS, 16, 8⟩
def PS_STATUS.REFUSER : Fld := ⟨PS_STATUS, 8, 8⟩
def PS_STATUS.DETAIL : Fld := ⟨PS_STATUS, 0, 8⟩
/-- WAKE_CAUSE: page PSEQ (0x02), offset 0x404. R333 (13_power_states.md). -/
def WAKE_CAUSE : Nat := 0x2000 + 0x404
def WAKE_CAUSE.COINCIDENT : Fld := ⟨WAKE_CAUSE, 31, 1⟩
def WAKE_CAUSE.CAUSE : Fld := ⟨WAKE_CAUSE, 0, 10⟩
/-- PS_SLEPT: page PSEQ (0x02), offset 0x408. R333 (13_power_states.md). -/
def PS_SLEPT : Nat := 0x2000 + 0x408
def PS_SLEPT.UNIT : Fld := ⟨PS_SLEPT, 30, 2⟩
def PS_SLEPT.VALUE : Fld := ⟨PS_SLEPT, 0, 30⟩
/-- PS_MAINT: page PSEQ (0x02), offset 0x40C. R333 (13_power_states.md). -/
def PS_MAINT : Nat := 0x2000 + 0x40C
def PS_MAINT.UNITS : Fld := ⟨PS_MAINT, 30, 2⟩
def PS_MAINT.HOLDER1 : Fld := ⟨PS_MAINT, 8, 8⟩
def PS_MAINT.HOLDER0 : Fld := ⟨PS_MAINT, 0, 8⟩
/-- PS_CNT: page PSEQ (0x02), offset 0x410. R333 (13_power_states.md). -/
def PS_CNT : Nat := 0x2000 + 0x410
def PS_CNT.ENTRIES : Fld := ⟨PS_CNT, 16, 16⟩
def PS_CNT.REFUSALS : Fld := ⟨PS_CNT, 8, 8⟩
def PS_CNT.MAINT_REF : Fld := ⟨PS_CNT, 0, 8⟩
/-- PS_ISL: page PSEQ (0x02), offset 0x414. R333 (13_power_states.md). -/
def PS_ISL : Nat := 0x2000 + 0x414
def PS_ISL.NEED : Fld := ⟨PS_ISL, 8, 2⟩
def PS_ISL.VISL : Fld := ⟨PS_ISL, 0, 2⟩
/-- PS_DOMAIN: page PSEQ (0x02), offset 0x418. R333 (13_power_states.md). -/
def PS_DOMAIN : Nat := 0x2000 + 0x418
def PS_DOMAIN.RET : Fld := ⟨PS_DOMAIN, 16, 13⟩
def PS_DOMAIN.PWR : Fld := ⟨PS_DOMAIN, 0, 13⟩

/-! ## Registers of spec/14_cascade.md -/

/-- CASC_CTRL: page CASC (0x1C), offset 0x040. R351 (14_cascade.md). -/
def CASC_CTRL : Nat := 0x1C000 + 0x040
def CASC_CTRL.CNT_CLR : Fld := ⟨CASC_CTRL, 8, 1⟩
def CASC_CTRL.MISS_LIM : Fld := ⟨CASC_CTRL, 2, 2⟩
def CASC_CTRL.POLL_EN : Fld := ⟨CASC_CTRL, 0, 1⟩
/-- CASC_RFLOW: page CASC (0x1C), offset 0x044. R351 (14_cascade.md). -/
def CASC_RFLOW : Nat := 0x1C000 + 0x044
def CASC_RFLOW.RFLOW3 : Fld := ⟨CASC_RFLOW, 16, 8⟩
def CASC_RFLOW.RFLOW2 : Fld := ⟨CASC_RFLOW, 8, 8⟩
def CASC_RFLOW.RFLOW1 : Fld := ⟨CASC_RFLOW, 0, 8⟩
/-- CASC_POSN: page CASC (0x1C), offset 0x048. R351 (14_cascade.md). -/
def CASC_POSN : Nat := 0x1C000 + 0x048
def CASC_POSN.VALID : Fld := ⟨CASC_POSN, 31, 1⟩
def CASC_POSN.POS : Fld := ⟨CASC_POSN, 0, 2⟩
/-- CASC_RLY_CTRL: page CASC (0x1C), offset 0x04C. R351 (14_cascade.md). -/
def CASC_RLY_CTRL : Nat := 0x1C000 + 0x04C
def CASC_RLY_CTRL.GO : Fld := ⟨CASC_RLY_CTRL, 31, 1⟩
def CASC_RLY_CTRL.WR : Fld := ⟨CASC_RLY_CTRL, 30, 1⟩
def CASC_RLY_CTRL.RESULT : Fld := ⟨CASC_RLY_CTRL, 16, 8⟩
/-- CASC_RLY_ADDR: page CASC (0x1C), offset 0x050. R351 (14_cascade.md). -/
def CASC_RLY_ADDR : Nat := 0x1C000 + 0x050
def CASC_RLY_ADDR.ADDR : Fld := ⟨CASC_RLY_ADDR, 0, 18⟩
/-- CASC_RLY_DATA: page CASC (0x1C), offset 0x054. R351 (14_cascade.md). -/
def CASC_RLY_DATA : Nat := 0x1C000 + 0x054
def CASC_RLY_DATA.DATA : Fld := ⟨CASC_RLY_DATA, 0, 32⟩
/-- CASC_STATUS: page CASC (0x1C), offset 0x400. R351 (14_cascade.md). -/
def CASC_STATUS : Nat := 0x1C000 + 0x400
def CASC_STATUS.ROLE : Fld := ⟨CASC_STATUS, 30, 2⟩
def CASC_STATUS.POS_VALID : Fld := ⟨CASC_STATUS, 29, 1⟩
def CASC_STATUS.POS : Fld := ⟨CASC_STATUS, 26, 2⟩
def CASC_STATUS.BEYOND : Fld := ⟨CASC_STATUS, 24, 2⟩
def CASC_STATUS.PRESENT : Fld := ⟨CASC_STATUS, 21, 3⟩
def CASC_STATUS.AP_LAST : Fld := ⟨CASC_STATUS, 20, 1⟩
def CASC_STATUS.A_UP : Fld := ⟨CASC_STATUS, 19, 1⟩
def CASC_STATUS.A_PART : Fld := ⟨CASC_STATUS, 0, 16⟩
/-- CASC_CNT: page CASC (0x1C), offset 0x404. R351 (14_cascade.md). -/
def CASC_CNT : Nat := 0x1C000 + 0x404
def CASC_CNT.DROPPED : Fld := ⟨CASC_CNT, 16, 16⟩
def CASC_CNT.MISSED : Fld := ⟨CASC_CNT, 8, 8⟩
def CASC_CNT.JOINS : Fld := ⟨CASC_CNT, 0, 8⟩

/-! ## Registers of spec/15_keys_and_attestation.md -/

/-- MUNI_CTRL: page MUNI (0x35), offset 0x040. R374 (15_keys_and_attestation.md). -/
def MUNI_CTRL : Nat := 0x35000 + 0x040
def MUNI_CTRL.MODE : Fld := ⟨MUNI_CTRL, 31, 1⟩
def MUNI_CTRL.REMASK : Fld := ⟨MUNI_CTRL, 8, 7⟩
def MUNI_CTRL.SCRUB_EN : Fld := ⟨MUNI_CTRL, 0, 1⟩
/-- MUNI_STATUS: page MUNI (0x35), offset 0x400. R374 (15_keys_and_attestation.md). -/
def MUNI_STATUS : Nat := 0x35000 + 0x400
def MUNI_STATUS.ENT : Fld := ⟨MUNI_STATUS, 30, 2⟩
def MUNI_STATUS.MODE : Fld := ⟨MUNI_STATUS, 29, 1⟩
def MUNI_STATUS.VALID : Fld := ⟨MUNI_STATUS, 16, 8⟩
def MUNI_STATUS.LOADED : Fld := ⟨MUNI_STATUS, 8, 8⟩
def MUNI_STATUS.SKIPPED : Fld := ⟨MUNI_STATUS, 0, 8⟩
/-- MUNI_CNT: page MUNI (0x35), offset 0x404. R374 (15_keys_and_attestation.md). -/
def MUNI_CNT : Nat := 0x35000 + 0x404
def MUNI_CNT.REMASK_OVERDUE : Fld := ⟨MUNI_CNT, 24, 8⟩
def MUNI_CNT.CHECK_FAIL : Fld := ⟨MUNI_CNT, 16, 8⟩
def MUNI_CNT.AUTH_FAIL : Fld := ⟨MUNI_CNT, 8, 8⟩
def MUNI_CNT.HOLD_DROP : Fld := ⟨MUNI_CNT, 0, 8⟩
/-- KD_CMD: page KDRV (0x36), offset 0x040. R374 (15_keys_and_attestation.md). -/
def KD_CMD : Nat := 0x36000 + 0x040
def KD_CMD.GO : Fld := ⟨KD_CMD, 31, 1⟩
def KD_CMD.OP : Fld := ⟨KD_CMD, 28, 3⟩
def KD_CMD.PERSIST : Fld := ⟨KD_CMD, 27, 1⟩
def KD_CMD.TYPE : Fld := ⟨KD_CMD, 24, 3⟩
def KD_CMD.DST : Fld := ⟨KD_CMD, 16, 6⟩
def KD_CMD.PARENT : Fld := ⟨KD_CMD, 8, 7⟩
/-- KD_LEN: page KDRV (0x36), offset 0x044. R374 (15_keys_and_attestation.md). -/
def KD_LEN : Nat := 0x36000 + 0x044
def KD_LEN.LLEN : Fld := ⟨KD_LEN, 8, 8⟩
def KD_LEN.CLEN : Fld := ⟨KD_LEN, 0, 8⟩
/-- KD_STATUS: page KDRV (0x36), offset 0x400. R374 (15_keys_and_attestation.md). -/
def KD_STATUS : Nat := 0x36000 + 0x400
def KD_STATUS.BUSY : Fld := ⟨KD_STATUS, 31, 1⟩
def KD_STATUS.RESULT : Fld := ⟨KD_STATUS, 16, 8⟩
/-- ATST_CTRL: page ATST (0x37), offset 0x040. R374 (15_keys_and_attestation.md). -/
def ATST_CTRL : Nat := 0x37000 + 0x040
def ATST_CTRL.GO : Fld := ⟨ATST_CTRL, 31, 1⟩
def ATST_CTRL.CERT_WRITE : Fld := ⟨ATST_CTRL, 30, 1⟩
/-- ATST_NONCE: page ATST (0x37), offset 0x044 + 4 × i. R374 (15_keys_and_attestation.md). -/
def ATST_NONCE (i : Nat) : Nat := 0x37000 + 0x044 + 0x4 * i
def ATST_NONCE.NONCE (i : Nat) : Fld := ⟨ATST_NONCE i, 0, 32⟩
/-- ATST_CERT_SRC: page ATST (0x37), offset 0x064. R374 (15_keys_and_attestation.md). -/
def ATST_CERT_SRC : Nat := 0x37000 + 0x064
def ATST_CERT_SRC.LEN : Fld := ⟨ATST_CERT_SRC, 20, 12⟩
def ATST_CERT_SRC.BASE : Fld := ⟨ATST_CERT_SRC, 0, 20⟩
/-- ATST_STATUS: page ATST (0x37), offset 0x400. R374 (15_keys_and_attestation.md). -/
def ATST_STATUS : Nat := 0x37000 + 0x400
def ATST_STATUS.BUSY : Fld := ⟨ATST_STATUS, 31, 1⟩
def ATST_STATUS.VALID : Fld := ⟨ATST_STATUS, 30, 1⟩
def ATST_STATUS.RESULT : Fld := ⟨ATST_STATUS, 16, 8⟩
def ATST_STATUS.CERT_LEN : Fld := ⟨ATST_STATUS, 0, 12⟩
/-- LC_CTRL: page LCYC (0x38), offset 0x040. R374 (15_keys_and_attestation.md). -/
def LC_CTRL : Nat := 0x38000 + 0x040
def LC_CTRL.GO : Fld := ⟨LC_CTRL, 31, 1⟩
def LC_CTRL.TARGET : Fld := ⟨LC_CTRL, 28, 3⟩
def LC_CTRL.CONFIRM : Fld := ⟨LC_CTRL, 16, 8⟩
/-- LC_STATUS: page LCYC (0x38), offset 0x400. R374 (15_keys_and_attestation.md). -/
def LC_STATUS : Nat := 0x38000 + 0x400
def LC_STATUS.STATE : Fld := ⟨LC_STATUS, 29, 3⟩
def LC_STATUS.PENDING : Fld := ⟨LC_STATUS, 26, 3⟩
def LC_STATUS.PEND : Fld := ⟨LC_STATUS, 25, 1⟩
def LC_STATUS.RESULT : Fld := ⟨LC_STATUS, 16, 8⟩
def LC_STATUS.SEED_USED : Fld := ⟨LC_STATUS, 8, 4⟩
/-- LC_SEED: page LCYC (0x38), offset 0x800 + 4 × i. R374 (15_keys_and_attestation.md). -/
def LC_SEED (i : Nat) : Nat := 0x38000 + 0x800 + 0x4 * i
def LC_SEED.SEED (i : Nat) : Fld := ⟨LC_SEED i, 0, 32⟩

/-! ## Registers of spec/16_coppice_and_failover.md -/

/-- COPP_CTRL: page COPP (0x07), offset 0x040. R393 (16_coppice_and_failover.md). -/
def COPP_CTRL : Nat := 0x7000 + 0x040
def COPP_CTRL.CNT_CLR : Fld := ⟨COPP_CTRL, 12, 1⟩
def COPP_CTRL.ROW_TH : Fld := ⟨COPP_CTRL, 8, 4⟩
def COPP_CTRL.RECORD : Fld := ⟨COPP_CTRL, 1, 1⟩
def COPP_CTRL.EN : Fld := ⟨COPP_CTRL, 0, 1⟩
/-- COPP_STATUS: page COPP (0x07), offset 0x400. R393 (16_coppice_and_failover.md). -/
def COPP_STATUS : Nat := 0x7000 + 0x400
def COPP_STATUS.LAST_KIND : Fld := ⟨COPP_STATUS, 24, 8⟩
def COPP_STATUS.MAP_FULL : Fld := ⟨COPP_STATUS, 23, 1⟩
def COPP_STATUS.EXH : Fld := ⟨COPP_STATUS, 12, 11⟩
def COPP_STATUS.ENTRIES : Fld := ⟨COPP_STATUS, 0, 10⟩
/-- COPP_CNT: page COPP (0x07), offset 0x404. R393 (16_coppice_and_failover.md). -/
def COPP_CNT : Nat := 0x7000 + 0x404
def COPP_CNT.REPAIRS : Fld := ⟨COPP_CNT, 16, 16⟩
def COPP_CNT.NOT_RECORDED : Fld := ⟨COPP_CNT, 0, 16⟩
/-- ROUT_CTRL: page ROUT (0x08), offset 0x040. R393 (16_coppice_and_failover.md). -/
def ROUT_CTRL : Nat := 0x8000 + 0x040
def ROUT_CTRL.FORCE : Fld := ⟨ROUT_CTRL, 31, 1⟩
def ROUT_CTRL.PROVE : Fld := ⟨ROUT_CTRL, 8, 8⟩
/-- ROUT_STATUS: page ROUT (0x08), offset 0x400. R393 (16_coppice_and_failover.md). -/
def ROUT_STATUS : Nat := 0x8000 + 0x400
def ROUT_STATUS.STATE : Fld := ⟨ROUT_STATUS, 30, 2⟩
def ROUT_STATUS.ACTIVE : Fld := ⟨ROUT_STATUS, 29, 1⟩
def ROUT_STATUS.STBY_OK : Fld := ⟨ROUT_STATUS, 28, 1⟩
def ROUT_STATUS.CAUSE : Fld := ⟨ROUT_STATUS, 24, 4⟩
def ROUT_STATUS.FAILOVERS : Fld := ⟨ROUT_STATUS, 0, 16⟩
/-- ROUT_GAP: page ROUT (0x08), offset 0x404. R393 (16_coppice_and_failover.md). -/
def ROUT_GAP : Nat := 0x8000 + 0x404
def ROUT_GAP.GAP_MAX : Fld := ⟨ROUT_GAP, 16, 16⟩
def ROUT_GAP.GAP_LAST : Fld := ⟨ROUT_GAP, 0, 16⟩
/-- STBY_STATUS: page STBY (0x09), offset 0x400. R393 (16_coppice_and_failover.md). -/
def STBY_STATUS : Nat := 0x9000 + 0x400
def STBY_STATUS.CKPT_VALID : Fld := ⟨STBY_STATUS, 31, 1⟩
def STBY_STATUS.HALF : Fld := ⟨STBY_STATUS, 30, 1⟩
def STBY_STATUS.CKPT_EPOCH : Fld := ⟨STBY_STATUS, 0, 16⟩
/-- STBY_CNT: page STBY (0x09), offset 0x404. R393 (16_coppice_and_failover.md). -/
def STBY_CNT : Nat := 0x9000 + 0x404
def STBY_CNT.CRC_ERR : Fld := ⟨STBY_CNT, 24, 8⟩
def STBY_CNT.PROOF_FAIL : Fld := ⟨STBY_CNT, 16, 8⟩
def STBY_CNT.PROOF_PASS : Fld := ⟨STBY_CNT, 0, 16⟩
/-- STBY_ISO_DROP: page STBY (0x09), offset 0x408. R393 (16_coppice_and_failover.md). -/
def STBY_ISO_DROP : Nat := 0x9000 + 0x408
def STBY_ISO_DROP.COUNT : Fld := ⟨STBY_ISO_DROP, 0, 32⟩
/-- MON_CTRL: page MON (0x3B), offset 0x040. R393 (16_coppice_and_failover.md). -/
def MON_CTRL : Nat := 0x3B000 + 0x040
def MON_CTRL.WARN_PCT : Fld := ⟨MON_CTRL, 0, 8⟩
/-- MON_STATUS: page MON (0x3B), offset 0x400. R393 (16_coppice_and_failover.md). -/
def MON_STATUS : Nat := 0x3B000 + 0x400
def MON_STATUS.WARN : Fld := ⟨MON_STATUS, 16, 9⟩
def MON_STATUS.BAR : Fld := ⟨MON_STATUS, 0, 4⟩
/-- SCRB_CTRL: page SCRB (0x3A), offset 0x040. R393 (16_coppice_and_failover.md). -/
def SCRB_CTRL : Nat := 0x3A000 + 0x040
def SCRB_CTRL.CNT_CLR : Fld := ⟨SCRB_CTRL, 8, 1⟩
def SCRB_CTRL.PERIOD : Fld := ⟨SCRB_CTRL, 0, 8⟩
/-- SCRB_STATUS: page SCRB (0x3A), offset 0x400. R393 (16_coppice_and_failover.md). -/
def SCRB_STATUS : Nat := 0x3A000 + 0x400
def SCRB_STATUS.CORR : Fld := ⟨SCRB_STATUS, 16, 16⟩
def SCRB_STATUS.UNCOR : Fld := ⟨SCRB_STATUS, 0, 16⟩
/-- SCRB_POS: page SCRB (0x3A), offset 0x404. R393 (16_coppice_and_failover.md). -/
def SCRB_POS : Nat := 0x3A000 + 0x404
def SCRB_POS.PASSES : Fld := ⟨SCRB_POS, 16, 16⟩
def SCRB_POS.STRETCH : Fld := ⟨SCRB_POS, 0, 16⟩

/-! ## Registers of spec/17_faults_and_ledger.md -/

/-- EVT_SRC: page EVT (0x04), offset 0x800 + 4 × s. R415 (17_faults_and_ledger.md). -/
def EVT_SRC (i : Nat) : Nat := 0x4000 + 0x800 + 0x4 * i
def EVT_SRC.STICKY (i : Nat) : Fld := ⟨EVT_SRC i, 31, 1⟩
def EVT_SRC.RAW (i : Nat) : Fld := ⟨EVT_SRC i, 30, 1⟩
def EVT_SRC.PAGE (i : Nat) : Fld := ⟨EVT_SRC i, 24, 6⟩
def EVT_SRC.BIT (i : Nat) : Fld := ⟨EVT_SRC i, 19, 5⟩
def EVT_SRC.CLASS (i : Nat) : Fld := ⟨EVT_SRC i, 16, 3⟩
def EVT_SRC.PERMIT (i : Nat) : Fld := ⟨EVT_SRC i, 10, 6⟩
def EVT_SRC.REACT (i : Nat) : Fld := ⟨EVT_SRC i, 0, 3⟩
/-- EVT_CTRL: page EVT (0x04), offset 0x040. R415 (17_faults_and_ledger.md). -/
def EVT_CTRL : Nat := 0x4000 + 0x040
def EVT_CTRL.CNT_CLR : Fld := ⟨EVT_CTRL, 8, 1⟩
def EVT_CTRL.USB_EN : Fld := ⟨EVT_CTRL, 1, 1⟩
def EVT_CTRL.FLOW2_EN : Fld := ⟨EVT_CTRL, 0, 1⟩
/-- EVT_GSUM: page EVT (0x04), offset 0x400. R415 (17_faults_and_ledger.md). -/
def EVT_GSUM : Nat := 0x4000 + 0x400
def EVT_GSUM.SAFE : Fld := ⟨EVT_GSUM, 8, 1⟩
def EVT_GSUM.GROUP : Fld := ⟨EVT_GSUM, 0, 8⟩
/-- EVT_CNT: page EVT (0x04), offset 0x404. R415 (17_faults_and_ledger.md). -/
def EVT_CNT : Nat := 0x4000 + 0x404
def EVT_CNT.MERGED : Fld := ⟨EVT_CNT, 16, 16⟩
def EVT_CNT.QUEUE_LOST : Fld := ⟨EVT_CNT, 8, 8⟩
def EVT_CNT.REACT_IGN : Fld := ⟨EVT_CNT, 0, 8⟩
/-- LEDG_REL: page LEDG (0x05), offset 0x040. R415 (17_faults_and_ledger.md). -/
def LEDG_REL : Nat := 0x5000 + 0x040
def LEDG_REL.SEQ : Fld := ⟨LEDG_REL, 0, 8⟩
/-- LEDG_STATUS: page LEDG (0x05), offset 0x400. R415 (17_faults_and_ledger.md). -/
def LEDG_STATUS : Nat := 0x5000 + 0x400
def LEDG_STATUS.FROZEN : Fld := ⟨LEDG_STATUS, 31, 1⟩
def LEDG_STATUS.FREEZE_IDX : Fld := ⟨LEDG_STATUS, 26, 5⟩
def LEDG_STATUS.NEXT_IDX : Fld := ⟨LEDG_STATUS, 21, 5⟩
def LEDG_STATUS.LOST : Fld := ⟨LEDG_STATUS, 8, 8⟩
def LEDG_STATUS.REL_BAD : Fld := ⟨LEDG_STATUS, 0, 8⟩
/-- SAFE_CTRL: page SAFE (0x06), offset 0x040. R415 (17_faults_and_ledger.md). -/
def SAFE_CTRL : Nat := 0x6000 + 0x040
def SAFE_CTRL.ENTER : Fld := ⟨SAFE_CTRL, 31, 1⟩
def SAFE_CTRL.AUTO_WARM : Fld := ⟨SAFE_CTRL, 8, 8⟩
/-- SAFE_STATUS: page SAFE (0x06), offset 0x400. R415 (17_faults_and_ledger.md). -/
def SAFE_STATUS : Nat := 0x6000 + 0x400
def SAFE_STATUS.ACTIVE : Fld := ⟨SAFE_STATUS, 31, 1⟩
def SAFE_STATUS.CAUSE : Fld := ⟨SAFE_STATUS, 28, 3⟩
def SAFE_STATUS.SOURCE : Fld := ⟨SAFE_STATUS, 20, 8⟩
def SAFE_STATUS.AUTO_USED : Fld := ⟨SAFE_STATUS, 18, 2⟩
def SAFE_STATUS.ENTRIES : Fld := ⟨SAFE_STATUS, 0, 16⟩
/-- SAFE_EPOCH: page SAFE (0x06), offset 0x404. R415 (17_faults_and_ledger.md). -/
def SAFE_EPOCH : Nat := 0x6000 + 0x404
def SAFE_EPOCH.EPOCH : Fld := ⟨SAFE_EPOCH, 0, 32⟩
/-- ALIVE_STATUS: page SAFE (0x06), offset 0x408. R415 (17_faults_and_ledger.md). -/
def ALIVE_STATUS : Nat := 0x6000 + 0x408
def ALIVE_STATUS.LEVEL : Fld := ⟨ALIVE_STATUS, 31, 1⟩
def ALIVE_STATUS.HELD : Fld := ⟨ALIVE_STATUS, 30, 1⟩
def ALIVE_STATUS.LATE : Fld := ⟨ALIVE_STATUS, 0, 16⟩
/-- FTST_DETAIL: page FTST (0x3D), offset 0x040. R415 (17_faults_and_ledger.md). -/
def FTST_DETAIL : Nat := 0x3D000 + 0x040
def FTST_DETAIL.DETAIL : Fld := ⟨FTST_DETAIL, 0, 32⟩
/-- FTST_STATUS: page FTST (0x3D), offset 0x400. R415 (17_faults_and_ledger.md). -/
def FTST_STATUS : Nat := 0x3D000 + 0x400
def FTST_STATUS.ARMED : Fld := ⟨FTST_STATUS, 31, 1⟩
def FTST_STATUS.IGNORED : Fld := ⟨FTST_STATUS, 0, 16⟩

/-! ## Registers of spec/18_register_pages.md -/

/-- PAGE_ID: every page, offset 0x000. R418 (18_register_pages.md). -/
def PAGE_ID (p : Nat) : Nat := 0x1000 * p + 0x000
def PAGE_ID.BLOCK (p : Nat) : Fld := ⟨PAGE_ID p, 16, 16⟩
def PAGE_ID.INSTANCE (p : Nat) : Fld := ⟨PAGE_ID p, 8, 8⟩
/-- PAGE_CTRL: every page, offset 0x004. R418 (18_register_pages.md). -/
def PAGE_CTRL (p : Nat) : Nat := 0x1000 * p + 0x004
def PAGE_CTRL.LOCK (p : Nat) : Fld := ⟨PAGE_CTRL p, 2, 1⟩
def PAGE_CTRL.SRST (p : Nat) : Fld := ⟨PAGE_CTRL p, 1, 1⟩
def PAGE_CTRL.EN (p : Nat) : Fld := ⟨PAGE_CTRL p, 0, 1⟩
/-- PAGE_STATUS: every page, offset 0x008. R418 (18_register_pages.md). -/
def PAGE_STATUS (p : Nat) : Nat := 0x1000 * p + 0x008
def PAGE_STATUS.READY (p : Nat) : Fld := ⟨PAGE_STATUS p, 31, 1⟩
def PAGE_STATUS.BUSY (p : Nat) : Fld := ⟨PAGE_STATUS p, 30, 1⟩
def PAGE_STATUS.FAULT (p : Nat) : Fld := ⟨PAGE_STATUS p, 29, 1⟩
def PAGE_STATUS.MLOCK (p : Nat) : Fld := ⟨PAGE_STATUS p, 28, 1⟩
def PAGE_STATUS.LOCK_IGN (p : Nat) : Fld := ⟨PAGE_STATUS p, 0, 16⟩
/-- COLOPHON: page GLOB (0x00), offset 0x040. R423 (18_register_pages.md). -/
def COLOPHON : Nat := 0x0 + 0x040
def COLOPHON.PART : Fld := ⟨COLOPHON, 16, 16⟩
def COLOPHON.VENDOR : Fld := ⟨COLOPHON, 8, 8⟩
def COLOPHON.STEP_LETTER : Fld := ⟨COLOPHON, 4, 4⟩
def COLOPHON.STEP_NUM : Fld := ⟨COLOPHON, 0, 4⟩
/-- RST_CTRL: page GLOB (0x00), offset 0x044. R423 (18_register_pages.md). -/
def RST_CTRL : Nat := 0x0 + 0x044
def RST_CTRL.WARM : Fld := ⟨RST_CTRL, 0, 1⟩
/-- AUTOLOCK_LO: page GLOB (0x00), offsets 0x048 and 0x04C. R423 (18_register_pages.md). -/
def AUTOLOCK_LO : Nat := 0x0 + 0x048
def AUTOLOCK_LO.PAGES : Fld := ⟨AUTOLOCK_LO, 0, 32⟩
/-- AUTOLOCK_HI: page GLOB (0x00), offsets 0x048 and 0x04C. R423 (18_register_pages.md). -/
def AUTOLOCK_HI : Nat := 0x0 + 0x04C
def AUTOLOCK_HI.PAGES : Fld := ⟨AUTOLOCK_HI, 0, 32⟩
/-- EPOCH_LO: page GLOB (0x00), offset 0x404. R423 (18_register_pages.md). -/
def EPOCH_LO : Nat := 0x0 + 0x404
def EPOCH_LO.EPOCH : Fld := ⟨EPOCH_LO, 0, 32⟩
/-- EPOCH_HI: page GLOB (0x00), offset 0x408. R423 (18_register_pages.md). -/
def EPOCH_HI : Nat := 0x0 + 0x408
def EPOCH_HI.EPOCH : Fld := ⟨EPOCH_HI, 0, 16⟩
/-- RST_CAUSE: page GLOB (0x00), offset 0x40C. R423 (18_register_pages.md). -/
def RST_CAUSE : Nat := 0x0 + 0x40C
def RST_CAUSE.KIND : Fld := ⟨RST_CAUSE, 30, 2⟩
def RST_CAUSE.PATH : Fld := ⟨RST_CAUSE, 27, 3⟩
def RST_CAUSE.WARM_CNT : Fld := ⟨RST_CAUSE, 0, 16⟩
/-- LMGT_CNT: page LMGT (0x0F), offset 0x400. R430 (18_register_pages.md). -/
def LMGT_CNT : Nat := 0xF000 + 0x400
def LMGT_CNT.FLOW1 : Fld := ⟨LMGT_CNT, 24, 8⟩
def LMGT_CNT.WINDOW : Fld := ⟨LMGT_CNT, 16, 8⟩
def LMGT_CNT.SVCF : Fld := ⟨LMGT_CNT, 8, 8⟩
def LMGT_CNT.SVCP : Fld := ⟨LMGT_CNT, 0, 8⟩
/-- STAK_STATUS: page STAK (0x39), offset 0x400. R430 (18_register_pages.md). -/
def STAK_STATUS : Nat := 0x39000 + 0x400
def STAK_STATUS.TRAINED : Fld := ⟨STAK_STATUS, 31, 1⟩
def STAK_STATUS.FILLED : Fld := ⟨STAK_STATUS, 30, 1⟩
def STAK_STATUS.SELF_REFRESH : Fld := ⟨STAK_STATUS, 29, 1⟩
def STAK_STATUS.CH_OK : Fld := ⟨STAK_STATUS, 16, 8⟩
/-- STAK_ECC: page STAK (0x39), offset 0x404. R430 (18_register_pages.md). -/
def STAK_ECC : Nat := 0x39000 + 0x404
def STAK_ECC.CORR : Fld := ⟨STAK_ECC, 16, 16⟩
def STAK_ECC.UNCOR : Fld := ⟨STAK_ECC, 0, 16⟩
/-- SVCP_STATUS: page SVCP (0x3C), offset 0x400. R430 (18_register_pages.md). -/
def SVCP_STATUS : Nat := 0x3C000 + 0x400
def SVCP_STATUS.LAST_CMD : Fld := ⟨SVCP_STATUS, 24, 8⟩
def SVCP_STATUS.RESULT : Fld := ⟨SVCP_STATUS, 16, 8⟩
def SVCP_STATUS.REFUSED : Fld := ⟨SVCP_STATUS, 8, 8⟩
def SVCP_STATUS.ABORTED : Fld := ⟨SVCP_STATUS, 0, 8⟩

/-- EV_RAW, EV_STICKY, EV_ENABLE and EV_FORCE of page `p` (R418). -/
def EV_RAW (p : Nat) : Nat := 0x1000 * p + 0x010
def EV_STICKY (p : Nat) : Nat := 0x1000 * p + 0x014
def EV_ENABLE (p : Nat) : Nat := 0x1000 * p + 0x018
def EV_FORCE (p : Nat) : Nat := 0x1000 * p + 0x01C

/-- Word `i` of the eye scan results of pair `l` (R96). -/
def EYE_RESULT (l i : Nat) : Nat := 0x1000 * (0x10 + l) + 0x800 + 4 * i

/-- Word `i` of the live tap set of pair `l` (R93, R104). -/
def TAP_SET (l i : Nat) : Nat := 0x1000 * (0x10 + l) + 0xF80 + 4 * i

/-- Word `i` (byte offset 4 × i) of the FEC block of link lane `l` of link page 0x18 + `k` (R137): 0 CW_LO, 1 CW_HI, 2 CORR_CW, 3 CORR_SYM,
4 UNCOR, 5 HDR_ERR, 6–13 HIST1–HIST8. -/
def FEC (k l i : Nat) : Nat := 0x1000 * (0x18 + k) + 0x800 + 0x40 * l + 4 * i

/-- Word `w` of the SCHED block of scheduler `i` (R165): 0 STATUS, 1 CAP, 2 GSUM, 3 LIMIT, 4 RES, 5 TURNS, 6 REFUSED, 7 OVER. -/
def SCHED (i w : Nat) : Nat := 0xA800 + 0x20 * i + 4 * w

/-- Port table word of fabric port `p` (R166). -/
def PORT_SUM (p : Nat) : Nat := 0xA880 + 4 * p

/-- Spare table word of spare `s` (R166): bit 31 USED, bit 30 FAILED, bits 7:0 the flow held. -/
def SPARE_TBL (s : Nat) : Nat := 0xA8C0 + 4 * s

/-- Word `w` of Ledger entry `i` (R401). -/
def LEDGER (i w : Nat) : Nat := 0x5800 + 0x10 * i + 4 * w

/-- Word `w` of error log entry `i` of page BRDG (R179, R188). -/
def BLOG (i w : Nat) : Nat := 0x1A800 + 0x10 * i + 4 * w

/-- Word `i` of the AUX data buffer of output `h` (R233). -/
def AUXBUF (h i : Nat) : Nat := 0x1000 * (0x24 + h) + 0x800 + 4 * i

/-- Word `i` of the key-input buffer KD_IN (R361, R374). -/
def KD_IN (i : Nat) : Nat := 0x36800 + 4 * i

/-- Word `i` of KD_OUT (R364). -/
def KD_OUT (i : Nat) : Nat := 0x36900 + 4 * i

/-- Flow-key table word of flow `f` (R374). -/
def FLOW_KEY (f : Nat) : Nat := 0x36C00 + 4 * f
def FLOW_KEY.BOUND (f : Nat) : Fld := ⟨FLOW_KEY f, 31, 1⟩
def FLOW_KEY.HELD (f : Nat) : Fld := ⟨FLOW_KEY f, 30, 1⟩
def FLOW_KEY.SLOT (f : Nat) : Fld := ⟨FLOW_KEY f, 24, 6⟩
def FLOW_KEY.KGEN (f : Nat) : Fld := ⟨FLOW_KEY f, 8, 16⟩

/-- Word `i` of the identity public key (R371). -/
def ATST_IDPUB (i : Nat) : Nat := 0x37480 + 4 * i

/-- Word `i` of the attestation statement (R370). -/
def ATST_STMT (i : Nat) : Nat := 0x37600 + 4 * i

/-- Word `i` of the identity certificate (R371). -/
def ATST_CERT (i : Nat) : Nat := 0x37800 + 4 * i

/-- Word `w` of slot `s` of the slot table (R374). -/
def SLOT_TBL (s w : Nat) : Nat := 0x35800 + 0x10 * s + 4 * w

/-- Word `w` of the inventory of kind `k` (R393). -/
def COPP_INV (k w : Nat) : Nat := 0x7800 + 8 * k + 4 * w

/-- Word `w` of in-service entry `i` of the map in force (R393). -/
def COPP_MAP (i w : Nat) : Nat := 0x7C00 + 8 * i + 4 * w

/-- Word of slack monitor `i` (R393). -/
def MON_TBL (i : Nat) : Nat := 0x3B800 + 4 * i

/-- Word of power domain `d` (R430). -/
def PDOM_TBL (d : Nat) : Nat := 0x3800 + 4 * d

/-- Word of rail `r` (R430). -/
def VCNV_TBL (r : Nat) : Nat := 0x34800 + 4 * r


/-! ## The map by page (R431) -/

/-- The registers of page 0x00 beyond the common header. -/
def page00Regs : List RegDesc :=
  [⟨0x400, 0x0, 1, 0x00000000, .por, 0x00000000, 0x00000000, 0x00000000, 0x00000000, 0x00000000⟩ /- STRAP_STATUS -/,
   ⟨0x040, 0x0, 1, 0x41604EB0, .por, 0x00000000, 0x00000000, 0x00000000, 0x00000000, 0x00000000⟩ /- COLOPHON -/,
   ⟨0x044, 0x0, 1, 0x00000000, .warm, 0x00000000, 0x00000000, 0x00000000, 0x00000001, 0x00000000⟩ /- RST_CTRL -/,
   ⟨0x048, 0x0, 1, 0x00000000, .folio, 0x00000000, 0xFFFFFFFF, 0x00000000, 0x00000000, 0x00000000⟩ /- AUTOLOCK_LO -/,
   ⟨0x04C, 0x0, 1, 0x00000000, .folio, 0x00000000, 0xFFFFFFFF, 0x00000000, 0x00000000, 0x00000000⟩ /- AUTOLOCK_HI -/,
   ⟨0x404, 0x0, 1, 0x00000000, .por, 0x00000000, 0x00000000, 0x00000000, 0x00000000, 0x00000000⟩ /- EPOCH_LO -/,
   ⟨0x408, 0x0, 1, 0x00000000, .por, 0x00000000, 0x00000000, 0x00000000, 0x00000000, 0x00000000⟩ /- EPOCH_HI -/,
   ⟨0x40C, 0x0, 1, 0x38000000, .por, 0x00000000, 0x00000000, 0x00000000, 0x00000000, 0x00000000⟩ /- RST_CAUSE -/]

/-- The registers of page 0x01 beyond the common header. -/
def page01Regs : List RegDesc :=
  [⟨0x040, 0x0, 1, 0x00000030, .page, 0x00000000, 0x00000030, 0x00000000, 0x00000005, 0x00000000⟩ /- FOLIO_CTRL -/,
   ⟨0x044, 0x0, 1, 0x00000000, .page, 0x00000000, 0x0000FFFF, 0x00000000, 0x00000000, 0x00000000⟩ /- FOLIO_SRC -/,
   ⟨0x400, 0x0, 1, 0x00000000, .warm, 0x00000000, 0x00000000, 0x00000000, 0x00000000, 0x00000000⟩ /- FOLIO_STATUS -/,
   ⟨0x404, 0x0, 1, 0x00000000, .warm, 0x00000000, 0x00000000, 0x00000000, 0x00000000, 0x00000000⟩ /- FOLIO_ACC_A -/,
   ⟨0x408, 0x0, 1, 0x00000000, .warm, 0x00000000, 0x00000000, 0x00000000, 0x00000000, 0x00000000⟩ /- FOLIO_ACC_B -/,
   ⟨0x40C, 0x0, 1, 0x00000000, .warm, 0x00000000, 0x00000000, 0x00000000, 0x00000000, 0x00000000⟩ /- FOLIO_SKIP -/]

/-- The registers of page 0x02 beyond the common header. -/
def page02Regs : List RegDesc :=
  [⟨0x040, 0x0, 1, 0x00000000, .page, 0xF3000000, 0x00000000, 0x00000000, 0x00000000, 0x00000000⟩ /- PS_MODE -/,
   ⟨0x044, 0x0, 1, 0x00000000, .page, 0x00000000, 0x00000000, 0x00000000, 0x00000000, 0x00000001⟩ /- PS_WAIT -/,
   ⟨0x048, 0x0, 1, 0x000002A1, .folio, 0x000003FF, 0x00000000, 0x00000000, 0x00000000, 0x00000000⟩ /- PS_WAKE_EN -/,
   ⟨0x04C, 0x0, 1, 0x00000000, .page, 0xFFFFFFFF, 0x00000000, 0x00000000, 0x00000000, 0x00000000⟩ /- PS_TIMER -/,
   ⟨0x400, 0x0, 1, 0x08000000, .warm, 0x00000000, 0x00000000, 0x00000000, 0x00000000, 0x00000000⟩ /- PS_STATUS -/,
   ⟨0x404, 0x0, 1, 0x00000000, .por, 0x00000000, 0x00000000, 0x800003FF, 0x00000000, 0x00000000⟩ /- WAKE_CAUSE -/,
   ⟨0x408, 0x0, 1, 0x00000000, .por, 0x00000000, 0x00000000, 0x00000000, 0x00000000, 0x00000000⟩ /- PS_SLEPT -/,
   ⟨0x40C, 0x0, 1, 0x00000000, .warm, 0x00000000, 0x00000000, 0x00000000, 0x00000000, 0x00000000⟩ /- PS_MAINT -/,
   ⟨0x410, 0x0, 1, 0x00000000, .warm, 0x00000000, 0x00000000, 0x00000000, 0x00000000, 0x00000000⟩ /- PS_CNT -/,
   ⟨0x414, 0x0, 1, 0x00000101, .warm, 0x00000000, 0x00000000, 0x00000000, 0x00000000, 0x00000000⟩ /- PS_ISL -/,
   ⟨0x418, 0x0, 1, 0x00001FDF, .warm, 0x00000000, 0x00000000, 0x00000000, 0x00000000, 0x00000000⟩ /- PS_DOMAIN -/]

/-- The registers of page 0x03 beyond the common header. -/
def page03Regs : List RegDesc :=
  [⟨0x800, 0x4, 13, 0x00000000, .warm, 0x00000000, 0x00000000, 0x00000000, 0x00000000, 0x00000000⟩ /- PDOM_TBL -/]

/-- The registers of page 0x04 beyond the common header. -/
def page04Regs : List RegDesc :=
  [⟨0x800, 0x4, 256, 0x00000000, .folio, 0x00000000, 0x00000007, 0x00000000, 0x00000000, 0x00000000⟩ /- EVT_SRC -/,
   ⟨0x040, 0x0, 1, 0x00000001, .folio, 0x00000000, 0x00000003, 0x00000000, 0x00000100, 0x00000000⟩ /- EVT_CTRL -/,
   ⟨0x400, 0x0, 1, 0x00000000, .page, 0x00000000, 0x00000000, 0x00000000, 0x00000000, 0x00000000⟩ /- EVT_GSUM -/,
   ⟨0x404, 0x0, 1, 0x00000000, .page, 0x00000000, 0x00000000, 0x00000000, 0x00000000, 0x00000000⟩ /- EVT_CNT -/]

/-- The registers of page 0x05 beyond the common header. -/
def page05Regs : List RegDesc :=
  [⟨0x040, 0x0, 1, 0x00000000, .page, 0x00000000, 0x00000000, 0x00000000, 0x00000000, 0x000000FF⟩ /- LEDG_REL -/,
   ⟨0x400, 0x0, 1, 0x00000000, .por, 0x00000000, 0x00000000, 0x00000000, 0x00000000, 0x00000000⟩ /- LEDG_STATUS -/,
   ⟨0x800, 0x4, 128, 0x00000000, .por, 0x00000000, 0x00000000, 0x00000000, 0x00000000, 0x00000000⟩ /- LEDGER -/]

/-- The registers of page 0x06 beyond the common header. -/
def page06Regs : List RegDesc :=
  [⟨0x040, 0x0, 1, 0x00000000, .folio, 0x00000000, 0x0000FF00, 0x00000000, 0x80000000, 0x00000000⟩ /- SAFE_CTRL -/,
   ⟨0x400, 0x0, 1, 0x00000000, .por, 0x00000000, 0x00000000, 0x00000000, 0x00000000, 0x00000000⟩ /- SAFE_STATUS -/,
   ⟨0x404, 0x0, 1, 0x00000000, .por, 0x00000000, 0x00000000, 0x00000000, 0x00000000, 0x00000000⟩ /- SAFE_EPOCH -/,
   ⟨0x408, 0x0, 1, 0x00000000, .warm, 0x00000000, 0x00000000, 0x00000000, 0x00000000, 0x00000000⟩ /- ALIVE_STATUS -/]

/-- The registers of page 0x07 beyond the common header. -/
def page07Regs : List RegDesc :=
  [⟨0x040, 0x0, 1, 0x00000203, .folio, 0x00000000, 0x00000F03, 0x00000000, 0x00001000, 0x00000000⟩ /- COPP_CTRL -/,
   ⟨0x400, 0x0, 1, 0x00000000, .warm, 0x00000000, 0x00000000, 0x00000000, 0x00000000, 0x00000000⟩ /- COPP_STATUS -/,
   ⟨0x404, 0x0, 1, 0x00000000, .page, 0x00000000, 0x00000000, 0x00000000, 0x00000000, 0x00000000⟩ /- COPP_CNT -/,
   ⟨0x808, 0x4, 22, 0x00000000, .warm, 0x00000000, 0x00000000, 0x00000000, 0x00000000, 0x00000000⟩ /- COPP_INV -/,
   ⟨0xC00, 0x4, 256, 0x00000000, .warm, 0x00000000, 0x00000000, 0x00000000, 0x00000000, 0x00000000⟩ /- COPP_MAP -/]

/-- The registers of page 0x08 beyond the common header. -/
def page08Regs : List RegDesc :=
  [⟨0x040, 0x0, 1, 0x00003C00, .folio, 0x00000000, 0x0000FF00, 0x00000000, 0x80000000, 0x00000000⟩ /- ROUT_CTRL -/,
   ⟨0x400, 0x0, 1, 0x10000000, .warm, 0x00000000, 0x00000000, 0x00000000, 0x00000000, 0x00000000⟩ /- ROUT_STATUS -/,
   ⟨0x404, 0x0, 1, 0x00000000, .warm, 0x00000000, 0x00000000, 0x00000000, 0x00000000, 0x00000000⟩ /- ROUT_GAP -/]

/-- The registers of page 0x09 beyond the common header. -/
def page09Regs : List RegDesc :=
  [⟨0x400, 0x0, 1, 0x00000000, .warm, 0x00000000, 0x00000000, 0x00000000, 0x00000000, 0x00000000⟩ /- STBY_STATUS -/,
   ⟨0x404, 0x0, 1, 0x00000000, .page, 0x00000000, 0x00000000, 0x00000000, 0x00000000, 0x00000000⟩ /- STBY_CNT -/,
   ⟨0x408, 0x0, 1, 0x00000000, .page, 0x00000000, 0x00000000, 0x00000000, 0x00000000, 0x00000000⟩ /- STBY_ISO_DROP -/]

/-- The registers of page 0x0A beyond the common header. -/
def page0ARegs : List RegDesc :=
  [⟨0x040, 0x0, 1, 0x00000008, .folio, 0x00000000, 0x000000FF, 0x00000000, 0x00000400, 0x00000000⟩ /- CIRC_CTRL -/,
   ⟨0x044, 0x0, 1, 0x00201008, .folio, 0x00000000, 0xF0FFFFFF, 0x00000000, 0x00000000, 0x00000000⟩ /- CIRC_TURN -/,
   ⟨0x400, 0x0, 1, 0x00000000, .page, 0x00000000, 0x00000000, 0x00000000, 0x00000000, 0x00000000⟩ /- CIRC_ADMIT -/,
   ⟨0x800, 0x4, 16, 0x00000000, .page, 0x00000000, 0x00000000, 0x00000000, 0x00000000, 0x00000000⟩ /- SCHED -/,
   ⟨0x880, 0x4, 16, 0x00000000, .page, 0x00000000, 0x00000000, 0x00000000, 0x00000000, 0x00000000⟩ /- PORT -/,
   ⟨0x8C0, 0x4, 16, 0x00000000, .por, 0x00000000, 0x00000000, 0x00000000, 0x00000000, 0x00000000⟩ /- SPARE -/]

/-- The registers of page 0x0B beyond the common header. -/
def page0BRegs : List RegDesc :=
  [⟨0x800, 0x20, 64, 0x00000000, .page, 0x00000000, 0xFFF8FFFF, 0x00000000, 0x00000000, 0x00000000⟩ /- FLOW_CFG -/,
   ⟨0x804, 0x20, 64, 0x00000000, .page, 0x00000000, 0x0FFF0FFF, 0x00000000, 0x00000000, 0x00000000⟩ /- FLOW_GUAR -/,
   ⟨0x808, 0x20, 64, 0x00000000, .page, 0x00000000, 0x0FFF0FFF, 0x00000000, 0x00000000, 0x00000000⟩ /- FLOW_CEIL -/,
   ⟨0x80C, 0x20, 64, 0x00000000, .page, 0x00000000, 0x0FFF0FFF, 0x00000000, 0x00000000, 0x00000000⟩ /- FLOW_DECL -/,
   ⟨0x810, 0x20, 64, 0x00000000, .page, 0x00000000, 0x00000000, 0x00000000, 0x00000000, 0x00000000⟩ /- FLOW_STATE -/,
   ⟨0x814, 0x20, 64, 0x00000000, .page, 0x00000000, 0x00000000, 0x00000000, 0x00000000, 0x00000000⟩ /- FLOW_BACKLOG -/,
   ⟨0x818, 0x20, 64, 0x00000000, .page, 0x00000000, 0x00000000, 0x00000000, 0x00000000, 0x00000000⟩ /- FLOW_DEF -/,
   ⟨0x81C, 0x20, 64, 0x00000000, .page, 0x00000000, 0x00000000, 0x00000000, 0x00000000, 0x00000000⟩ /- FLOW_CNT -/]

/-- The registers of page 0x0C beyond the common header. -/
def page0CRegs : List RegDesc :=
  [⟨0x800, 0x20, 64, 0x00000000, .page, 0x00000000, 0xFFF8FFFF, 0x00000000, 0x00000000, 0x00000000⟩ /- FLOW_CFG -/,
   ⟨0x804, 0x20, 64, 0x00000000, .page, 0x00000000, 0x0FFF0FFF, 0x00000000, 0x00000000, 0x00000000⟩ /- FLOW_GUAR -/,
   ⟨0x808, 0x20, 64, 0x00000000, .page, 0x00000000, 0x0FFF0FFF, 0x00000000, 0x00000000, 0x00000000⟩ /- FLOW_CEIL -/,
   ⟨0x80C, 0x20, 64, 0x00000000, .page, 0x00000000, 0x0FFF0FFF, 0x00000000, 0x00000000, 0x00000000⟩ /- FLOW_DECL -/,
   ⟨0x810, 0x20, 64, 0x00000000, .page, 0x00000000, 0x00000000, 0x00000000, 0x00000000, 0x00000000⟩ /- FLOW_STATE -/,
   ⟨0x814, 0x20, 64, 0x00000000, .page, 0x00000000, 0x00000000, 0x00000000, 0x00000000, 0x00000000⟩ /- FLOW_BACKLOG -/,
   ⟨0x818, 0x20, 64, 0x00000000, .page, 0x00000000, 0x00000000, 0x00000000, 0x00000000, 0x00000000⟩ /- FLOW_DEF -/,
   ⟨0x81C, 0x20, 64, 0x00000000, .page, 0x00000000, 0x00000000, 0x00000000, 0x00000000, 0x00000000⟩ /- FLOW_CNT -/]

/-- The registers of page 0x0D beyond the common header. -/
def page0DRegs : List RegDesc :=
  [⟨0x800, 0x20, 64, 0x00000000, .page, 0x00000000, 0xFFF8FFFF, 0x00000000, 0x00000000, 0x00000000⟩ /- FLOW_CFG -/,
   ⟨0x804, 0x20, 64, 0x00000000, .page, 0x00000000, 0x0FFF0FFF, 0x00000000, 0x00000000, 0x00000000⟩ /- FLOW_GUAR -/,
   ⟨0x808, 0x20, 64, 0x00000000, .page, 0x00000000, 0x0FFF0FFF, 0x00000000, 0x00000000, 0x00000000⟩ /- FLOW_CEIL -/,
   ⟨0x80C, 0x20, 64, 0x00000000, .page, 0x00000000, 0x0FFF0FFF, 0x00000000, 0x00000000, 0x00000000⟩ /- FLOW_DECL -/,
   ⟨0x810, 0x20, 64, 0x00000000, .page, 0x00000000, 0x00000000, 0x00000000, 0x00000000, 0x00000000⟩ /- FLOW_STATE -/,
   ⟨0x814, 0x20, 64, 0x00000000, .page, 0x00000000, 0x00000000, 0x00000000, 0x00000000, 0x00000000⟩ /- FLOW_BACKLOG -/,
   ⟨0x818, 0x20, 64, 0x00000000, .page, 0x00000000, 0x00000000, 0x00000000, 0x00000000, 0x00000000⟩ /- FLOW_DEF -/,
   ⟨0x81C, 0x20, 64, 0x00000000, .page, 0x00000000, 0x00000000, 0x00000000, 0x00000000, 0x00000000⟩ /- FLOW_CNT -/]

/-- The registers of page 0x0E beyond the common header. -/
def page0ERegs : List RegDesc :=
  [⟨0x800, 0x20, 64, 0x00000000, .page, 0x00000000, 0xFFF8FFFF, 0x00000000, 0x00000000, 0x00000000⟩ /- FLOW_CFG -/,
   ⟨0x804, 0x20, 64, 0x00000000, .page, 0x00000000, 0x0FFF0FFF, 0x00000000, 0x00000000, 0x00000000⟩ /- FLOW_GUAR -/,
   ⟨0x808, 0x20, 64, 0x00000000, .page, 0x00000000, 0x0FFF0FFF, 0x00000000, 0x00000000, 0x00000000⟩ /- FLOW_CEIL -/,
   ⟨0x80C, 0x20, 64, 0x00000000, .page, 0x00000000, 0x0FFF0FFF, 0x00000000, 0x00000000, 0x00000000⟩ /- FLOW_DECL -/,
   ⟨0x810, 0x20, 64, 0x00000000, .page, 0x00000000, 0x00000000, 0x00000000, 0x00000000, 0x00000000⟩ /- FLOW_STATE -/,
   ⟨0x814, 0x20, 64, 0x00000000, .page, 0x00000000, 0x00000000, 0x00000000, 0x00000000, 0x00000000⟩ /- FLOW_BACKLOG -/,
   ⟨0x818, 0x20, 64, 0x00000000, .page, 0x00000000, 0x00000000, 0x00000000, 0x00000000, 0x00000000⟩ /- FLOW_DEF -/,
   ⟨0x81C, 0x20, 64, 0x00000000, .page, 0x00000000, 0x00000000, 0x00000000, 0x00000000, 0x00000000⟩ /- FLOW_CNT -/]

/-- The registers of page 0x0F beyond the common header. -/
def page0FRegs : List RegDesc :=
  [⟨0x400, 0x0, 1, 0x00000000, .page, 0x00000000, 0x00000000, 0x00000000, 0x00000000, 0x00000000⟩ /- LMGT_CNT -/]

/-- The registers of page 0x10 beyond the common header. -/
def page10Regs : List RegDesc :=
  [⟨0x040, 0x0, 1, 0x00003000, .page, 0x00003F70, 0x00000000, 0x00000000, 0x00000000, 0x00000000⟩ /- LANE_CTRL -/,
   ⟨0x044, 0x0, 1, 0x00000020, .folio, 0x00000000, 0x000000EF, 0x00000000, 0x00000100, 0x00000000⟩ /- LANE_EQ_CTRL -/,
   ⟨0x048, 0x0, 1, 0x01C00000, .page, 0x03F80000, 0x00000000, 0x00000000, 0xC0000000, 0x00000000⟩ /- EYE_CTRL -/,
   ⟨0x400, 0x0, 1, 0x00000000, .page, 0x00000000, 0x00000000, 0x00000000, 0x00000000, 0x00000000⟩ /- LANE_STATUS -/,
   ⟨0x404, 0x0, 1, 0x00000000, .page, 0x00000000, 0x00000000, 0x00000000, 0x00000000, 0x00000000⟩ /- EYE_STATUS -/,
   ⟨0x408, 0x0, 1, 0x00000000, .page, 0x00000000, 0x00000000, 0x00000000, 0x00000000, 0x00000000⟩ /- LANE_CNT -/,
   ⟨0x40C, 0x0, 1, 0x00000000, .page, 0x00000000, 0x00000000, 0x00000000, 0x00000000, 0x00000000⟩ /- TURN_CNT -/,
   ⟨0x410, 0x0, 1, 0x00000000, .page, 0x00000000, 0x00000000, 0x00000000, 0x00000000, 0x00000000⟩ /- PRBS_ERR -/,
   ⟨0x800, 0x4, 479, 0xFFFFFFFF, .page, 0x00000000, 0x00000000, 0x00000000, 0x00000000, 0x00000000⟩ /- EYE_RESULT -/,
   ⟨0xF80, 0x4, 28, 0x00000000, .por, 0x00000000, 0x00000000, 0x00000000, 0x00000000, 0x00000000⟩ /- TAP_SET -/]

/-- The registers of page 0x11 beyond the common header. -/
def page11Regs : List RegDesc :=
  [⟨0x040, 0x0, 1, 0x00003000, .page, 0x00003F70, 0x00000000, 0x00000000, 0x00000000, 0x00000000⟩ /- LANE_CTRL -/,
   ⟨0x044, 0x0, 1, 0x00000020, .folio, 0x00000000, 0x000000EF, 0x00000000, 0x00000100, 0x00000000⟩ /- LANE_EQ_CTRL -/,
   ⟨0x048, 0x0, 1, 0x01C00000, .page, 0x03F80000, 0x00000000, 0x00000000, 0xC0000000, 0x00000000⟩ /- EYE_CTRL -/,
   ⟨0x400, 0x0, 1, 0x00000000, .page, 0x00000000, 0x00000000, 0x00000000, 0x00000000, 0x00000000⟩ /- LANE_STATUS -/,
   ⟨0x404, 0x0, 1, 0x00000000, .page, 0x00000000, 0x00000000, 0x00000000, 0x00000000, 0x00000000⟩ /- EYE_STATUS -/,
   ⟨0x408, 0x0, 1, 0x00000000, .page, 0x00000000, 0x00000000, 0x00000000, 0x00000000, 0x00000000⟩ /- LANE_CNT -/,
   ⟨0x40C, 0x0, 1, 0x00000000, .page, 0x00000000, 0x00000000, 0x00000000, 0x00000000, 0x00000000⟩ /- TURN_CNT -/,
   ⟨0x410, 0x0, 1, 0x00000000, .page, 0x00000000, 0x00000000, 0x00000000, 0x00000000, 0x00000000⟩ /- PRBS_ERR -/,
   ⟨0x800, 0x4, 479, 0xFFFFFFFF, .page, 0x00000000, 0x00000000, 0x00000000, 0x00000000, 0x00000000⟩ /- EYE_RESULT -/,
   ⟨0xF80, 0x4, 28, 0x00000000, .por, 0x00000000, 0x00000000, 0x00000000, 0x00000000, 0x00000000⟩ /- TAP_SET -/]

/-- The registers of page 0x12 beyond the common header. -/
def page12Regs : List RegDesc :=
  [⟨0x040, 0x0, 1, 0x00003000, .page, 0x00003F70, 0x00000000, 0x00000000, 0x00000000, 0x00000000⟩ /- LANE_CTRL -/,
   ⟨0x044, 0x0, 1, 0x00000020, .folio, 0x00000000, 0x000000EF, 0x00000000, 0x00000100, 0x00000000⟩ /- LANE_EQ_CTRL -/,
   ⟨0x048, 0x0, 1, 0x01C00000, .page, 0x03F80000, 0x00000000, 0x00000000, 0xC0000000, 0x00000000⟩ /- EYE_CTRL -/,
   ⟨0x400, 0x0, 1, 0x00008000, .page, 0x00000000, 0x00000000, 0x00000000, 0x00000000, 0x00000000⟩ /- LANE_STATUS -/,
   ⟨0x404, 0x0, 1, 0x00000000, .page, 0x00000000, 0x00000000, 0x00000000, 0x00000000, 0x00000000⟩ /- EYE_STATUS -/,
   ⟨0x408, 0x0, 1, 0x00000000, .page, 0x00000000, 0x00000000, 0x00000000, 0x00000000, 0x00000000⟩ /- LANE_CNT -/,
   ⟨0x40C, 0x0, 1, 0x00000000, .page, 0x00000000, 0x00000000, 0x00000000, 0x00000000, 0x00000000⟩ /- TURN_CNT -/,
   ⟨0x410, 0x0, 1, 0x00000000, .page, 0x00000000, 0x00000000, 0x00000000, 0x00000000, 0x00000000⟩ /- PRBS_ERR -/,
   ⟨0x800, 0x4, 479, 0xFFFFFFFF, .page, 0x00000000, 0x00000000, 0x00000000, 0x00000000, 0x00000000⟩ /- EYE_RESULT -/,
   ⟨0xF80, 0x4, 28, 0x00000000, .por, 0x00000000, 0x00000000, 0x00000000, 0x00000000, 0x00000000⟩ /- TAP_SET -/]

/-- The registers of page 0x13 beyond the common header. -/
def page13Regs : List RegDesc :=
  [⟨0x040, 0x0, 1, 0x00003000, .page, 0x00003F70, 0x00000000, 0x00000000, 0x00000000, 0x00000000⟩ /- LANE_CTRL -/,
   ⟨0x044, 0x0, 1, 0x00000020, .folio, 0x00000000, 0x000000EF, 0x00000000, 0x00000100, 0x00000000⟩ /- LANE_EQ_CTRL -/,
   ⟨0x048, 0x0, 1, 0x01C00000, .page, 0x03F80000, 0x00000000, 0x00000000, 0xC0000000, 0x00000000⟩ /- EYE_CTRL -/,
   ⟨0x400, 0x0, 1, 0x00008000, .page, 0x00000000, 0x00000000, 0x00000000, 0x00000000, 0x00000000⟩ /- LANE_STATUS -/,
   ⟨0x404, 0x0, 1, 0x00000000, .page, 0x00000000, 0x00000000, 0x00000000, 0x00000000, 0x00000000⟩ /- EYE_STATUS -/,
   ⟨0x408, 0x0, 1, 0x00000000, .page, 0x00000000, 0x00000000, 0x00000000, 0x00000000, 0x00000000⟩ /- LANE_CNT -/,
   ⟨0x40C, 0x0, 1, 0x00000000, .page, 0x00000000, 0x00000000, 0x00000000, 0x00000000, 0x00000000⟩ /- TURN_CNT -/,
   ⟨0x410, 0x0, 1, 0x00000000, .page, 0x00000000, 0x00000000, 0x00000000, 0x00000000, 0x00000000⟩ /- PRBS_ERR -/,
   ⟨0x800, 0x4, 479, 0xFFFFFFFF, .page, 0x00000000, 0x00000000, 0x00000000, 0x00000000, 0x00000000⟩ /- EYE_RESULT -/,
   ⟨0xF80, 0x4, 28, 0x00000000, .por, 0x00000000, 0x00000000, 0x00000000, 0x00000000, 0x00000000⟩ /- TAP_SET -/]

/-- The registers of page 0x14 beyond the common header. -/
def page14Regs : List RegDesc :=
  [⟨0x040, 0x0, 1, 0x00003000, .page, 0x00003F70, 0x00000000, 0x00000000, 0x00000000, 0x00000000⟩ /- LANE_CTRL -/,
   ⟨0x044, 0x0, 1, 0x00000020, .folio, 0x00000000, 0x000000EF, 0x00000000, 0x00000100, 0x00000000⟩ /- LANE_EQ_CTRL -/,
   ⟨0x048, 0x0, 1, 0x01C00000, .page, 0x03F80000, 0x00000000, 0x00000000, 0xC0000000, 0x00000000⟩ /- EYE_CTRL -/,
   ⟨0x400, 0x0, 1, 0x00000000, .page, 0x00000000, 0x00000000, 0x00000000, 0x00000000, 0x00000000⟩ /- LANE_STATUS -/,
   ⟨0x404, 0x0, 1, 0x00000000, .page, 0x00000000, 0x00000000, 0x00000000, 0x00000000, 0x00000000⟩ /- EYE_STATUS -/,
   ⟨0x408, 0x0, 1, 0x00000000, .page, 0x00000000, 0x00000000, 0x00000000, 0x00000000, 0x00000000⟩ /- LANE_CNT -/,
   ⟨0x40C, 0x0, 1, 0x00000000, .page, 0x00000000, 0x00000000, 0x00000000, 0x00000000, 0x00000000⟩ /- TURN_CNT -/,
   ⟨0x410, 0x0, 1, 0x00000000, .page, 0x00000000, 0x00000000, 0x00000000, 0x00000000, 0x00000000⟩ /- PRBS_ERR -/,
   ⟨0x800, 0x4, 479, 0xFFFFFFFF, .page, 0x00000000, 0x00000000, 0x00000000, 0x00000000, 0x00000000⟩ /- EYE_RESULT -/,
   ⟨0xF80, 0x4, 28, 0x00000000, .por, 0x00000000, 0x00000000, 0x00000000, 0x00000000, 0x00000000⟩ /- TAP_SET -/]

/-- The registers of page 0x15 beyond the common header. -/
def page15Regs : List RegDesc :=
  [⟨0x040, 0x0, 1, 0x00003000, .page, 0x00003F70, 0x00000000, 0x00000000, 0x00000000, 0x00000000⟩ /- LANE_CTRL -/,
   ⟨0x044, 0x0, 1, 0x00000020, .folio, 0x00000000, 0x000000EF, 0x00000000, 0x00000100, 0x00000000⟩ /- LANE_EQ_CTRL -/,
   ⟨0x048, 0x0, 1, 0x01C00000, .page, 0x03F80000, 0x00000000, 0x00000000, 0xC0000000, 0x00000000⟩ /- EYE_CTRL -/,
   ⟨0x400, 0x0, 1, 0x00000000, .page, 0x00000000, 0x00000000, 0x00000000, 0x00000000, 0x00000000⟩ /- LANE_STATUS -/,
   ⟨0x404, 0x0, 1, 0x00000000, .page, 0x00000000, 0x00000000, 0x00000000, 0x00000000, 0x00000000⟩ /- EYE_STATUS -/,
   ⟨0x408, 0x0, 1, 0x00000000, .page, 0x00000000, 0x00000000, 0x00000000, 0x00000000, 0x00000000⟩ /- LANE_CNT -/,
   ⟨0x40C, 0x0, 1, 0x00000000, .page, 0x00000000, 0x00000000, 0x00000000, 0x00000000, 0x00000000⟩ /- TURN_CNT -/,
   ⟨0x410, 0x0, 1, 0x00000000, .page, 0x00000000, 0x00000000, 0x00000000, 0x00000000, 0x00000000⟩ /- PRBS_ERR -/,
   ⟨0x800, 0x4, 479, 0xFFFFFFFF, .page, 0x00000000, 0x00000000, 0x00000000, 0x00000000, 0x00000000⟩ /- EYE_RESULT -/,
   ⟨0xF80, 0x4, 28, 0x00000000, .por, 0x00000000, 0x00000000, 0x00000000, 0x00000000, 0x00000000⟩ /- TAP_SET -/]

/-- The registers of page 0x16 beyond the common header. -/
def page16Regs : List RegDesc :=
  [⟨0x040, 0x0, 1, 0x00003000, .page, 0x00003F70, 0x00000000, 0x00000000, 0x00000000, 0x00000000⟩ /- LANE_CTRL -/,
   ⟨0x044, 0x0, 1, 0x00000020, .folio, 0x00000000, 0x000000EF, 0x00000000, 0x00000100, 0x00000000⟩ /- LANE_EQ_CTRL -/,
   ⟨0x048, 0x0, 1, 0x01C00000, .page, 0x03F80000, 0x00000000, 0x00000000, 0xC0000000, 0x00000000⟩ /- EYE_CTRL -/,
   ⟨0x400, 0x0, 1, 0x00008000, .page, 0x00000000, 0x00000000, 0x00000000, 0x00000000, 0x00000000⟩ /- LANE_STATUS -/,
   ⟨0x404, 0x0, 1, 0x00000000, .page, 0x00000000, 0x00000000, 0x00000000, 0x00000000, 0x00000000⟩ /- EYE_STATUS -/,
   ⟨0x408, 0x0, 1, 0x00000000, .page, 0x00000000, 0x00000000, 0x00000000, 0x00000000, 0x00000000⟩ /- LANE_CNT -/,
   ⟨0x40C, 0x0, 1, 0x00000000, .page, 0x00000000, 0x00000000, 0x00000000, 0x00000000, 0x00000000⟩ /- TURN_CNT -/,
   ⟨0x410, 0x0, 1, 0x00000000, .page, 0x00000000, 0x00000000, 0x00000000, 0x00000000, 0x00000000⟩ /- PRBS_ERR -/,
   ⟨0x800, 0x4, 479, 0xFFFFFFFF, .page, 0x00000000, 0x00000000, 0x00000000, 0x00000000, 0x00000000⟩ /- EYE_RESULT -/,
   ⟨0xF80, 0x4, 28, 0x00000000, .por, 0x00000000, 0x00000000, 0x00000000, 0x00000000, 0x00000000⟩ /- TAP_SET -/]

/-- The registers of page 0x17 beyond the common header. -/
def page17Regs : List RegDesc :=
  [⟨0x040, 0x0, 1, 0x00003000, .page, 0x00003F70, 0x00000000, 0x00000000, 0x00000000, 0x00000000⟩ /- LANE_CTRL -/,
   ⟨0x044, 0x0, 1, 0x00000020, .folio, 0x00000000, 0x000000EF, 0x00000000, 0x00000100, 0x00000000⟩ /- LANE_EQ_CTRL -/,
   ⟨0x048, 0x0, 1, 0x01C00000, .page, 0x03F80000, 0x00000000, 0x00000000, 0xC0000000, 0x00000000⟩ /- EYE_CTRL -/,
   ⟨0x400, 0x0, 1, 0x00008000, .page, 0x00000000, 0x00000000, 0x00000000, 0x00000000, 0x00000000⟩ /- LANE_STATUS -/,
   ⟨0x404, 0x0, 1, 0x00000000, .page, 0x00000000, 0x00000000, 0x00000000, 0x00000000, 0x00000000⟩ /- EYE_STATUS -/,
   ⟨0x408, 0x0, 1, 0x00000000, .page, 0x00000000, 0x00000000, 0x00000000, 0x00000000, 0x00000000⟩ /- LANE_CNT -/,
   ⟨0x40C, 0x0, 1, 0x00000000, .page, 0x00000000, 0x00000000, 0x00000000, 0x00000000, 0x00000000⟩ /- TURN_CNT -/,
   ⟨0x410, 0x0, 1, 0x00000000, .page, 0x00000000, 0x00000000, 0x00000000, 0x00000000, 0x00000000⟩ /- PRBS_ERR -/,
   ⟨0x800, 0x4, 479, 0xFFFFFFFF, .page, 0x00000000, 0x00000000, 0x00000000, 0x00000000, 0x00000000⟩ /- EYE_RESULT -/,
   ⟨0xF80, 0x4, 28, 0x00000000, .por, 0x00000000, 0x00000000, 0x00000000, 0x00000000, 0x00000000⟩ /- TAP_SET -/]

/-- The registers of page 0x18 beyond the common header. -/
def page18Regs : List RegDesc :=
  [⟨0x040, 0x0, 1, 0x00000033, .folio, 0x00000000, 0x00000033, 0x00000000, 0x00000700, 0x00000000⟩ /- LINK_CTRL -/,
   ⟨0x400, 0x0, 1, 0x00000000, .page, 0x00000000, 0x00000000, 0x00000000, 0x00000000, 0x00000000⟩ /- LINK_STATUS -/,
   ⟨0x404, 0x0, 1, 0x00000000, .page, 0x00000000, 0x00000000, 0x00000000, 0x00000000, 0x00000000⟩ /- LINK_CNT -/,
   ⟨0x408, 0x0, 1, 0x00000000, .page, 0x00000000, 0x00000000, 0x00000000, 0x00000000, 0x00000000⟩ /- REPLAY_CNT -/,
   ⟨0x40C, 0x0, 1, 0x00000000, .page, 0x00000000, 0x00000000, 0x00000000, 0x00000000, 0x00000000⟩ /- STREAM_LOST -/,
   ⟨0x800, 0x4, 64, 0x00000000, .page, 0x00000000, 0x00000000, 0x00000000, 0x00000000, 0x00000000⟩ /- FEC -/]

/-- The registers of page 0x19 beyond the common header. -/
def page19Regs : List RegDesc :=
  [⟨0x040, 0x0, 1, 0x00000033, .folio, 0x00000000, 0x00000033, 0x00000000, 0x00000700, 0x00000000⟩ /- LINK_CTRL -/,
   ⟨0x400, 0x0, 1, 0x00000000, .page, 0x00000000, 0x00000000, 0x00000000, 0x00000000, 0x00000000⟩ /- LINK_STATUS -/,
   ⟨0x404, 0x0, 1, 0x00000000, .page, 0x00000000, 0x00000000, 0x00000000, 0x00000000, 0x00000000⟩ /- LINK_CNT -/,
   ⟨0x408, 0x0, 1, 0x00000000, .page, 0x00000000, 0x00000000, 0x00000000, 0x00000000, 0x00000000⟩ /- REPLAY_CNT -/,
   ⟨0x40C, 0x0, 1, 0x00000000, .page, 0x00000000, 0x00000000, 0x00000000, 0x00000000, 0x00000000⟩ /- STREAM_LOST -/,
   ⟨0x800, 0x4, 64, 0x00000000, .page, 0x00000000, 0x00000000, 0x00000000, 0x00000000, 0x00000000⟩ /- FEC -/]

/-- The registers of page 0x1A beyond the common header. -/
def page1ARegs : List RegDesc :=
  [⟨0x040, 0x0, 1, 0x00000004, .folio, 0x00000000, 0x0000003F, 0x00000000, 0x00000100, 0x00000000⟩ /- BRDG_CTRL -/,
   ⟨0x044, 0x0, 1, 0x00000000, .page, 0x00000000, 0x00000000, 0x00000000, 0x00000000, 0x00000001⟩ /- BRDG_LOG_REL -/,
   ⟨0x400, 0x0, 1, 0x00000000, .page, 0x00000000, 0x00000000, 0x00800000, 0x00000000, 0x00000000⟩ /- BRDG_STATUS -/,
   ⟨0x404, 0x0, 1, 0x00000000, .page, 0x00000000, 0x00000000, 0x00000000, 0x00000000, 0x00000000⟩ /- PF_HIT -/,
   ⟨0x408, 0x0, 1, 0x00000000, .page, 0x00000000, 0x00000000, 0x00000000, 0x00000000, 0x00000000⟩ /- PF_DISCARD -/,
   ⟨0x40C, 0x0, 1, 0x00000000, .page, 0x00000000, 0x00000000, 0x00000000, 0x00000000, 0x00000000⟩ /- ERR_CNT -/,
   ⟨0x800, 0x4, 64, 0x00000000, .page, 0x00000000, 0x00000000, 0x00000000, 0x00000000, 0x00000000⟩ /- BLOG -/]

/-- The registers of page 0x1B beyond the common header. -/
def page1BRegs : List RegDesc :=
  [⟨0x040, 0x10, 16, 0x00000000, .page, 0x80000000, 0x7F1F0000, 0x00000000, 0x00000000, 0x00000000⟩ /- WIN_CTRL -/,
   ⟨0x044, 0x10, 16, 0x00000000, .page, 0x00000000, 0x0FFFFFFF, 0x00000000, 0x00000000, 0x00000000⟩ /- WIN_BASE -/,
   ⟨0x048, 0x10, 16, 0x00000000, .page, 0x00000000, 0x830000FF, 0x00000000, 0x00000000, 0x00000000⟩ /- WIN_ROUTE -/,
   ⟨0x04C, 0x10, 16, 0x00000000, .page, 0x00000000, 0x00000000, 0x00000000, 0x00000000, 0x00000000⟩ /- WIN_CNT -/]

/-- The registers of page 0x1C beyond the common header. -/
def page1CRegs : List RegDesc :=
  [⟨0x040, 0x0, 1, 0x0000000D, .folio, 0x00000000, 0x0000000D, 0x00000000, 0x00000100, 0x00000000⟩ /- CASC_CTRL -/,
   ⟨0x044, 0x0, 1, 0x00000001, .page, 0x00000000, 0x00FFFFFF, 0x00000000, 0x00000000, 0x00000000⟩ /- CASC_RFLOW -/,
   ⟨0x048, 0x0, 1, 0x00000000, .warm, 0x80000003, 0x00000000, 0x00000000, 0x00000000, 0x00000000⟩ /- CASC_POSN -/,
   ⟨0x04C, 0x0, 1, 0x00000000, .page, 0x40000000, 0x00000000, 0x00000000, 0x80000000, 0x00000000⟩ /- CASC_RLY_CTRL -/,
   ⟨0x050, 0x0, 1, 0x00000000, .page, 0x0003FFFF, 0x00000000, 0x00000000, 0x00000000, 0x00000000⟩ /- CASC_RLY_ADDR -/,
   ⟨0x054, 0x0, 1, 0x00000000, .page, 0xFFFFFFFF, 0x00000000, 0x00000000, 0x00000000, 0x00000000⟩ /- CASC_RLY_DATA -/,
   ⟨0x400, 0x0, 1, 0x00000000, .page, 0x00000000, 0x00000000, 0x00000000, 0x00000000, 0x00000000⟩ /- CASC_STATUS -/,
   ⟨0x404, 0x0, 1, 0x00000000, .page, 0x00000000, 0x00000000, 0x00000000, 0x00000000, 0x00000000⟩ /- CASC_CNT -/]

/-- The registers of page 0x1D beyond the common header. -/
def page1DRegs : List RegDesc :=
  [⟨0x040, 0x0, 1, 0x0000000F, .folio, 0x00000000, 0x000000FF, 0x00000000, 0x00000100, 0x00000000⟩ /- SURF_CTRL -/,
   ⟨0x044, 0x4, 4, 0x00000000, .folio, 0x00000000, 0x800FFFFF, 0x00000000, 0x00000000, 0x00000000⟩ /- RX_CTRL -/,
   ⟨0x400, 0x0, 1, 0x00000000, .page, 0x00000000, 0x00000000, 0x00000000, 0x00000000, 0x00000000⟩ /- SURF_STATUS -/,
   ⟨0x404, 0x0, 1, 0x00000000, .page, 0x00000000, 0x00000000, 0x00000000, 0x00000000, 0x00000000⟩ /- SURF_REJ0 -/,
   ⟨0x408, 0x0, 1, 0x00000000, .page, 0x00000000, 0x00000000, 0x00000000, 0x00000000, 0x00000000⟩ /- SURF_REJ1 -/,
   ⟨0x410, 0x4, 4, 0x00000000, .page, 0x00000000, 0x00000000, 0x00000000, 0x00000000, 0x00000000⟩ /- RX_STATUS -/]

/-- The registers of page 0x1E beyond the common header. -/
def page1ERegs : List RegDesc :=
  [⟨0x800, 0x20, 64, 0x00000000, .page, 0x80000000, 0x7C000000, 0x00000000, 0x00000000, 0x00000000⟩ /- SD_CTRL -/,
   ⟨0x804, 0x20, 64, 0x00000000, .page, 0x00000000, 0x1FFF1FFF, 0x00000000, 0x00000000, 0x00000000⟩ /- SD_SIZE -/,
   ⟨0x808, 0x20, 64, 0x00000000, .page, 0x00000000, 0x000FFFFF, 0x00000000, 0x00000000, 0x00000000⟩ /- SD_BASE -/,
   ⟨0x80C, 0x20, 64, 0x00000000, .page, 0x00000000, 0x000FFFFF, 0x00000000, 0x00000000, 0x00000000⟩ /- SD_AUX -/,
   ⟨0x810, 0x20, 64, 0x00000000, .page, 0x00000000, 0x00000000, 0x00000000, 0x00000000, 0x00000000⟩ /- SD_CNT -/,
   ⟨0x814, 0x20, 64, 0x00000000, .page, 0x00000000, 0x00000000, 0x00000000, 0x00000000, 0x00000000⟩ /- SD_REJ -/]

/-- The registers of page 0x1F beyond the common header. -/
def page1FRegs : List RegDesc :=
  [⟨0x040, 0x20, 4, 0x00FF0000, .folio, 0x00000000, 0xF8FF0000, 0x00000000, 0x00000000, 0x00000000⟩ /- MARG_CTRL -/,
   ⟨0x044, 0x20, 4, 0x00000000, .folio, 0x00000000, 0x1FFF1FFF, 0x00000000, 0x00000000, 0x00000000⟩ /- MARG_POS -/,
   ⟨0x048, 0x20, 4, 0x00000000, .folio, 0x00000000, 0x07FF07FF, 0x00000000, 0x00000000, 0x00000000⟩ /- MARG_SIZE -/,
   ⟨0x04C, 0x20, 4, 0x00000000, .folio, 0x00000000, 0xFFFFFFFF, 0x00000000, 0x00000000, 0x00000000⟩ /- MARG_BASE -/,
   ⟨0x050, 0x20, 4, 0x00000000, .page, 0x00000000, 0x00000000, 0x00000000, 0x00000003, 0x00000000⟩ /- MARG_COMMIT -/,
   ⟨0x400, 0x4, 4, 0x00000000, .page, 0x00000000, 0x00000000, 0x00000000, 0x00000000, 0x00000000⟩ /- MARG_STATUS -/]

/-- The registers of page 0x20 beyond the common header. -/
def page20Regs : List RegDesc :=
  [⟨0x040, 0x0, 1, 0x00000800, .folio, 0x80000000, 0x7F80FF00, 0x00000000, 0x00000000, 0x00000000⟩ /- HEAD_CTRL -/,
   ⟨0x044, 0x0, 1, 0x00000000, .folio, 0x00000000, 0xFFFFFFFF, 0x00000000, 0x00000000, 0x00000000⟩ /- HEAD_HTIM -/,
   ⟨0x048, 0x0, 1, 0x00000000, .folio, 0x00000000, 0xFFFFFFFF, 0x00000000, 0x00000000, 0x00000000⟩ /- HEAD_VTIM -/,
   ⟨0x04C, 0x0, 1, 0x00000000, .folio, 0x00000000, 0xFFFFFFFF, 0x00000000, 0x00000000, 0x00000000⟩ /- HEAD_SYNC -/,
   ⟨0x050, 0x0, 1, 0x00000000, .folio, 0x00000000, 0x007FFFFF, 0x00000000, 0x00000000, 0x00000000⟩ /- HEAD_PCLK -/,
   ⟨0x054, 0x0, 1, 0x43000800, .folio, 0x00000000, 0xFFFCFFFF, 0x00000000, 0x00000000, 0x00000000⟩ /- HEAD_OPT -/,
   ⟨0x080, 0x0, 1, 0x00000000, .folio, 0x00000000, 0xBFFFFFFF, 0x00000000, 0x00000000, 0x00000000⟩ /- HEAD_PLANE -/,
   ⟨0x084, 0x0, 1, 0x00000000, .page, 0x00000000, 0x00000000, 0x00000000, 0x00000007, 0x00000000⟩ /- HEAD_COMMIT -/,
   ⟨0x400, 0x0, 1, 0x00000000, .page, 0x00000000, 0x00000000, 0x00000000, 0x00000000, 0x00000000⟩ /- HEAD_STATUS -/,
   ⟨0x404, 0x0, 1, 0x00000000, .page, 0x00000000, 0x00000000, 0x00000000, 0x00000000, 0x00000000⟩ /- HEAD_POS -/]

/-- The registers of page 0x21 beyond the common header. -/
def page21Regs : List RegDesc :=
  [⟨0x040, 0x0, 1, 0x02000800, .folio, 0x80000000, 0x7F80FF00, 0x00000000, 0x00000000, 0x00000000⟩ /- HEAD_CTRL -/,
   ⟨0x044, 0x0, 1, 0x00000000, .folio, 0x00000000, 0xFFFFFFFF, 0x00000000, 0x00000000, 0x00000000⟩ /- HEAD_HTIM -/,
   ⟨0x048, 0x0, 1, 0x00000000, .folio, 0x00000000, 0xFFFFFFFF, 0x00000000, 0x00000000, 0x00000000⟩ /- HEAD_VTIM -/,
   ⟨0x04C, 0x0, 1, 0x00000000, .folio, 0x00000000, 0xFFFFFFFF, 0x00000000, 0x00000000, 0x00000000⟩ /- HEAD_SYNC -/,
   ⟨0x050, 0x0, 1, 0x00000000, .folio, 0x00000000, 0x007FFFFF, 0x00000000, 0x00000000, 0x00000000⟩ /- HEAD_PCLK -/,
   ⟨0x054, 0x0, 1, 0x43000800, .folio, 0x00000000, 0xFFFCFFFF, 0x00000000, 0x00000000, 0x00000000⟩ /- HEAD_OPT -/,
   ⟨0x080, 0x0, 1, 0x00000000, .folio, 0x00000000, 0xBFFFFFFF, 0x00000000, 0x00000000, 0x00000000⟩ /- HEAD_PLANE -/,
   ⟨0x084, 0x0, 1, 0x00000000, .page, 0x00000000, 0x00000000, 0x00000000, 0x00000007, 0x00000000⟩ /- HEAD_COMMIT -/,
   ⟨0x400, 0x0, 1, 0x00000000, .page, 0x00000000, 0x00000000, 0x00000000, 0x00000000, 0x00000000⟩ /- HEAD_STATUS -/,
   ⟨0x404, 0x0, 1, 0x00000000, .page, 0x00000000, 0x00000000, 0x00000000, 0x00000000, 0x00000000⟩ /- HEAD_POS -/]

/-- The registers of page 0x22 beyond the common header. -/
def page22Regs : List RegDesc :=
  [⟨0x040, 0x0, 1, 0x04000800, .folio, 0x80000000, 0x7F80FF00, 0x00000000, 0x00000000, 0x00000000⟩ /- HEAD_CTRL -/,
   ⟨0x044, 0x0, 1, 0x00000000, .folio, 0x00000000, 0xFFFFFFFF, 0x00000000, 0x00000000, 0x00000000⟩ /- HEAD_HTIM -/,
   ⟨0x048, 0x0, 1, 0x00000000, .folio, 0x00000000, 0xFFFFFFFF, 0x00000000, 0x00000000, 0x00000000⟩ /- HEAD_VTIM -/,
   ⟨0x04C, 0x0, 1, 0x00000000, .folio, 0x00000000, 0xFFFFFFFF, 0x00000000, 0x00000000, 0x00000000⟩ /- HEAD_SYNC -/,
   ⟨0x050, 0x0, 1, 0x00000000, .folio, 0x00000000, 0x007FFFFF, 0x00000000, 0x00000000, 0x00000000⟩ /- HEAD_PCLK -/,
   ⟨0x054, 0x0, 1, 0x43000800, .folio, 0x00000000, 0xFFFCFFFF, 0x00000000, 0x00000000, 0x00000000⟩ /- HEAD_OPT -/,
   ⟨0x080, 0x0, 1, 0x00000000, .folio, 0x00000000, 0xBFFFFFFF, 0x00000000, 0x00000000, 0x00000000⟩ /- HEAD_PLANE -/,
   ⟨0x084, 0x0, 1, 0x00000000, .page, 0x00000000, 0x00000000, 0x00000000, 0x00000007, 0x00000000⟩ /- HEAD_COMMIT -/,
   ⟨0x400, 0x0, 1, 0x00000000, .page, 0x00000000, 0x00000000, 0x00000000, 0x00000000, 0x00000000⟩ /- HEAD_STATUS -/,
   ⟨0x404, 0x0, 1, 0x00000000, .page, 0x00000000, 0x00000000, 0x00000000, 0x00000000, 0x00000000⟩ /- HEAD_POS -/]

/-- The registers of page 0x23 beyond the common header. -/
def page23Regs : List RegDesc :=
  [⟨0x040, 0x0, 1, 0x06000800, .folio, 0x80000000, 0x7F80FF00, 0x00000000, 0x00000000, 0x00000000⟩ /- HEAD_CTRL -/,
   ⟨0x044, 0x0, 1, 0x00000000, .folio, 0x00000000, 0xFFFFFFFF, 0x00000000, 0x00000000, 0x00000000⟩ /- HEAD_HTIM -/,
   ⟨0x048, 0x0, 1, 0x00000000, .folio, 0x00000000, 0xFFFFFFFF, 0x00000000, 0x00000000, 0x00000000⟩ /- HEAD_VTIM -/,
   ⟨0x04C, 0x0, 1, 0x00000000, .folio, 0x00000000, 0xFFFFFFFF, 0x00000000, 0x00000000, 0x00000000⟩ /- HEAD_SYNC -/,
   ⟨0x050, 0x0, 1, 0x00000000, .folio, 0x00000000, 0x007FFFFF, 0x00000000, 0x00000000, 0x00000000⟩ /- HEAD_PCLK -/,
   ⟨0x054, 0x0, 1, 0x43000800, .folio, 0x00000000, 0xFFFCFFFF, 0x00000000, 0x00000000, 0x00000000⟩ /- HEAD_OPT -/,
   ⟨0x080, 0x0, 1, 0x00000000, .folio, 0x00000000, 0xBFFFFFFF, 0x00000000, 0x00000000, 0x00000000⟩ /- HEAD_PLANE -/,
   ⟨0x084, 0x0, 1, 0x00000000, .page, 0x00000000, 0x00000000, 0x00000000, 0x00000007, 0x00000000⟩ /- HEAD_COMMIT -/,
   ⟨0x400, 0x0, 1, 0x00000000, .page, 0x00000000, 0x00000000, 0x00000000, 0x00000000, 0x00000000⟩ /- HEAD_STATUS -/,
   ⟨0x404, 0x0, 1, 0x00000000, .page, 0x00000000, 0x00000000, 0x00000000, 0x00000000, 0x00000000⟩ /- HEAD_POS -/]

/-- The registers of page 0x24 beyond the common header. -/
def page24Regs : List RegDesc :=
  [⟨0x040, 0x0, 1, 0xAD000000, .folio, 0x20000000, 0xCF800000, 0x00000000, 0x00400000, 0x00000000⟩ /- DPTX_CTRL -/,
   ⟨0x044, 0x0, 1, 0x00000000, .folio, 0x00000000, 0x3F3F3F3F, 0x00000000, 0x00000000, 0x00000000⟩ /- DPTX_SLOTS -/,
   ⟨0x048, 0x0, 1, 0x00000000, .page, 0x7F0FFFFF, 0x00000000, 0x00000000, 0x80000000, 0x00000000⟩ /- DPTX_AUX -/,
   ⟨0x400, 0x0, 1, 0x00000000, .page, 0x00000000, 0x00000000, 0x01400000, 0x00000000, 0x00000000⟩ /- DPTX_STATUS -/,
   ⟨0x800, 0x4, 4, 0x00000000, .page, 0xFFFFFFFF, 0x00000000, 0x00000000, 0x00000000, 0x00000000⟩ /- AUXBUF -/]

/-- The registers of page 0x25 beyond the common header. -/
def page25Regs : List RegDesc :=
  [⟨0x040, 0x0, 1, 0xAD000000, .folio, 0x20000000, 0xCF800000, 0x00000000, 0x00400000, 0x00000000⟩ /- DPTX_CTRL -/,
   ⟨0x044, 0x0, 1, 0x00000000, .folio, 0x00000000, 0x3F3F3F3F, 0x00000000, 0x00000000, 0x00000000⟩ /- DPTX_SLOTS -/,
   ⟨0x048, 0x0, 1, 0x00000000, .page, 0x7F0FFFFF, 0x00000000, 0x00000000, 0x80000000, 0x00000000⟩ /- DPTX_AUX -/,
   ⟨0x400, 0x0, 1, 0x00000000, .page, 0x00000000, 0x00000000, 0x01400000, 0x00000000, 0x00000000⟩ /- DPTX_STATUS -/,
   ⟨0x800, 0x4, 4, 0x00000000, .page, 0xFFFFFFFF, 0x00000000, 0x00000000, 0x00000000, 0x00000000⟩ /- AUXBUF -/]

/-- The registers of page 0x26 beyond the common header. -/
def page26Regs : List RegDesc :=
  [⟨0x040, 0x0, 1, 0xAD000000, .folio, 0x20000000, 0xCF800000, 0x00000000, 0x00400000, 0x00000000⟩ /- DPTX_CTRL -/,
   ⟨0x044, 0x0, 1, 0x00000000, .folio, 0x00000000, 0x3F3F3F3F, 0x00000000, 0x00000000, 0x00000000⟩ /- DPTX_SLOTS -/,
   ⟨0x048, 0x0, 1, 0x00000000, .page, 0x7F0FFFFF, 0x00000000, 0x00000000, 0x80000000, 0x00000000⟩ /- DPTX_AUX -/,
   ⟨0x400, 0x0, 1, 0x00000000, .page, 0x00000000, 0x00000000, 0x01400000, 0x00000000, 0x00000000⟩ /- DPTX_STATUS -/,
   ⟨0x800, 0x4, 4, 0x00000000, .page, 0xFFFFFFFF, 0x00000000, 0x00000000, 0x00000000, 0x00000000⟩ /- AUXBUF -/]

/-- The registers of page 0x27 beyond the common header. -/
def page27Regs : List RegDesc :=
  [⟨0x040, 0x0, 1, 0xAD000000, .folio, 0x20000000, 0xCF800000, 0x00000000, 0x00400000, 0x00000000⟩ /- DPTX_CTRL -/,
   ⟨0x044, 0x0, 1, 0x00000000, .folio, 0x00000000, 0x3F3F3F3F, 0x00000000, 0x00000000, 0x00000000⟩ /- DPTX_SLOTS -/,
   ⟨0x048, 0x0, 1, 0x00000000, .page, 0x7F0FFFFF, 0x00000000, 0x00000000, 0x80000000, 0x00000000⟩ /- DPTX_AUX -/,
   ⟨0x400, 0x0, 1, 0x00000000, .page, 0x00000000, 0x00000000, 0x01400000, 0x00000000, 0x00000000⟩ /- DPTX_STATUS -/,
   ⟨0x800, 0x4, 4, 0x00000000, .page, 0xFFFFFFFF, 0x00000000, 0x00000000, 0x00000000, 0x00000000⟩ /- AUXBUF -/]

/-- The registers of page 0x28 beyond the common header. -/
def page28Regs : List RegDesc :=
  [⟨0x040, 0x0, 1, 0x00000300, .folio, 0x00000000, 0x00000F00, 0x00000000, 0x00001000, 0x00000000⟩ /- HUB_CTRL -/,
   ⟨0x044, 0x0, 1, 0x00000000, .page, 0x80000000, 0x0000FFFF, 0x00000000, 0x00000000, 0x00000000⟩ /- HUB_TUN -/,
   ⟨0x400, 0x0, 1, 0x00000000, .page, 0x00000000, 0x00000000, 0x00000000, 0x00000000, 0x00000000⟩ /- HUB_STATUS -/]

/-- The registers of page 0x29 beyond the common header. -/
def page29Regs : List RegDesc :=
  [⟨0x040, 0x4, 6, 0x00000000, .folio, 0x00000000, 0x80000000, 0x00000000, 0x00000000, 0x00000000⟩ /- PORT_CTRL -/,
   ⟨0x400, 0x4, 6, 0x00000000, .page, 0x00000000, 0x00000000, 0x0D800000, 0x00000000, 0x00000000⟩ /- PORT_STATUS -/]

/-- The registers of page 0x2A beyond the common header. -/
def page2ARegs : List RegDesc :=
  [⟨0x400, 0x0, 1, 0x00000000, .por, 0x00000000, 0x00000000, 0x00000000, 0x00000000, 0x00000000⟩ /- SVCF_STATUS -/]

/-- The registers of page 0x2B beyond the common header. -/
def page2BRegs : List RegDesc :=
  [⟨0x040, 0x0, 1, 0x00000A00, .folio, 0x00000000, 0x0000FF01, 0x00000000, 0x00000004, 0x00000000⟩ /- PCIE_CTRL -/,
   ⟨0x044, 0x0, 1, 0x00000000, .page, 0x80000000, 0x000000FF, 0x00000000, 0x00000000, 0x00000000⟩ /- PCIE_TUN -/,
   ⟨0x400, 0x0, 1, 0x00000000, .page, 0x00000000, 0x00000000, 0x00000000, 0x00000000, 0x00000000⟩ /- PCIE_STATUS -/,
   ⟨0x404, 0x0, 1, 0x00000000, .page, 0x00000000, 0x00000000, 0x00000000, 0x00000000, 0x00000000⟩ /- PCIE_PF_DISCARD -/]

/-- The registers of page 0x2C beyond the common header. -/
def page2CRegs : List RegDesc :=
  [⟨0x040, 0x0, 1, 0x00000401, .folio, 0x00000000, 0x00FF0701, 0x00000000, 0x00000000, 0x00000000⟩ /- PEP_CTRL -/,
   ⟨0x400, 0x0, 1, 0x40000000, .page, 0x00000000, 0x00000000, 0x18000000, 0x00000000, 0x00000000⟩ /- PEP_STATUS -/]

/-- The registers of page 0x2D beyond the common header. -/
def page2DRegs : List RegDesc :=
  [⟨0x040, 0x0, 1, 0x00000401, .folio, 0x00000000, 0x00FF0701, 0x00000000, 0x00000000, 0x00000000⟩ /- PEP_CTRL -/,
   ⟨0x400, 0x0, 1, 0x40000000, .page, 0x00000000, 0x00000000, 0x18000000, 0x00000000, 0x00000000⟩ /- PEP_STATUS -/]

/-- The registers of page 0x2E beyond the common header. -/
def page2ERegs : List RegDesc :=
  [⟨0x040, 0x0, 1, 0x000005F2, .folio, 0x00000000, 0x3C001FFF, 0x00000000, 0x02000000, 0x00000000⟩ /- ENET_CTRL -/,
   ⟨0x044, 0x0, 1, 0x00000000, .page, 0x80000000, 0x00000000, 0x00000000, 0x00000000, 0x00000000⟩ /- ENET_TUN -/,
   ⟨0x048, 0x0, 1, 0x00000000, .page, 0xFFFFFFFF, 0x00000000, 0x00000000, 0x00000000, 0x00000000⟩ /- ENET_MAP0 -/,
   ⟨0x04C, 0x0, 1, 0x00000000, .page, 0xFFFFFFFF, 0x00000000, 0x00000000, 0x00000000, 0x00000000⟩ /- ENET_MAP1 -/,
   ⟨0x050, 0x0, 1, 0x00000000, .folio, 0x00000000, 0xFFFFFFFF, 0x00000000, 0x00000000, 0x00000000⟩ /- ENET_MAC_LO -/,
   ⟨0x054, 0x0, 1, 0x00000000, .folio, 0x00000000, 0x0000FFFF, 0x00000000, 0x00000000, 0x00000000⟩ /- ENET_MAC_HI -/,
   ⟨0x400, 0x0, 1, 0x00000000, .page, 0x00000000, 0x00000000, 0x00000000, 0x00000000, 0x00000000⟩ /- ENET_STATUS -/,
   ⟨0x404, 0x0, 1, 0x00000000, .page, 0x00000000, 0x00000000, 0x00000000, 0x00000000, 0x00000000⟩ /- ENET_CNT -/,
   ⟨0x408, 0x0, 1, 0x00000000, .page, 0x00000000, 0x00000000, 0x00000000, 0x00000000, 0x00000000⟩ /- ENET_RXERR -/]

/-- The registers of page 0x2F beyond the common header. -/
def page2FRegs : List RegDesc :=
  [⟨0x040, 0x0, 1, 0x001FA039, .folio, 0x00000000, 0x001FFF3F, 0x00000000, 0x00200000, 0x00000000⟩ /- EPHY_CTRL -/,
   ⟨0x400, 0x0, 1, 0x00000000, .page, 0x00000000, 0x00000000, 0x00000000, 0x00000000, 0x00000000⟩ /- EPHY_STATUS -/]

/-- The registers of page 0x30 beyond the common header. -/
def page30Regs : List RegDesc :=
  [⟨0x040, 0x0, 1, 0xFC000000, .folio, 0x00000000, 0xFC000000, 0x00000000, 0x02000000, 0x00000000⟩ /- PD_CTRL -/,
   ⟨0x044, 0x0, 1, 0xC08C0000, .folio, 0x00000000, 0xC0FF0000, 0x00000000, 0x00000000, 0x00000000⟩ /- PD_SRC_CFG -/,
   ⟨0x048, 0x0, 1, 0x00000000, .folio, 0x00000000, 0x00FF0000, 0x00000000, 0x00000000, 0x00000000⟩ /- PD_SNK_CFG -/,
   ⟨0x04C, 0x0, 1, 0x4160C4A2, .folio, 0x00000000, 0xFFFFFFFF, 0x00000000, 0x00000000, 0x00000000⟩ /- PD_IDENT0 -/,
   ⟨0x050, 0x0, 1, 0x00000000, .folio, 0x00000000, 0xFFFFFFFF, 0x00000000, 0x00000000, 0x00000000⟩ /- PD_IDENT1 -/,
   ⟨0x054, 0x0, 1, 0xF8000000, .folio, 0x00000000, 0xF8000000, 0x00000000, 0x00000000, 0x00000000⟩ /- PD_ALT_CFG -/,
   ⟨0x400, 0x0, 1, 0x00000000, .page, 0x00000000, 0x00000000, 0x00000000, 0x00000000, 0x00000000⟩ /- PD_STATUS -/,
   ⟨0x404, 0x0, 1, 0x00000000, .page, 0x00000000, 0x00000000, 0x00000000, 0x00000000, 0x00000000⟩ /- PD_CONTRACT -/,
   ⟨0x408, 0x4, 4, 0x00000000, .page, 0x00000000, 0x00000000, 0x00000000, 0x00000000, 0x00000000⟩ /- PD_CBL -/,
   ⟨0x418, 0x0, 1, 0x00000000, .page, 0x00000000, 0x00000000, 0x00000000, 0x00000000, 0x00000000⟩ /- PD_CNT -/]

/-- The registers of page 0x31 beyond the common header. -/
def page31Regs : List RegDesc :=
  [⟨0x040, 0x0, 1, 0x80000000, .folio, 0x00000000, 0x80000000, 0x00000000, 0x02000000, 0x00000000⟩ /- PD_CTRL -/,
   ⟨0x044, 0x0, 1, 0x003C0000, .folio, 0x00000000, 0x00FF0000, 0x00000000, 0x00000000, 0x00000000⟩ /- PD_SRC_CFG -/,
   ⟨0x04C, 0x0, 1, 0x4160C4A2, .folio, 0x00000000, 0xFFFFFFFF, 0x00000000, 0x00000000, 0x00000000⟩ /- PD_IDENT0 -/,
   ⟨0x050, 0x0, 1, 0x00000000, .folio, 0x00000000, 0xFFFFFFFF, 0x00000000, 0x00000000, 0x00000000⟩ /- PD_IDENT1 -/,
   ⟨0x054, 0x0, 1, 0x80000000, .folio, 0x00000000, 0x80000000, 0x00000000, 0x00000000, 0x00000000⟩ /- PD_ALT_CFG -/,
   ⟨0x400, 0x0, 1, 0x00000000, .page, 0x00000000, 0x00000000, 0x00000000, 0x00000000, 0x00000000⟩ /- PD_STATUS -/,
   ⟨0x404, 0x0, 1, 0x00000000, .page, 0x00000000, 0x00000000, 0x00000000, 0x00000000, 0x00000000⟩ /- PD_CONTRACT -/,
   ⟨0x408, 0x4, 4, 0x00000000, .page, 0x00000000, 0x00000000, 0x00000000, 0x00000000, 0x00000000⟩ /- PD_CBL -/,
   ⟨0x418, 0x0, 1, 0x00000000, .page, 0x00000000, 0x00000000, 0x00000000, 0x00000000, 0x00000000⟩ /- PD_CNT -/]

/-- The registers of page 0x32 beyond the common header. -/
def page32Regs : List RegDesc :=
  [⟨0x040, 0x0, 1, 0x80000000, .folio, 0x00000000, 0x80000000, 0x00000000, 0x02000000, 0x00000000⟩ /- PD_CTRL -/,
   ⟨0x048, 0x0, 1, 0x80002D00, .folio, 0x00000000, 0xC0FFFF00, 0x00000000, 0x00000000, 0x00000000⟩ /- PD_SNK_CFG -/,
   ⟨0x04C, 0x0, 1, 0x4160C4A2, .folio, 0x00000000, 0xFFFFFFFF, 0x00000000, 0x00000000, 0x00000000⟩ /- PD_IDENT0 -/,
   ⟨0x050, 0x0, 1, 0x00000000, .folio, 0x00000000, 0xFFFFFFFF, 0x00000000, 0x00000000, 0x00000000⟩ /- PD_IDENT1 -/,
   ⟨0x400, 0x0, 1, 0x00000000, .page, 0x00000000, 0x00000000, 0x00000000, 0x00000000, 0x00000000⟩ /- PD_STATUS -/,
   ⟨0x404, 0x0, 1, 0x00000000, .page, 0x00000000, 0x00000000, 0x00000000, 0x00000000, 0x00000000⟩ /- PD_CONTRACT -/,
   ⟨0x418, 0x0, 1, 0x00000000, .page, 0x00000000, 0x00000000, 0x00000000, 0x00000000, 0x00000000⟩ /- PD_CNT -/]

/-- The registers of page 0x33 beyond the common header. -/
def page33Regs : List RegDesc :=
  [⟨0x040, 0x0, 1, 0x00000A00, .folio, 0x00000000, 0x0000FF00, 0x00000000, 0x00000001, 0x00000000⟩ /- PP_CTRL -/,
   ⟨0x400, 0x0, 1, 0x00000000, .page, 0x00000000, 0x00000000, 0x00000000, 0x00000000, 0x00000000⟩ /- PP_STATUS -/,
   ⟨0x404, 0x0, 1, 0x00000000, .page, 0x00000000, 0x00000000, 0x00000000, 0x00000000, 0x00000000⟩ /- PP_HELD -/,
   ⟨0x408, 0x0, 1, 0x00000000, .page, 0x00000000, 0x00000000, 0x00000000, 0x00000000, 0x00000000⟩ /- PP_LEVEL -/,
   ⟨0x40C, 0x0, 1, 0x00000000, .page, 0x00000000, 0x00000000, 0x00000000, 0x00000000, 0x00000000⟩ /- PP_CNT -/]

/-- The registers of page 0x34 beyond the common header. -/
def page34Regs : List RegDesc :=
  [⟨0x800, 0x4, 10, 0x00000000, .warm, 0x00000000, 0x00000000, 0x00000000, 0x00000000, 0x00000000⟩ /- VCNV_TBL -/]

/-- The registers of page 0x35 beyond the common header. -/
def page35Regs : List RegDesc :=
  [⟨0x040, 0x0, 1, 0x00000801, .folio, 0x00000000, 0x80007F01, 0x00000000, 0x00000000, 0x00000000⟩ /- MUNI_CTRL -/,
   ⟨0x400, 0x0, 1, 0x00000000, .warm, 0x00000000, 0x00000000, 0x00000000, 0x00000000, 0x00000000⟩ /- MUNI_STATUS -/,
   ⟨0x404, 0x0, 1, 0x00000000, .page, 0x00000000, 0x00000000, 0x00000000, 0x00000000, 0x00000000⟩ /- MUNI_CNT -/,
   ⟨0x800, 0x4, 256, 0x00000000, .page, 0x00000000, 0x00000000, 0x00000000, 0x00000000, 0x00000000⟩ /- SLOT_TBL -/]

/-- The registers of page 0x36 beyond the common header. -/
def page36Regs : List RegDesc :=
  [⟨0x040, 0x0, 1, 0x00000000, .page, 0x7F3F7F00, 0x00000000, 0x00000000, 0x80000000, 0x00000000⟩ /- KD_CMD -/,
   ⟨0x044, 0x0, 1, 0x00000000, .page, 0x0000FFFF, 0x00000000, 0x00000000, 0x00000000, 0x00000000⟩ /- KD_LEN -/,
   ⟨0x400, 0x0, 1, 0x00000000, .page, 0x00000000, 0x00000000, 0x00000000, 0x00000000, 0x00000000⟩ /- KD_STATUS -/,
   ⟨0x800, 0x4, 32, 0x00000000, .page, 0x00000000, 0x00000000, 0x00000000, 0x00000000, 0xFFFFFFFF⟩ /- KD_IN -/,
   ⟨0x900, 0x4, 48, 0x00000000, .page, 0x00000000, 0x00000000, 0x00000000, 0x00000000, 0x00000000⟩ /- KD_OUT -/,
   ⟨0xC00, 0x4, 256, 0x00000000, .page, 0x7F000000, 0x00000000, 0x00000000, 0x00000000, 0x00000000⟩ /- FLOW_KEY -/]

/-- The registers of page 0x37 beyond the common header. -/
def page37Regs : List RegDesc :=
  [⟨0x040, 0x0, 1, 0x00000000, .page, 0x00000000, 0x00000000, 0x00000000, 0xC0000000, 0x00000000⟩ /- ATST_CTRL -/,
   ⟨0x044, 0x4, 8, 0x00000000, .page, 0xFFFFFFFF, 0x00000000, 0x00000000, 0x00000000, 0x00000000⟩ /- ATST_NONCE -/,
   ⟨0x064, 0x0, 1, 0x00000000, .page, 0xFFFFFFFF, 0x00000000, 0x00000000, 0x00000000, 0x00000000⟩ /- ATST_CERT_SRC -/,
   ⟨0x400, 0x0, 1, 0x00000000, .page, 0x00000000, 0x00000000, 0x00000000, 0x00000000, 0x00000000⟩ /- ATST_STATUS -/,
   ⟨0x480, 0x4, 24, 0x00000000, .warm, 0x00000000, 0x00000000, 0x00000000, 0x00000000, 0x00000000⟩ /- ATST_IDPUB -/,
   ⟨0x600, 0x4, 86, 0x00000000, .page, 0x00000000, 0x00000000, 0x00000000, 0x00000000, 0x00000000⟩ /- ATST_STMT -/,
   ⟨0x800, 0x4, 512, 0x00000000, .por, 0x00000000, 0x00000000, 0x00000000, 0x00000000, 0x00000000⟩ /- ATST_CERT -/]

/-- The registers of page 0x38 beyond the common header. -/
def page38Regs : List RegDesc :=
  [⟨0x040, 0x0, 1, 0x00000000, .page, 0x70FF0000, 0x00000000, 0x00000000, 0x80000000, 0x00000000⟩ /- LC_CTRL -/,
   ⟨0x400, 0x0, 1, 0x00000000, .por, 0x00000000, 0x00000000, 0x00000000, 0x00000000, 0x00000000⟩ /- LC_STATUS -/,
   ⟨0x800, 0x4, 12, 0x00000000, .page, 0x00000000, 0x00000000, 0x00000000, 0x00000000, 0xFFFFFFFF⟩ /- LC_SEED -/]

/-- The registers of page 0x39 beyond the common header. -/
def page39Regs : List RegDesc :=
  [⟨0x400, 0x0, 1, 0x00000000, .warm, 0x00000000, 0x00000000, 0x00000000, 0x00000000, 0x00000000⟩ /- STAK_STATUS -/,
   ⟨0x404, 0x0, 1, 0x00000000, .page, 0x00000000, 0x00000000, 0x00000000, 0x00000000, 0x00000000⟩ /- STAK_ECC -/]

/-- The registers of page 0x3A beyond the common header. -/
def page3ARegs : List RegDesc :=
  [⟨0x040, 0x0, 1, 0x00000018, .folio, 0x00000000, 0x000000FF, 0x00000000, 0x00000100, 0x00000000⟩ /- SCRB_CTRL -/,
   ⟨0x400, 0x0, 1, 0x00000000, .page, 0x00000000, 0x00000000, 0x00000000, 0x00000000, 0x00000000⟩ /- SCRB_STATUS -/,
   ⟨0x404, 0x0, 1, 0x00000000, .page, 0x00000000, 0x00000000, 0x00000000, 0x00000000, 0x00000000⟩ /- SCRB_POS -/]

/-- The registers of page 0x3B beyond the common header. -/
def page3BRegs : List RegDesc :=
  [⟨0x040, 0x0, 1, 0x0000000A, .folio, 0x00000000, 0x000000FF, 0x00000000, 0x00000000, 0x00000000⟩ /- MON_CTRL -/,
   ⟨0x400, 0x0, 1, 0x00000000, .warm, 0x00000000, 0x00000000, 0x00000000, 0x00000000, 0x00000000⟩ /- MON_STATUS -/,
   ⟨0x800, 0x4, 9, 0x00000000, .warm, 0x00000000, 0x00000000, 0x00000000, 0x00000000, 0x00000000⟩ /- MON_TBL -/]

/-- The registers of page 0x3C beyond the common header. -/
def page3CRegs : List RegDesc :=
  [⟨0x400, 0x0, 1, 0x00000000, .page, 0x00000000, 0x00000000, 0x00000000, 0x00000000, 0x00000000⟩ /- SVCP_STATUS -/]

/-- The registers of page 0x3D beyond the common header. -/
def page3DRegs : List RegDesc :=
  [⟨0x040, 0x0, 1, 0x00000000, .page, 0xFFFFFFFF, 0x00000000, 0x00000000, 0x00000000, 0x00000000⟩ /- FTST_DETAIL -/,
   ⟨0x400, 0x0, 1, 0x00000000, .warm, 0x00000000, 0x00000000, 0x00000000, 0x00000000, 0x00000000⟩ /- FTST_STATUS -/]

/-- The registers of a page beyond the common header (R431); a page not listed has none. -/
def pageRegs (p : Nat) : List RegDesc :=
  match p with
  | 0x00 => page00Regs
  | 0x01 => page01Regs
  | 0x02 => page02Regs
  | 0x03 => page03Regs
  | 0x04 => page04Regs
  | 0x05 => page05Regs
  | 0x06 => page06Regs
  | 0x07 => page07Regs
  | 0x08 => page08Regs
  | 0x09 => page09Regs
  | 0x0A => page0ARegs
  | 0x0B => page0BRegs
  | 0x0C => page0CRegs
  | 0x0D => page0DRegs
  | 0x0E => page0ERegs
  | 0x0F => page0FRegs
  | 0x10 => page10Regs
  | 0x11 => page11Regs
  | 0x12 => page12Regs
  | 0x13 => page13Regs
  | 0x14 => page14Regs
  | 0x15 => page15Regs
  | 0x16 => page16Regs
  | 0x17 => page17Regs
  | 0x18 => page18Regs
  | 0x19 => page19Regs
  | 0x1A => page1ARegs
  | 0x1B => page1BRegs
  | 0x1C => page1CRegs
  | 0x1D => page1DRegs
  | 0x1E => page1ERegs
  | 0x1F => page1FRegs
  | 0x20 => page20Regs
  | 0x21 => page21Regs
  | 0x22 => page22Regs
  | 0x23 => page23Regs
  | 0x24 => page24Regs
  | 0x25 => page25Regs
  | 0x26 => page26Regs
  | 0x27 => page27Regs
  | 0x28 => page28Regs
  | 0x29 => page29Regs
  | 0x2A => page2ARegs
  | 0x2B => page2BRegs
  | 0x2C => page2CRegs
  | 0x2D => page2DRegs
  | 0x2E => page2ERegs
  | 0x2F => page2FRegs
  | 0x30 => page30Regs
  | 0x31 => page31Regs
  | 0x32 => page32Regs
  | 0x33 => page33Regs
  | 0x34 => page34Regs
  | 0x35 => page35Regs
  | 0x36 => page36Regs
  | 0x37 => page37Regs
  | 0x38 => page38Regs
  | 0x39 => page39Regs
  | 0x3A => page3ARegs
  | 0x3B => page3BRegs
  | 0x3C => page3CRegs
  | 0x3D => page3DRegs
  | _ => []

/-- PAGE_ID of each page (R431): block code and instance; the reserved pages 0x3E and 0x3F read 0. -/
def pageId (p : Nat) : Nat :=
  match p with
  | 0x00 => 0x474C0000
  | 0x01 => 0x464F0000
  | 0x02 => 0x50530000
  | 0x03 => 0x444D0000
  | 0x04 => 0x45560000
  | 0x05 => 0x4C440000
  | 0x06 => 0x53410000
  | 0x07 => 0x43500000
  | 0x08 => 0x52540000
  | 0x09 => 0x53420000
  | 0x0A => 0x43490000
  | 0x0B => 0x464C0000
  | 0x0C => 0x464C0100
  | 0x0D => 0x464C0200
  | 0x0E => 0x464C0300
  | 0x0F => 0x4C4D0000
  | 0x10 => 0x4C410000
  | 0x11 => 0x4C410100
  | 0x12 => 0x4C410200
  | 0x13 => 0x4C410300
  | 0x14 => 0x4C430000
  | 0x15 => 0x4C430100
  | 0x16 => 0x4C430200
  | 0x17 => 0x4C430300
  | 0x18 => 0x4B550000
  | 0x19 => 0x4B430000
  | 0x1A => 0x42520000
  | 0x1B => 0x42570000
  | 0x1C => 0x43530000
  | 0x1D => 0x53460000
  | 0x1E => 0x53440000
  | 0x1F => 0x4D470000
  | 0x20 => 0x48440000
  | 0x21 => 0x48440100
  | 0x22 => 0x48440200
  | 0x23 => 0x48440300
  | 0x24 => 0x44540000
  | 0x25 => 0x44540100
  | 0x26 => 0x44540200
  | 0x27 => 0x44540300
  | 0x28 => 0x48420000
  | 0x29 => 0x48500000
  | 0x2A => 0x53560000
  | 0x2B => 0x50430000
  | 0x2C => 0x50450000
  | 0x2D => 0x50450100
  | 0x2E => 0x454E0000
  | 0x2F => 0x45500000
  | 0x30 => 0x50440000
  | 0x31 => 0x50440100
  | 0x32 => 0x50440200
  | 0x33 => 0x50500000
  | 0x34 => 0x56430000
  | 0x35 => 0x4D550000
  | 0x36 => 0x4B440000
  | 0x37 => 0x41540000
  | 0x38 => 0x4C430000
  | 0x39 => 0x53540000
  | 0x3A => 0x53430000
  | 0x3B => 0x4D4E0000
  | 0x3C => 0x53500000
  | 0x3D => 0x46540000
  | _ => 0

/-- An event source (R396): owning page and bit (R422), class code (R399), permitted reactions as a bit set by code and
default reaction (R395). Class 0 is a reserved source. -/
structure EvSrc where
  page : Nat
  bit : Nat
  cls : Nat
  permit : Nat
  react : Nat
  deriving DecidableEq, Repr

/-- The source table: EV000–EV255 by number (R395, R396, R397, R422 and the event tables of the chapters). -/
def evSource (s : Nat) : EvSrc :=
  match s with
  | 0 => ⟨0x00, 0, 1, 0b000111, 1⟩
  | 1 => ⟨0x00, 1, 3, 0b100110, 2⟩
  | 2 => ⟨0x06, 0, 3, 0b100110, 2⟩
  | 3 => ⟨0x06, 1, 5, 0b100000, 5⟩
  | 4 => ⟨0x06, 2, 5, 0b100000, 5⟩
  | 5 => ⟨0x01, 0, 3, 0b100110, 2⟩
  | 6 => ⟨0x01, 1, 2, 0b000111, 1⟩
  | 7 => ⟨0x01, 2, 3, 0b100110, 2⟩
  | 8 => ⟨0x06, 3, 5, 0b100000, 5⟩
  | 9 => ⟨0x06, 4, 5, 0b100000, 5⟩
  | 10 => ⟨0x3D, 0, 1, 0b000111, 1⟩
  | 13 => ⟨0x06, 5, 5, 0b100000, 5⟩
  | 16 => ⟨0x02, 0, 1, 0b000111, 1⟩
  | 17 => ⟨0x02, 1, 1, 0b000111, 1⟩
  | 18 => ⟨0x02, 2, 1, 0b000111, 1⟩
  | 19 => ⟨0x02, 3, 1, 0b000111, 1⟩
  | 32 => ⟨0x18, 0, 3, 0b100110, 2⟩
  | 33 => ⟨0x18, 1, 3, 0b100110, 2⟩
  | 34 => ⟨0x18, 2, 3, 0b100110, 2⟩
  | 35 => ⟨0x18, 3, 3, 0b100110, 2⟩
  | 36 => ⟨0x19, 0, 3, 0b100110, 2⟩
  | 37 => ⟨0x19, 1, 3, 0b100110, 2⟩
  | 38 => ⟨0x19, 2, 3, 0b100110, 2⟩
  | 39 => ⟨0x19, 3, 3, 0b100110, 2⟩
  | 40 => ⟨0x18, 4, 3, 0b100110, 2⟩
  | 41 => ⟨0x18, 5, 3, 0b100110, 2⟩
  | 42 => ⟨0x18, 6, 3, 0b100110, 2⟩
  | 43 => ⟨0x18, 7, 3, 0b100110, 2⟩
  | 44 => ⟨0x19, 4, 3, 0b100110, 2⟩
  | 45 => ⟨0x19, 5, 3, 0b100110, 2⟩
  | 46 => ⟨0x19, 6, 3, 0b100110, 2⟩
  | 47 => ⟨0x19, 7, 3, 0b100110, 2⟩
  | 48 => ⟨0x18, 8, 2, 0b000111, 1⟩
  | 49 => ⟨0x19, 8, 2, 0b000111, 1⟩
  | 50 => ⟨0x18, 9, 3, 0b100110, 2⟩
  | 51 => ⟨0x18, 10, 4, 0b100100, 2⟩
  | 52 => ⟨0x18, 11, 2, 0b000111, 1⟩
  | 53 => ⟨0x18, 12, 3, 0b100110, 2⟩
  | 54 => ⟨0x18, 13, 3, 0b100110, 2⟩
  | 55 => ⟨0x18, 14, 1, 0b000111, 1⟩
  | 56 => ⟨0x19, 9, 3, 0b100110, 2⟩
  | 57 => ⟨0x19, 10, 4, 0b100100, 2⟩
  | 58 => ⟨0x19, 11, 2, 0b000111, 1⟩
  | 59 => ⟨0x19, 12, 3, 0b100110, 2⟩
  | 60 => ⟨0x19, 13, 3, 0b100110, 2⟩
  | 61 => ⟨0x19, 14, 1, 0b000111, 1⟩
  | 62 => ⟨0x18, 15, 3, 0b100110, 2⟩
  | 63 => ⟨0x19, 15, 3, 0b100110, 2⟩
  | 64 => ⟨0x0A, 0, 3, 0b100110, 2⟩
  | 65 => ⟨0x0A, 1, 3, 0b100110, 2⟩
  | 66 => ⟨0x0A, 2, 3, 0b100110, 2⟩
  | 67 => ⟨0x0A, 3, 1, 0b000111, 1⟩
  | 68 => ⟨0x0A, 4, 2, 0b000111, 1⟩
  | 69 => ⟨0x0A, 5, 4, 0b100100, 2⟩
  | 70 => ⟨0x0A, 6, 1, 0b000111, 1⟩
  | 71 => ⟨0x08, 0, 3, 0b100110, 2⟩
  | 72 => ⟨0x08, 1, 5, 0b100000, 5⟩
  | 73 => ⟨0x08, 2, 2, 0b001110, 3⟩
  | 74 => ⟨0x08, 3, 4, 0b100100, 2⟩
  | 75 => ⟨0x08, 4, 4, 0b110000, 4⟩
  | 76 => ⟨0x08, 5, 4, 0b110000, 4⟩
  | 77 => ⟨0x08, 6, 4, 0b110000, 4⟩
  | 78 => ⟨0x08, 7, 4, 0b110000, 4⟩
  | 96 => ⟨0x1A, 0, 3, 0b100110, 2⟩
  | 97 => ⟨0x1A, 1, 3, 0b100110, 2⟩
  | 98 => ⟨0x1A, 2, 1, 0b000111, 1⟩
  | 99 => ⟨0x1A, 3, 1, 0b000111, 1⟩
  | 100 => ⟨0x1A, 4, 3, 0b100110, 2⟩
  | 101 => ⟨0x1A, 5, 1, 0b000111, 1⟩
  | 104 => ⟨0x1C, 0, 1, 0b000111, 1⟩
  | 105 => ⟨0x1C, 1, 3, 0b100110, 2⟩
  | 106 => ⟨0x1C, 2, 3, 0b100110, 2⟩
  | 107 => ⟨0x1C, 3, 1, 0b000111, 1⟩
  | 128 => ⟨0x1D, 0, 3, 0b100110, 2⟩
  | 129 => ⟨0x1D, 1, 1, 0b000111, 1⟩
  | 130 => ⟨0x1D, 2, 1, 0b000111, 1⟩
  | 131 => ⟨0x1D, 3, 3, 0b100110, 2⟩
  | 132 => ⟨0x1D, 4, 3, 0b100110, 2⟩
  | 133 => ⟨0x1D, 5, 3, 0b100110, 2⟩
  | 134 => ⟨0x1D, 6, 1, 0b000111, 1⟩
  | 135 => ⟨0x1D, 7, 1, 0b000111, 1⟩
  | 136 => ⟨0x1D, 8, 3, 0b100110, 2⟩
  | 137 => ⟨0x1D, 9, 3, 0b101110, 3⟩
  | 138 => ⟨0x1D, 10, 1, 0b000111, 1⟩
  | 139 => ⟨0x1D, 11, 1, 0b000111, 1⟩
  | 140 => ⟨0x1D, 12, 3, 0b100110, 2⟩
  | 141 => ⟨0x1D, 13, 3, 0b100110, 2⟩
  | 160 => ⟨0x28, 0, 3, 0b100110, 2⟩
  | 161 => ⟨0x28, 1, 3, 0b100110, 2⟩
  | 162 => ⟨0x28, 2, 3, 0b100110, 2⟩
  | 163 => ⟨0x28, 3, 1, 0b000111, 1⟩
  | 164 => ⟨0x28, 4, 1, 0b000111, 1⟩
  | 165 => ⟨0x28, 5, 3, 0b100110, 2⟩
  | 166 => ⟨0x2B, 0, 3, 0b100110, 2⟩
  | 167 => ⟨0x2B, 1, 3, 0b100110, 2⟩
  | 168 => ⟨0x2B, 2, 1, 0b000111, 1⟩
  | 169 => ⟨0x2E, 0, 1, 0b000111, 1⟩
  | 192 => ⟨0x33, 0, 1, 0b000111, 1⟩
  | 193 => ⟨0x33, 1, 1, 0b000111, 1⟩
  | 194 => ⟨0x33, 2, 1, 0b000111, 1⟩
  | 195 => ⟨0x33, 3, 3, 0b100110, 2⟩
  | 196 => ⟨0x33, 4, 1, 0b000111, 1⟩
  | 197 => ⟨0x33, 5, 3, 0b100110, 2⟩
  | 198 => ⟨0x33, 6, 3, 0b100110, 2⟩
  | 199 => ⟨0x33, 7, 1, 0b000111, 1⟩
  | 200 => ⟨0x33, 8, 3, 0b100110, 2⟩
  | 201 => ⟨0x33, 9, 3, 0b100110, 2⟩
  | 202 => ⟨0x33, 10, 3, 0b100110, 2⟩
  | 203 => ⟨0x33, 11, 3, 0b100110, 2⟩
  | 204 => ⟨0x33, 12, 3, 0b100110, 2⟩
  | 205 => ⟨0x33, 13, 3, 0b100110, 2⟩
  | 206 => ⟨0x33, 14, 4, 0b100100, 2⟩
  | 207 => ⟨0x33, 15, 4, 0b100100, 2⟩
  | 208 => ⟨0x33, 16, 1, 0b000111, 1⟩
  | 224 => ⟨0x35, 0, 4, 0b100100, 2⟩
  | 225 => ⟨0x35, 1, 3, 0b100110, 2⟩
  | 226 => ⟨0x35, 2, 3, 0b101110, 3⟩
  | 227 => ⟨0x35, 3, 3, 0b100110, 2⟩
  | 228 => ⟨0x35, 4, 1, 0b000111, 1⟩
  | 229 => ⟨0x35, 5, 3, 0b100110, 2⟩
  | 230 => ⟨0x35, 6, 1, 0b000111, 1⟩
  | 231 => ⟨0x35, 7, 1, 0b000111, 1⟩
  | 232 => ⟨0x35, 8, 1, 0b000111, 1⟩
  | 233 => ⟨0x35, 9, 3, 0b100110, 2⟩
  | 234 => ⟨0x35, 10, 3, 0b100110, 2⟩
  | 235 => ⟨0x35, 11, 3, 0b100110, 2⟩
  | 236 => ⟨0x07, 0, 2, 0b000111, 1⟩
  | 237 => ⟨0x07, 1, 3, 0b100110, 2⟩
  | 238 => ⟨0x07, 2, 4, 0b100100, 2⟩
  | 239 => ⟨0x07, 3, 3, 0b100110, 2⟩
  | 240 => ⟨0x07, 4, 4, 0b100100, 2⟩
  | 241 => ⟨0x07, 5, 3, 0b100110, 2⟩
  | 242 => ⟨0x07, 6, 4, 0b101100, 3⟩
  | 243 => ⟨0x05, 0, 1, 0b000111, 1⟩
  | 244 => ⟨0x05, 1, 1, 0b000111, 1⟩
  | 245 => ⟨0x04, 0, 1, 0b000111, 1⟩
  | _ => ⟨0, 0, 0, 0, 0⟩

/-- How many sources a page carries (R422). -/
def pageSourceCount (p : Nat) : Nat :=
  match p with
  | 0x00 => 2
  | 0x01 => 3
  | 0x02 => 4
  | 0x04 => 1
  | 0x05 => 2
  | 0x06 => 6
  | 0x07 => 7
  | 0x08 => 8
  | 0x0A => 7
  | 0x18 => 16
  | 0x19 => 16
  | 0x1A => 6
  | 0x1C => 4
  | 0x1D => 14
  | 0x28 => 6
  | 0x2B => 3
  | 0x2E => 1
  | 0x33 => 17
  | 0x35 => 12
  | 0x3D => 1
  | _ => 0

/-- The page's sources in ascending source number: bit n of the page's event registers is the n-th (R422). -/
def pageSources (p : Nat) : List Nat :=
  match p with
  | 0x00 => [0, 1]
  | 0x01 => [5, 6, 7]
  | 0x02 => [16, 17, 18, 19]
  | 0x04 => [245]
  | 0x05 => [243, 244]
  | 0x06 => [2, 3, 4, 8, 9, 13]
  | 0x07 => [236, 237, 238, 239, 240, 241, 242]
  | 0x08 => [71, 72, 73, 74, 75, 76, 77, 78]
  | 0x0A => [64, 65, 66, 67, 68, 69, 70]
  | 0x18 => [32, 33, 34, 35, 40, 41, 42, 43, 48, 50, 51, 52, 53, 54, 55, 62]
  | 0x19 => [36, 37, 38, 39, 44, 45, 46, 47, 49, 56, 57, 58, 59, 60, 61, 63]
  | 0x1A => [96, 97, 98, 99, 100, 101]
  | 0x1C => [104, 105, 106, 107]
  | 0x1D => [128, 129, 130, 131, 132, 133, 134, 135, 136, 137, 138, 139, 140, 141]
  | 0x28 => [160, 161, 162, 163, 164, 165]
  | 0x2B => [166, 167, 168]
  | 0x2E => [169]
  | 0x33 => [192, 193, 194, 195, 196, 197, 198, 199, 200, 201, 202, 203, 204, 205, 206, 207, 208]
  | 0x35 => [224, 225, 226, 227, 228, 229, 230, 231, 232, 233, 234, 235]
  | 0x3D => [10]
  | _ => []

/-- The pages absent from the MH4142 (R4). -/
def absentPages : List Nat :=
  [0x22, 0x23, 0x26, 0x27, 0x14, 0x15, 0x16, 0x17, 0x19, 0x1C, 0x2D, 0x31]

/-- Whether a part has a page (R4, R416). -/
def pagePresent (part : Part) (p : Nat) : Bool :=
  p < 0x3E && !(part == .mh4142 && absentPages.contains p)

/-- The row of the map that describes a management address beyond the common header, if any. -/
def regDesc (a : Nat) : Option RegDesc := (pageRegs (a / 0x1000)).find? fun d => d.covers (a % 0x1000)

/-- EVT_SRC of a source at reset (R395, R396, R415): owning page, bit, class, permitted and default reaction. -/
def evtSrcReset (s : Nat) : Nat :=
  let e := evSource s
  e.page * 2 ^ 24 + e.bit * 2 ^ 19 + e.cls * 2 ^ 16 + e.permit * 2 ^ 10 + e.react

/-- Registers whose reset value differs from the one the map gives: those fixed by the part (R1, R281, R314, R423), the
fixed entries of flows 0–2 (R140) and the event source words. -/
def resetSpecial (part : Part) (a : Nat) : Option Nat :=
  if a = 0xB800 then some 0x83800000
  else if a = 0xB820 then some 0x93D02000
  else if a = 0xB840 then some 0x93D82000
  else if 0x4800 ≤ a && a < 0x4C00 then some (evtSrcReset ((a - 0x4800) / 4))
  else if part == .mh4142 then
    if a = 0x40 then some 0x41424EB0
    else if a = 0x2F040 then some 0x0007A039
    else if a = 0x3004C || a = 0x3104C || a = 0x3204C then some 0x4142C4A2
    else none
  else none

/-- The reset value of the register at a management address: the spec's value for every register (R9); 0 where no register
lies. -/
def regReset (part : Part) (a : Nat) : Word :=
  let p := a / 0x1000
  let o := a % 0x1000
  if !pagePresent part p then 0
  else if o = 0x000 then BitVec.ofNat 32 (pageId p)
  else if o = 0x004 then 1
  else if o = 0x018 then BitVec.ofNat 32 (2 ^ pageSourceCount p - 1)
  else if o < 0x040 then 0
  else match resetSpecial part a with
    | some v => BitVec.ofNat 32 v
    | none => match regDesc a with
      | some d => BitVec.ofNat 32 d.reset
      | none => 0

/-- The reset domain of the register at a management address (R9, R418). -/
def regDomain (a : Nat) : Domain :=
  let o := a % 0x1000
  if o = 0x000 then .por
  else if o = 0x004 || o = 0x008 || o = 0x014 then .warm
  else if o = 0x018 then .folio
  else if o < 0x040 then .page
  else match regDesc a with
    | some d => d.dom
    | none => .page

end Sys2Proof.Machine
end

