-- ==== Sys2Proof/Machine/State.lean ====
section
/-! DEFINITION. The state of the block as plain data: every register, every queue, buffer, counter and mode the spec gives it,
and the commands that wait. -/

namespace Sys2Proof.Machine

/-- Why the machine stops. No command of this model faults: every access the spec refuses is answered as the spec says
(R27, R173), so the type has the one name below and no meaning raises it. Safe. -/
inductive Fault where
  | none
  deriving DecidableEq, Repr

/-- Why the model gives no answer. `notModelled` is raised by an arm of `exec` whose command has no meaning yet. Safe: it
stops where the device goes on. -/
inductive Refusal where
  | notModelled (mnemonic : String)
  deriving DecidableEq, Repr

/-! ## Start-up, supplies and resets (R53–R61) -/

/-- A supply whose rise is a ramp under R55 or R328. -/
inductive Supply where
  | vcore | vstk
  | ds (p : Nat)
  | dp (h : Nat)
  | m2 (p : Nat)
  | domain (d : Nat)
  deriving DecidableEq, Repr

/-- Start-up progress. `step` is the last step of R54 begun, 0 before power good; `kind` is the reset being run, with the
codes of EV000 (R397); `rampNow` is the ramp in progress, `rampWait` those waiting for it in order, `stagger` the enables
that fall due one after another (R55); `warm` holds the path of a warm reset that is waiting (R60); `warmRun` is 1 from the
start of a warm reset until step 5 ends. -/
structure Boot where
  step : Nat
  kind : Nat
  rampNow : Option Supply
  rampWait : List Supply
  stagger : List Supply
  warm : Option Nat
  warmRun : Bool
  svcVref : Bool
  deriving DecidableEq, Repr

/-! ## The Folio copies (R62–R74) -/

/-- A Folio write or verify under way: its target (0 A, 1 B), the WRITER code, the image to be programmed, what the target
held before and whether it was valid, whether the one retry of R70 has been used; `verify` marks a verify alone. -/
structure FolioJob where
  target : Nat
  writer : Nat
  image : Cells Byte
  before : Cells Byte
  wasValid : Bool
  retried : Bool
  verify : Bool
  deriving DecidableEq, Repr

/-- The configuration store: two copies of 64 KiB as sparse bytes, an unlisted byte reading zero; the write under way; the
image loaded at the last reset, none under shelf defaults, and its measurement; when the tap store last saved; the writes of
R355 still to be made, a soft reset of the page that waits (R60), and the refused requests to be made again (R71, R355). -/
structure Folio where
  copyA : Cells Byte
  copyB : Cells Byte
  job : Option FolioJob
  active : Option (Cells Byte)
  lastTapSaveNs : Option Nat
  keyClear : Bool
  deferredSrst : Bool
  retryCoppice : Bool
  deriving DecidableEq, Repr

/-! ## Maintenance units and locks (R71, R94, R331) -/

/-- A resource with a maintenance lock. -/
inductive LockRes where
  | lane (l : Nat)
  | bank (c : Nat) (b : Nat)
  | keys
  | folio (copy : Nat)
  deriving DecidableEq, Repr

/-- A running maintenance activity: its code of PS_MAINT and the locks it holds. -/
structure MaintHold where
  code : Nat
  locks : List LockRes
  deriving DecidableEq, Repr

/-- The two unit fields of PS_MAINT. -/
structure Maint where
  h0 : Option MaintHold
  h1 : Option MaintHold
  deriving DecidableEq, Repr

/-! ## Lanes (R76–R104) -/

/-- What a lane keeps beyond its registers. `run` counts consecutive commas in VERIFY, `missed` expected commas missed,
`mcrcRun` consecutive markers failing MCRC (R84, R85); the last marker received (R86); `blocks` counts blocks received and
`badAt` the latest bad ones among them (R107); `txBcnt` is the next block's BCNT; `armedRx` counts consecutive markers with
TURN_ARMED; `confirmed` and `ready` belong to a turn (R128, R101); `carry` keeps the symbols received beyond the last block
examined (R84) and `skew` the lane's skew in its group in ns (R87); `asked` says that a coefficient request waits for its
answer, `codes` holds its STEP codes, `rounds` and `quiet` count the rounds of TXTUNE, `fromRec` says that adaptation began from
a record (R90); `tracked` counts the epochs spent in TRACK since the tap set was stored, and `trackId` numbers that stay
(R92); `pat` counts the pattern symbols checked (R98); the eye field holds a running scan (R95–R97); `out` is the lane's place
in the order of R127. -/
inductive OutState where
  | in_ | leaving | retrainWanted | retraining | laneInSent | rejoining | failed
  deriving DecidableEq, Repr

structure EyeScan where
  next : Nat
  dwell : Nat
  cross : Bool
  eye : Nat
  deriving DecidableEq, Repr

structure LaneSt where
  run : Nat
  missed : Nat
  mcrcRun : Nat
  lastLane : Nat
  lastState : Nat
  lastPre : Nat
  lastBcnt : Nat
  blocks : Nat
  badAt : List Nat
  txBcnt : Nat
  txState : Nat
  epbDue : Bool
  idle : Bool
  armedRx : Nat
  confirmed : Bool
  released : Bool
  ready : Bool
  carry : List Nat
  skew : Nat
  asked : Bool
  codes : Nat
  rounds : Nat
  quiet : Nat
  fromRec : Bool
  tracked : Nat
  trackId : Nat
  pat : Nat
  eye : Option EyeScan
  out : OutState
  partnerIn : Bool
  retraining : Bool
  spareSlices : Nat
  deriving DecidableEq, Repr

/-! ## Links (R105–R137) -/

/-- A cell waiting to be sent: TYPE with its MORE bit, LEN, payload, the epoch it was queued in, and whether its message begins with
it. -/
structure QCell where
  typ : Nat
  len : Nat
  payload : List Byte
  epoch : Nat
  first : Bool := false
  deriving DecidableEq, Repr

/-- A cell that has been sent or received: FLOW, TYPE, LEN, SEQ and payload. -/
structure Cell where
  flow : Nat
  typ : Nat
  len : Nat
  seq : Nat
  cret : Nat
  payload : List Byte
  deriving DecidableEq, Repr

/-- A replay entry (R116): the lane and block it belongs to and its cells, each with the number of times it has been sent. -/
structure ReplayEntry where
  lane : Nat
  bcnt : Nat
  cells : List (Cell × Nat)
  deriving DecidableEq, Repr

/-- A link management cell waiting to be sent: CODE, the payload bytes after it, and whether it is urgent (R109). -/
structure Lmc where
  code : Nat
  body : List Byte
  urgent : Bool := false
  deriving DecidableEq, Repr

/-- A turn under way (R101, R128): the target, the pairs turned, whether this end decided it, whether TURN_GO has been sent
or received, the epoch of its decision, whether E1 − 1 µs and E1 + 4.0 µs have passed, and how many lanes it began with. -/
structure Turn where
  target : Arr
  lanes : List Nat
  decider : Bool
  acked : Bool
  go : Bool
  epoch : Nat
  pastConfirm : Bool
  pastReady : Bool
  width : Nat
  deriving DecidableEq, Repr

/-- Credit counts by class: NP, P, CPL, MGT (R119). -/
structure Credits where
  np : Nat
  p : Nat
  cpl : Nat
  mgt : Nat
  deriving DecidableEq, Repr

/-- What the partner granted this end, where the partner schedules the link (R149). -/
structure PartnerGrant where
  epoch : Nat
  parts : List AllotPart
  epochNow : Nat
  known : Bool
  res : Nat
  extra : List (Nat × Nat)
  deriving DecidableEq, Repr

/-- What a link keeps beyond its registers. Of these, `rxTaken` counts the cells of each class taken since the last CREDIT_INIT
sent and `rxBack` the credits returned in headers since then (R120); `stalled` holds the cells that wait in their buffers while no
router is active (R131), `srfWait` those that wait for an assembly buffer of the surface engine (R201); `holdAt` is the epoch at which HOLD began (R122); `sleepGo` is the level accepted in a SLEEP_ACK that
has not gone out and `wakeDue` a wake that came before the sleep (R132); `woken` says that this end has sent the wake pattern and the partner has not
acknowledged a block since (R326); `partTurn` says that only one lane of a two-lane turn turned (R128). -/
structure LinkSt where
  step : Nat
  recStep : Nat
  fails : List Nat
  failsStep2 : Nat
  excluded : Nat
  offered : Nat
  partner : Option AdvMsg
  chosenTx : Nat
  chosenRx : Nat
  loopLanes : Nat
  creditRx : Bool
  adaptDone : List Nat
  reverseDone : List Nat
  seqTx : Nat
  nextSeq : Nat
  early : List Cell
  replay : List ReplayEntry
  again : List (Cell × Nat)
  credits : Credits
  freed : Credits
  asm : List (Nat × Nat × List Byte)
  lmcs : List Lmc
  rxTaken : Credits
  rxBack : Credits
  stalled : List Cell
  srfWait : List Cell
  ackReqs : Nat
  rxBad : List (Nat × Nat)
  rxTop : Nat
  holdTx : Bool
  holdAt : Nat
  holdWait : Bool
  holdEpochs : Nat
  sleepAsk : Option Nat
  sleepWant : Option Nat
  sleepGo : Option Nat
  sleepLevel : Nat
  wakeSent : Bool
  wakeDue : Bool
  woken : Bool
  turn : Option Turn
  partTurn : Bool
  grant : PartnerGrant
  grants : List (Nat × Nat)
  upSinceMode : Bool
  stableNs : Nat
  deriving DecidableEq, Repr

/-! ## Circulation (R138–R166) -/

/-- The committed words of a flow entry beyond FLOW_CFG, and what the entry keeps: epochs left of a drain, cells held in
REKEY_WAIT by the key engine, and whether the flow's own storage has failed in both copies (R160). -/
structure FlowEnt where
  guar : Word
  ceil : Word
  decl : Word
  drain : Nat
  rekeyIn : Nat
  lost : Bool
  deriving DecidableEq, Repr

/-- A complete DEMAND: its epoch and entries of flow, backlog and DL. -/
structure Demand where
  epoch : Nat
  parts : Nat
  entries : List (Nat × Nat × Nat)
  deriving DecidableEq, Repr

/-- What a scheduler keeps beyond its SCHED block (R161): rotations by direction (IN, OUT), epochs begun since the last complete
DEMAND, that DEMAND and the one being collected, cells received since its epoch by 256 × epoch + flow and by flow in this
epoch, parts of the last ALLOT, the grants of the epoch to come and of this one, the CTRL reservation of IN in this epoch and the
next, the candidate with its count, whether the run had an epoch of step 3 only, refusals in a row, epochs until the dwell ends,
and whether the restart computation is due. -/
structure Sched where
  rotCIn : Nat
  rotCOut : Nat
  rotWIn : Nat
  rotWOut : Nat
  stale : Nat
  demand : Option Demand
  collect : List DemandPart
  received : List (Nat × Nat)
  sentIn : List (Nat × Nat)
  allotParts : Nat
  nextIn : List (Nat × Nat)
  nextOut : List (Nat × Nat)
  cand : Option Arr
  count : Nat
  only3 : Bool
  refusedRow : Nat
  dwell : Nat
  extraIn : List (Nat × Nat)
  nextExtraIn : List (Nat × Nat)
  resIn : Nat
  nextRes : Nat
  restart : Bool
  deriving DecidableEq, Repr

/-! ## Events, delivery, ALIVE (R394–R415) -/

/-- A source that has fired and whose reaction EVENT_FIRING will take. -/
structure Firing where
  src : Nat
  detail : Nat
  forced : Bool
  deriving DecidableEq, Repr

/-- An event record (R399), with the number that ties it to its merge target. -/
structure EvRecord where
  id : Nat
  epoch : Nat
  src : Nat
  cls : Nat
  react : Nat
  detail : Nat
  repeats : Nat
  seq : Nat
  logged : Bool
  esc : Bool
  forced : Bool
  deriving DecidableEq, Repr

/-- A closed event message (R400): the epoch it was closed in, its records, and which paths have taken it. -/
structure EvMessage where
  epoch : Nat
  records : List EvRecord
  f2 : Bool
  usb : Bool
  deriving DecidableEq, Repr

/-- A merge target (R398): its source and epoch, the Ledger entry with its SEQ, and the record. -/
structure MergeTarget where
  src : Nat
  epoch : Nat
  entry : Option (Nat × Nat)
  record : Option Nat
  deriving DecidableEq, Repr

/-- The event aggregator and the safe-state logic beyond their registers: of these, `tokens` counts the heartbeat tokens that are out,
`tokenFree` says that the next boundary makes no test, and `tokenHeld` that the test is suspended (R410). -/
structure EvSt where
  queue : List EvRecord
  closed : List EvMessage
  targets : List MergeTarget
  nextId : Nat
  lastSeq : Nat
  lostNow : Nat
  beam : Option (List Byte)
  aliveLevel : Bool
  aliveOn : Bool
  tokens : Nat
  tokenFree : Bool
  tokenHeld : Bool
  lateRun : Nat
  safeNs : Nat
  junctionHot : Bool
  junctionCrit : Bool
  deriving DecidableEq, Repr

/-! ## The window bridge and the cascade (R167–R188, R335–R343) -/

/-- A window's prefetch buffer (R180–R182): its first target address, its bytes, the epoch it was filled in, the link the READ
that filled it arrived on, the doublewords that later READs have used, and the 64-byte bursts read as uncorrectable. -/
structure PrefetchBuf where
  addr : Nat
  data : List Byte
  epoch : Nat
  lnk : Lnk
  used : List Nat
  bad : List Nat
  deriving DecidableEq, Repr

/-- Who a forwarded request is answered to: the sender of a message with its header and the window's byte order, a window's
own read-ahead, the service function, the service port, the relay, a presence poll, the write that gives the partner its
position, or nobody any more. -/
inductive Asker where
  | sender (k : Lnk) (f cls : Nat) (hdr : List Byte) (order : Nat)
  | readAhead (w : Nat) (k : Lnk)
  | svcf
  | svcp
  | relay
  | poll
  | assign
  | gone
  deriving DecidableEq, Repr

/-- A request this device sends to another device (R183, R339, R340, R342): the window it came by, whether it writes, the link
and flow it goes out on, the target position, width code, element count, address at the target, address as decoded here, the
bytes of a write, and its tag, none while it waits. -/
structure FwdReq where
  asker : Asker
  win : Option Nat
  write : Bool
  lnk : Lnk
  pflow : Nat
  pos : Nat
  width : Nat
  count : Nat
  addr : Nat
  here : Nat
  data : List Byte
  tag : Option Nat
  deriving DecidableEq, Repr

/-- The bridge's initiator side and the cascade block beyond their registers: requests waiting and outstanding, tags of
timed-out requests not yet free, whether position 0 was taken from a host on UL (R334), AP_LAST of the
partner in the last poll (R349), whether the third position from here is known to hold an AP2080 (log entry 79), and consecutive missed
polls (R343). -/
structure Fwd where
  reqs : List FwdReq
  stale : List Nat
  pos0 : Bool
  apNext : Bool
  apThird : Bool
  missed : Nat
  deriving DecidableEq, Repr

/-! ## The Muniment store and the key/crypto engine (R352–R369) -/

/-- What the fuses hold (R353, R354): the life-cycle code, the code that takes effect at the next reset, the owner seeds
burned, and the sectors of the copies replaced (R375). -/
structure Fuses where
  state : Nat
  pending : Nat
  seeds : List (List Byte)
  deriving DecidableEq, Repr

/-- A key slot (R358–R360): STATE, TYPE, ORIGIN, PERSIST, PARENT and physical slot as the slot table codes them, its
generation, its stored bytes with the mask over them (no mask in CHECKED mode) and its 32-bit check. -/
structure KeySlot where
  state : Nat
  typ : Nat
  origin : Nat
  persist : Bool
  parent : Nat
  phys : Nat
  gen : Nat
  data : List Byte
  mask : List Byte
  check : Nat
  deriving DecidableEq, Repr

/-- The binding before a rebinding (R367): its key and KGEN, the epoch of the rebinding, and the IN counter with whether a message
has been accepted. -/
structure KeyPrev where
  key : List Byte
  kgen : Nat
  epoch : Nat
  ctrIn : Nat
  seen : Bool
  deriving DecidableEq, Repr

/-- What the engine keeps of an encrypted flow (R366–R369): the slot bound, a rebinding that waits for the boundary, the previous
binding, the counters of the two directions, and held messages with the key that sealed them. -/
structure KeyFlow where
  cur : Option Nat
  rebind : Option Nat
  prev : Option KeyPrev
  ctrOut : Nat
  ctrIn : Nat
  seen : Bool
  held : List (Lnk × SealedMsg)
  heldKey : Option (List Byte)
  early : List Nat
  earlyKey : List Byte
  deriving DecidableEq, Repr

/-- A command of R361 that waits or runs: the word of its GO write. -/
inductive KeyCmd where
  | kd (v : Word) | atst (nonce : List Byte) (epoch : Nat) | cert (burnOk : Bool) | lc (v : Word) (burnOk : Bool)
  deriving DecidableEq, Repr

/-- The Muniment store beyond its registers: slots, flows of the engine, commands in order of their GO writes, the slots a
running persistent command leaves when its Folio write ends, records loaded that wait for READY, failures of the entropy
test, whether it was the continuous test that failed, re-mask passes, the DRBG's seeding, seed words written since reset, scrub counts of
physical slots, the certificate, DST of the persistent command in progress, and the complete messages of encrypted flows, by flow and
class, that have left the link for the engine and not been opened. -/
structure Muni where
  slots : Cells KeySlot
  flows : Cells KeyFlow
  queue : List KeyCmd
  after : Option (Cells KeySlot)
  invalidated : Option Nat
  loading : List (Nat × List Byte)
  skipTold : Bool
  entFails : Nat
  contFail : Bool
  remaskDone : Bool
  remaskMissed : Nat
  seed : Nat
  seedWritten : Nat
  corrected : List Nat
  cert : List Byte
  root : Option (List Byte)
  dst : Nat
  entered : List (Nat × Nat)
  deriving DecidableEq, Repr

/-! ## Coppice and the router (R375–R391) -/

/-- An entry of the repair map (R383); `fuse` for a factory or NVM sector entry, `kept` for one the section records. -/
structure RepEntry where
  kind : Nat
  retired : Bool
  unitNo : Nat
  orig : Nat
  spare : Nat
  fuse : Bool
  kept : Bool
  deriving DecidableEq, Repr

/-- A row of the suspect table (R377): channel × 33 + bank, the row, when it was recorded, and whether by an uncorrectable
burst. -/
structure Suspect where
  unitNo : Nat
  row : Nat
  atNs : Nat
  uncor : Bool
  deriving DecidableEq, Repr

/-- A row or bank repair that runs or waits (R377): kind 3 or 4, unit, original, spare, and whether a bank's BIST still runs. -/
structure StkRepair where
  kind : Nat
  unitNo : Nat
  orig : Nat
  spare : Nat
  bist : Bool
  deriving DecidableEq, Repr

/-- Coppice beyond its registers: the map in force, pools whose EV238 has been raised, the suspect table, Stacks repairs
running, repairs that wait for their lock or unit, flits corrected by plane, the plane swap due, SRAM rows corrected, lane
slices to be replaced, segments and sensors lost, slack baselines with their hour's mean, and the last measurements. -/
structure Copp where
  map : List RepEntry
  told : List (Nat × Nat)
  suspects : List Suspect
  running : List StkRepair
  waiting : List StkRepair
  waitSlots : List Nat
  planeHits : List (Nat × Nat)
  planeDue : Option Nat
  sramHits : List (Nat × Nat × Nat)
  slices : List (Nat × Nat)
  badSlices : List (Nat × Nat)
  lostSegments : List (Nat × Nat)
  ganged : List (Nat × Nat)
  repairLanes : List Nat
  base : List Nat
  meas : List Nat
  samples : List (Nat × Nat × Nat)
  warned : List Nat
  deriving DecidableEq, Repr

/-- A checkpoint half (R387): the epoch of its computation, the scheduler state of R161 with the turn of each link, the arbiter's
rotation pointer for each egress port, the words saved with it, and the port table. -/
structure Ckpt where
  epoch : Nat
  scheds : Cells Sched
  turnUl : Option Turn
  turnCs : Option Turn
  arb : List Nat
  words : Cells Word
  ports : List Word
  deriving DecidableEq, Repr

/-- The configuration image (R387), as of the last commit or flow-entry repair: the FLOW_CFG words with CIRC_CTRL and CIRC_TURN, the
committed guarantees, ceilings and declared demands of the entries, and the spare map. -/
structure CfgImage where
  words : Cells Word
  flows : Cells FlowEnt
  spares : List RepEntry
  deriving DecidableEq, Repr

/-- The router beyond its registers (R386–R390): a failure seen and not yet handled, with its cause and the merge target of its first
event (R409); the phase of a fail-over (0 none, 1 loaded, 2 computed and granting CTRL only); the time of the failure; the two
checkpoint halves; the configuration image, none before the first commit; the arbiter's rotation pointers; retired copies; and
whether the failed copy waits for its proof. -/
structure Router where
  want : Option Nat
  first : Option MergeTarget
  phase : Nat
  t0 : Nat
  halfA : Option Ckpt
  halfB : Option Ckpt
  image : Option CfgImage
  arb : List Nat
  retired : List Nat
  proofDue : Bool
  held : List (Lnk × Nat × Nat × List Byte)
  deriving DecidableEq, Repr

/-! ## Surfaces and heads (R189–R241) -/

/-- A surface descriptor as a write samples it (R191). -/
structure SurfDesc where
  layout : Nat
  fmt : Nat
  width : Nat
  height : Nat
  base : Nat
  aux : Nat
  deriving DecidableEq, Repr

/-- A tile update that holds an assembly buffer (R201): its flow, link cells, the tiles still to be written, and the descriptor
its first write sampled. -/
structure SurfJob where
  flow : Nat
  cells : List MsgCell
  tiles : List (Nat × Nat)
  desc : Option SurfDesc
  deriving DecidableEq, Repr

/-- A tile write in progress on a unit (R202): flow, surface and tile, the message, the descriptor, and whether it is the last tile
of its message. -/
structure SurfWrite where
  flow : Nat
  surf : Nat
  tx : Nat
  ty : Nat
  cells : List MsgCell
  desc : SurfDesc
  last : Bool
  deriving DecidableEq, Repr

/-- The surface engine and the ring tags: messages waiting at the SRF ingress, the flows of messages that are whole in their buffers and
have not been presented by their command (log entry 31), messages in buffers, the two write units, the tag
of each ring line plus 1 (0 for none; rings of surfaces at 512 × s, receiver rings at 512 × (64 + k)), and each stream's last
timing, line received and whether it arrives. -/
structure Surf where
  wait : List (Nat × List MsgCell)
  held : List Nat
  jobs : List SurfJob
  unit0 : Option SurfWrite
  unit1 : Option SurfWrite
  tags : Cells Nat
  streams : Cells (Option Raster × Nat)
  deriving DecidableEq, Repr

/-- A band in a head's band buffer (R218): its number and its lines of pixels widened to 10 bits per component. -/
structure Band where
  surf : Nat
  band : Nat
  rows : List (List Nat)
  deriving DecidableEq, Repr

/-- A head beyond its registers: the live plane words (R224), whether it stops at the next line boundary, the band being
fetched with its surface, the band to be fetched next, how many bands of the frame FRAME have begun to be fetched, the band
buffers, whether the armed commit passes the next line VACTIVE (R225), the latched TE edge and lines held (R228), late tiles
since the last beam record (R207), the resynchronisation due (R230), the Marginalia palette read
(R221), whether the stream is being sent (R236), whether the surface of the live plane has been made invalid since it was taken
(R220), and the time slots applied (R234). -/
structure HeadSt where
  plane : Word
  margCtrl : Word
  margPos : Word
  margSize : Word
  margBase : Word
  stopping : Bool
  fetch : Option (Nat × Nat)
  nextBand : Nat
  begun : Nat
  bands : List Band
  skip : Bool
  mskip : Bool
  edge : Bool
  held : Nat
  late : Nat
  resync : Bool
  palette : List Byte
  sent : Bool
  gone : Bool
  slots : Nat
  deriving DecidableEq, Repr

/-- A DisplayPort output beyond its registers: whether training runs, the AUX transaction running and whether it waits for the
device's own use of AUX, its DEFERs and time-outs so far, when DP_PWR last opened on over-current, and whether it still waits for PWR_EN to be
written to 0. -/
structure DpSt where
  training : Bool
  aux : Option Word
  defers : Nat
  retries : Nat
  openedNs : Option Nat
  tripped : Bool
  deriving DecidableEq, Repr

/-! ## The hub and the service function (R242–R260) -/

/-- An external port beyond PORT_STATUS: powered by the host, attached (a Type-C port), a VBUS ramp waiting its turn, within 100 ms
of a trip and with a request held for its end, disabled for babble, and when it was disabled in the last 10 s. -/
structure PortSt where
  asked : Bool
  attached : Bool
  waiting : Bool
  holdoff : Bool
  heldReq : Bool
  disabled : Bool
  babbles : List Nat
  deriving DecidableEq, Repr

/-- A USB 2.0 transaction held in the adapter for its microframe: its port, the microframe, the device's answer and its data, and
whether its endpoint is isochronous. -/
structure U2Held where
  port : Nat
  frame : Nat
  bytes : List Byte
  pid : Nat
  reply : List Byte
  iso : Bool
  deriving DecidableEq, Repr

/-- The hub beyond its registers: the ports, the microframe number, transactions held, the contents of the Transaction Translators by
port (R258), and the resume being signalled downstream: when it began, whether the host resumed, and the port of a device's
remote wake. -/
structure Hub where
  ports : Cells PortSt
  uframe : Nat
  txns : List U2Held
  tts : List (Nat × List Byte)
  resumeNs : Option Nat
  rsmHost : Bool
  rsmPort : Option Nat
  deriving DecidableEq, Repr

/-- A write request of the service function whose status stage has not come: bRequest, address and data. -/
structure SvcfWrite where
  req : Nat
  addr : Nat
  data : List Byte
  deriving DecidableEq, Repr

/-- Endpoints of the hub's internal functions that need the fabric: the service function's control and interrupt endpoints, and the NCM
function's. -/
inductive HubEnd where
  | control | notice | network
  deriving DecidableEq, Repr

/-- The service function beyond SVCF_STATUS: the write held, the address in LAST_STATUS, whether the last request waits for a
peer's answer, the function's USB address and interface setting (R257), and the endpoints of the internal functions that have answered
NRDY and owe ERDY (R257, R259). -/
structure Svcf where
  write : Option SvcfWrite
  lastAddr : Nat
  busy : Bool
  address : Nat
  setting : Nat
  nrdy : List HubEnd
  deriving DecidableEq, Repr

/-- The service port beyond SVCP_STATUS (R427–R429): a write transaction is open, whether it addresses the Stacks, the address of
its next word, the bytes of the word begun, whether a word of it was refused; SCL is stretched for a peer's answer, with the
bytes of the words and the number of words that follow; the read address and whether it lies in the Stacks. -/
structure Svcp where
  opened : Bool
  stk : Bool
  addr : Nat
  part : List Byte
  refused : Bool
  waiting : Bool
  todo : List Byte
  due : Nat
  read : Option (Bool × Nat)
  deriving DecidableEq, Repr

/-! ## Storage and Ethernet (R263–R278) -/

/-- A non-posted request in the switch for a downstream port: requester and tag, whether a configuration request, and whether it came
from the endpoint of the other port. -/
structure PepReq where
  req : Nat × Nat
  cfg : Bool
  peer : Bool
  deriving DecidableEq, Repr

/-- A non-posted request that an endpoint has sent upstream: its port, the link it went by, requester and tag, and the cells reserved
for its completion (R121). -/
structure PepUp where
  port : Nat
  lnk : Lnk
  req : Nat × Nat
  cells : Nat
  deriving DecidableEq, Repr

/-- A downstream port beyond PEP_STATUS: socket power requested by the host, a ramp waiting, 3.135 V reached, off until the host
cycles Power Controller Control, REFCLK running, and non-posted requests in the switch for the port. The last three are
status bits of its configuration space: Data Link Layer State Changed, Surprise Down and Power Fault Detected. -/
structure Pep where
  asked : Bool
  waiting : Bool
  ready : Bool
  cycled : Bool
  refclk : Bool
  reqs : List PepReq
  dllsc : Bool
  down : Bool
  fault : Bool
  deriving DecidableEq, Repr

/-- Data read ahead for a port (R269): address, bytes, epoch, doublewords used, the flow, and the completer. -/
structure PepAhead where
  port : Nat
  addr : Nat
  data : List Byte
  epoch : Nat
  used : List Nat
  flow : Nat
  completer : Nat
  deriving DecidableEq, Repr

/-- The switch beyond its registers: the ports, read-ahead, whether OFF_DELAY runs, Malformed TLP of the upstream port's AER, the
non-posted requests of endpoints that wait for their completion, and the configuration space the host has written: register
`r` of function `f` (0 the upstream port, 1 and 2 the downstream ports) under 1,024 f + r (R264). -/
structure Pcie where
  ports : Cells Pep
  ahead : List PepAhead
  offDelay : Bool
  malformed : Bool
  upReqs : List PepUp
  cfg : Cells Word
  deriving DecidableEq, Repr

/-- The Ethernet block beyond its registers (R276–R278): until when the partner's PAUSE holds transmission, frames that wait for
transmission, received frames that wait for the NCM function, and its packet filter: bit 0 directed, 1 broadcast, 2
all-multicast, 3 promiscuous. -/
structure Eth where
  pausedNs : Nat
  txQ : List (List Byte)
  rxQ : List (List Byte)
  filter : Nat
  deriving DecidableEq, Repr

/-! ## Power delivery and the power path (R282–R312) -/

/-- A Request of the dock: object position, voltage in mV, current in mA, the contract type of PD_CONTRACT, Capability Mismatch. -/
structure PdReq where
  pos : Nat
  mv : Nat
  ma : Nat
  typ : Nat
  mismatch : Bool
  deriving DecidableEq, Repr

/-- A role swap in progress on UL. -/
inductive PdSwap where
  | toSource | toSink | vconn
  deriving DecidableEq, Repr

/-- A PD port beyond its registers: the partner's offers and advertised current, the Request not yet in force, whether it was
answered with Wait, retries of it; the swap in progress and PR_Swaps sent again; a level the allocator is changing, a level
fallen below the contract; the sustained-trip current of the source switch in mA; source trips of the last 60 s; a switch kept open, on a source until the next detach and on an
input until VBUS is back; since when VBUS is discharging, a discharge that failed; and the source switch closed. -/
structure PdPort where
  caps : List Pdo
  adv : Nat
  asked : Option PdReq
  waited : Bool
  tries : Nat
  swap : Option PdSwap
  swapTries : Nat
  swapWaited : Bool
  swapsDue : List PdSwap
  levelMoving : Bool
  overLevel : Bool
  limitMa : Nat
  trips : List Nat
  tripped : Bool
  off : Bool
  discharge : Option Nat
  stuck : Bool
  switch : Bool
  deriving DecidableEq, Repr

/-- Phases of a Fast Role Swap (R298): none, the signal driven, the signal ended, VBUS taken from the host. -/
inductive FrsPhase where
  | idle | signal | waiting | fed
  deriving DecidableEq, Repr

/-- The ports, the Fast Role Swap, the budget after an input loss in units of 10 mW, whether DisplayPort Alt Mode is entered, and
whether the Caraxline mode last ended by failed training. -/
structure Pd where
  ports : Cells PdPort
  frs : FrsPhase
  loss : Option Nat
  dpMode : Bool
  failed : Bool
  deriving DecidableEq, Repr

/-- The allocator beyond its registers: items in force, by the numbers of their rank order, and whether P_IN has fallen less than
RESTORE ago. -/
structure Budget where
  granted : List Nat
  hold : Bool
  deriving DecidableEq, Repr

/-! ## The power sequencer (R315–R330) -/

/-- The sequencer beyond its registers: the command accepted and not begun, the target of an entry with the order number of the
block being asked and those stopped, a wake latched for the state or the entry, the state an exit leaves, domains still
to be ramped, the operating point a change goes to and whether VCORE moves, when the state was entered, and whether turns are held.
`visl` is the VISL code of a raise granted to an island that does not run at it yet, 0 for none (R330).
`turnDone` says that a turn took effect in this epoch, and `settled` that VCORE has settled at a raised point that waits for
the next epoch on that account (R23). -/
structure Seq where
  cmd : Option Word
  target : Nat
  block : Nat
  stopped : List Nat
  woke : Bool
  exiting : Option Nat
  ramps : List Nat
  toOp : Option Nat
  ramping : Bool
  enteredNs : Nat
  heldTurns : Bool
  visl : Nat
  turnDone : Bool
  settled : Bool
  deriving DecidableEq, Repr

/-- What a PD engine sends: the messages of R286–R300 and the structured VDM answers of R293–R297. -/
inductive PdMsg where
  | request (r : PdReq)
  | accept | reject | wait | hardReset | prSwap | vconnSwap | getSourceCaps
  | sourceCaps (watts : Nat) (pps epr : Bool)
  | ack (vdos : List Word)
  | nak | busy
  | enterMode | exitMode
  | discover (sopPrime : Bool)
  | attention (svid : Nat) (vdo : Word)
  deriving DecidableEq, Repr

/-! ## What a command puts on the outside -/

/-- What the hub tells its host of itself when its upstream connects (R243): the ports of its descriptor, with its power switching,
over-current protection and Transaction Translators; the ports that are not removable and those of them that report a
connection; and whether an internal function enumerates at SuperSpeed Plus, or at high speed. -/
structure HubForm where
  ports : Nat
  portPower : Bool
  portOvercurrent : Bool
  multiTt : Bool
  fixed : List Nat
  internal : List Nat
  superSpeed : Bool
  deriving DecidableEq, Repr

/-- What the NCM function tells its host of itself (R278): NTB-16 only, the largest NTB and the datagrams of one, CRC mode,
wMaxSegmentSize, multicast filters, and the MAC address. -/
structure NcmForm where
  ntb16Only : Bool
  maxNtb : Nat
  maxDatagrams : Nat
  crc : Bool
  segment : Nat
  multicastFilters : Nat
  mac : List Byte
  deriving DecidableEq, Repr

/-- A change of a port's status that the hub reports to its host: C_PORT_OVER_CURRENT (R251), or a fall of its granted current
(R253). -/
inductive PortChange where
  | overCurrent | current
  deriving DecidableEq, Repr

/-- The DSC settings that a PPS carries (R235). -/
structure DscForm where
  slices : Nat
  width : Nat
  height : Nat
  predict : Bool
  bpp16 : Nat
  bpc : Nat
  deriving DecidableEq, Repr

/-- What an output sends with the start of a stream: MSA_TIMING_PAR_IGNORE (R228), and the PPS of a compressed stream. -/
structure StreamForm where
  output : Nat
  msaIgnore : Bool
  pps : Option DscForm
  deriving DecidableEq, Repr

/-- What leaves a block at a command: symbols on a lane, a message at the block that ends its flow, a pin, a packet. -/
inductive Emit where
  | symbols (lane : Nat) (levels : List Nat)
  | toSeal (flow cls : Nat) (bytes : List Byte)
  | delivered (k : Lnk) (flow cls : Nat) (bytes : List Byte)
  | lmc (k : Lnk) (code : Nat) (body : List Byte)
  | wakePattern (k : Lnk)
  | loopMode (lane mode : Nat) (effective : Bool)
  | rejoin (lane : Nat)
  | precodeAsk (lane : Nat) (on : Bool)
  | flow2 (bytes : List Byte)
  | interrupt (bytes : List Byte)
  | alive (level : Bool)
  | regData (path : Path) (data : Word)
  | svcp (bytes : List Byte)
  | nack
  | svcf (bytes : List Byte)
  | statusStage
  | nak
  | erdy (e : HubEnd)
  | stall
  | line (head : Nat) (pixels : List Nat)
  | stream (head : Nat) (on : Bool)
  | streamForm (head : Nat) (form : StreamForm)
  | act (output : Nat) (slots : List (Nat × Nat × Nat))
  | aux (output : Nat) (word : Word) (data : List Byte)
  | dpPower (output : Nat) (on : Bool)
  | usb (port : Nat) (bytes : List Byte)
  | sof (frame : Nat)
  | usbReset (port : Nat)
  | resume (port : Nat)
  | resumeUp
  | hubUp (speed : Nat)
  | hubForm (form : HubForm)
  | portChange (port : Nat) (change : PortChange)
  | vbusDs (port : Nat) (on : Bool)
  | ncmForm (form : NcmForm)
  | ncm (frame : List Byte)
  | ncmNote (up : Bool) (mbps : Nat)
  | ethTx (frame : List Byte)
  | autoneg
  | lowPowerIdle
  | tlp (port : Nat) (bytes : List Byte)
  | perst (port : Nat) (on : Bool)
  | refclk (port : Nat) (on : Bool)
  | m2 (port : Nat) (on : Bool)
  | pd (port : Nat) (m : PdMsg)
  | vbus (port : Nat) (on : Bool)
  | rp (port : Nat) (on : Bool)
  | frSignal (on : Bool)
  deriving DecidableEq, Repr

def LaneSt.init : LaneSt :=
  { run := 0, missed := 0, mcrcRun := 0, lastLane := 0, lastState := 0, lastPre := 0, lastBcnt := 0, blocks := 0, badAt := [],
    txBcnt := 0, txState := 0, epbDue := false, idle := true, armedRx := 0, confirmed := false, released := false,
    ready := false, carry := [], skew := 0, asked := false, codes := 0, rounds := 0, quiet := 0, fromRec := false,
    tracked := 0, trackId := 0, pat := 0, eye := none, out := .in_, partnerIn := false, retraining := false, spareSlices := 0 }

def Credits.zero : Credits := { np := 0, p := 0, cpl := 0, mgt := 0 }

def LinkSt.init : LinkSt :=
  { step := 0, recStep := 0, fails := [0, 0, 0, 0], failsStep2 := 0, excluded := 0, offered := 0, partner := none,
    chosenTx := 0, chosenRx := 0, loopLanes := 0, creditRx := false, adaptDone := [], reverseDone := [], seqTx := 0,
    nextSeq := 0, early := [], replay := [], again := [], credits := Credits.zero, freed := Credits.zero,
    asm := [], lmcs := [], rxTaken := Credits.zero, rxBack := Credits.zero, stalled := [], srfWait := [], ackReqs := 0, rxBad := [], rxTop := 0,
    holdTx := false, holdAt := 0, holdWait := false, holdEpochs := 0, sleepAsk := none, sleepWant := none, sleepGo := none,
    sleepLevel := 0, wakeSent := false, wakeDue := false, woken := false, turn := none, partTurn := false,
    grant := { epoch := 0, parts := [], epochNow := 0, known := false, res := 0, extra := [] }, grants := [], upSinceMode := false, stableNs := 0 }

def FlowEnt.init : FlowEnt := { guar := 0, ceil := 0, decl := 0, drain := 0, rekeyIn := 0, lost := false }

def Sched.init : Sched :=
  { rotCIn := 0, rotCOut := 0, rotWIn := 0, rotWOut := 0, stale := 0, demand := none, collect := [], received := [],
    sentIn := [], allotParts := 1, nextIn := [], nextOut := [], cand := none, count := 0, only3 := false, refusedRow := 0,
    dwell := 0, extraIn := [], nextExtraIn := [], resIn := 0, nextRes := 0, restart := false }

def KeySlot.free (s : Nat) : KeySlot :=
  { state := 0, typ := 0, origin := 0, persist := false, parent := 0, phys := s, gen := 0, data := [], mask := [], check := 0 }

def KeyFlow.init : KeyFlow :=
  { cur := none, rebind := none, prev := none, ctrOut := 0, ctrIn := 0, seen := false, held := [], heldKey := none,
    early := [], earlyKey := [] }

def Fuses.init : Fuses := { state := 0, pending := 0, seeds := [] }

def Muni.init : Muni :=
  { slots := [], flows := [], queue := [], after := none, invalidated := none, loading := [], skipTold := false, entFails := 0,
    contFail := false, remaskDone := true, remaskMissed := 0, seed := 0, seedWritten := 0, corrected := [], cert := [], root := none,
    dst := 0, entered := [] }

def Copp.init : Copp :=
  { map := [], told := [], suspects := [], running := [], waiting := [], waitSlots := [], planeHits := [], planeDue := none,
    sramHits := [], slices := [], badSlices := [], lostSegments := [], ganged := [], repairLanes := [], base := [], meas := [], samples := [],
    warned := [] }

def Router.init : Router :=
  { want := none, first := none, phase := 0, t0 := 0, halfA := none, halfB := none, image := none, arb := [], retired := []
    proofDue := false, held := [] }

def Surf.init : Surf := { wait := [], held := [], jobs := [], unit0 := none, unit1 := none, tags := [], streams := [] }

def HeadSt.init : HeadSt :=
  { plane := 0, margCtrl := 0, margPos := 0, margSize := 0, margBase := 0, stopping := false, fetch := none, nextBand := 0,
    begun := 0, bands := [], skip := false, mskip := false, edge := false, held := 0, late := 0, resync := false,
    palette := [], sent := false, gone := false, slots := 0 }

def DpSt.init : DpSt := { training := false, aux := none, defers := 0, retries := 0, openedNs := none, tripped := false }

def PortSt.init : PortSt :=
  { asked := false, attached := false, waiting := false, holdoff := false, heldReq := false, disabled := false, babbles := [] }

def Hub.init : Hub := { ports := [], uframe := 0, txns := [], tts := [], resumeNs := none, rsmHost := false, rsmPort := none }

def Pep.init : Pep :=
  { asked := false, waiting := false, ready := false, cycled := false, refclk := false, reqs := [], dllsc := false, down := false,
    fault := false }

def Svcf.init : Svcf := { write := none, lastAddr := 0, busy := false, address := 0, setting := 0, nrdy := [] }

def Svcp.init : Svcp :=
  { opened := false, stk := false, addr := 0, part := [], refused := false, waiting := false, todo := [], due := 0, read := none }

def Pcie.init : Pcie := { ports := [], ahead := [], offDelay := false, malformed := false, upReqs := [], cfg := [] }

def Eth.init : Eth := { pausedNs := 0, txQ := [], rxQ := [], filter := 15 }

def PdPort.init : PdPort :=
  { caps := [], adv := 900, asked := none, waited := false, tries := 0, swap := none, swapTries := 0, swapWaited := false,
    swapsDue := [], levelMoving := false, overLevel := false, limitMa := 0, trips := [], tripped := false, off := false, discharge := none, stuck := false, switch := false }

def Seq.init : Seq :=
  { cmd := none, target := 0, block := 0, stopped := [], woke := false, exiting := none, ramps := [], toOp := none,
    ramping := false, enteredNs := 0, heldTurns := false, visl := 0, turnDone := false, settled := false }

/-- The instruction in the test access port's register (R414). -/
inductive TapInstr where
  | bypass | idcode | sample | extest
  deriving DecidableEq, Repr

/-! ## The state -/

/-- The block without its command queue. `regs` holds every register by management address, an unlisted one reading its
reset value; `stkMem` the local Stacks by byte; `out` what the last command put on the outside; `firings` the sources that
have fired and wait for their reaction; `timeNs` the elapsed time (log entry 6); `free` the number of the next free value
(the model's own field, log entry 3). -/
structure Chip where
  part : Part
  regs : Cells Word
  stkMem : Cells Byte
  out : List Emit
  firings : List Firing
  timeNs : Nat
  free : Nat
  boot : Boot
  folio : Folio
  maint : Maint
  lanes : Cells LaneSt
  links : Cells LinkSt
  flows : Cells FlowEnt
  queues : Cells (List QCell)
  scheds : Cells Sched
  ev : EvSt
  prefetch : List (Nat × PrefetchBuf)
  taps : Cells Byte
  deferred : List (Nat × Word)
  lateNow : List Nat
  fuses : Fuses
  muni : Muni
  copp : Copp
  router : Router
  stkBad : Cells Bool
  stkFilled : Cells Bool
  fwd : Fwd
  surf : Surf
  heads : Cells HeadSt
  dps : Cells DpSt
  hub : Hub
  svcf : Svcf
  svcp : Svcp
  latches : Cells (Option (Nat × Word))
  pcie : Pcie
  lpi : Bool
  eth : Eth
  pd : Pd
  budget : Budget
  seq : Seq
  tap : TapInstr
  samples : List Word
  deriving DecidableEq, Repr

/-- The block: the commands waiting, first in first out, and everything else. -/
structure State where
  pending : List Instr
  chip : Chip
  deriving DecidableEq, Repr

/-! ## Reset -/

def Boot.init : Boot :=
  { step := 0, kind := 0, rampNow := none, rampWait := [], stagger := [], warm := none, warmRun := false, svcVref := true }

def Folio.init : Folio :=
  { copyA := [], copyB := [], job := none, active := none, lastTapSaveNs := none, keyClear := false, deferredSrst := false,
    retryCoppice := false }

def EvSt.init : EvSt :=
  { queue := [], closed := [], targets := [], nextId := 0, lastSeq := 0, lostNow := 0, beam := none, aliveLevel := false,
    aliveOn := false, tokens := 0, tokenFree := true, tokenHeld := false, lateRun := 0, safeNs := 0, junctionHot := false,
    junctionCrit := false }

/-- The block right after power-on reset: every register at its reset value, the Stacks zero, nothing queued. -/
def Chip.reset : Chip :=
  { part := .mh4160, regs := [], stkMem := [], out := [], firings := [], timeNs := 0, free := 0, boot := Boot.init,
    folio := Folio.init, maint := { h0 := none, h1 := none }, lanes := [], links := [], flows := [], queues := [],
    scheds := [], ev := EvSt.init,
    prefetch := [], taps := [], deferred := [],
    lateNow := [], fuses := Fuses.init, muni := Muni.init, copp := Copp.init, router := Router.init, stkBad := [],
    stkFilled := [],
    fwd := { reqs := [], stale := [], pos0 := false, apNext := false, apThird := false, missed := 0 },
    surf := Surf.init, heads := [], dps := [], hub := Hub.init, svcf := Svcf.init, svcp := Svcp.init, latches := [], pcie := Pcie.init,
    lpi := false, eth := Eth.init, pd := { ports := [], frs := .idle, loss := none, dpMode := false, failed := false }, budget := { granted := [], hold := false },
    seq := Seq.init, tap := .idcode, samples := [] }

/-- The machine right after reset (R9, R58): an MH4160 (DESIGN CHOICE, log entry 2) before power good, no command waiting. -/
def State.reset : State := { pending := [], chip := Chip.reset }

end Sys2Proof.Machine
end

