-- ==== Sys2Proof/Machine/Ops.lean ====
section
/-! DEFINITION. The named operations over registers, fields, memory, maintenance locks, queues and pending event firings. Every
meaning reads and writes the chip through these. -/

namespace Sys2Proof.Machine

/-! ## Registers and fields -/

/-- The value of a field of a word. -/
def Fld.get (f : Fld) (w : Word) : Nat := w.toNat / 2 ^ f.lo % 2 ^ f.width

/-- A word with one field replaced. -/
def Fld.put (f : Fld) (w : Word) (x : Nat) : Word :=
  BitVec.ofNat 32 (w.toNat - f.get w * 2 ^ f.lo + x % 2 ^ f.width * 2 ^ f.lo)

/-- The stored word of a register. -/
def Chip.reg (c : Chip) (a : Nat) : Word := cellsGet (regReset c.part) c.regs a

/-- The chip with the stored word of one register replaced. -/
def Chip.setReg (c : Chip) (a : Nat) (v : Word) : Chip :=
  { c with regs := cellsSet (regReset c.part) c.regs a v }

/-- The stored value of a field. -/
def Chip.fld (c : Chip) (f : Fld) : Nat := f.get (c.reg f.addr)

/-- Whether a one-bit field is 1. -/
def Chip.on (c : Chip) (f : Fld) : Bool := c.fld f != 0

/-- The chip with one field replaced. -/
def Chip.setFld (c : Chip) (f : Fld) (x : Nat) : Chip := c.setReg f.addr (f.put (c.reg f.addr) x)

/-- A saturating counter field raised by `n`. -/
def Chip.count (c : Chip) (f : Fld) (n : Nat := 1) : Chip :=
  c.setFld f (min (c.fld f + n) (2 ^ f.width - 1))

/-- The chip with a list of registers returned to their reset values. -/
def Chip.clearRegs (c : Chip) : List Nat → Chip
  | [] => c
  | a :: as => (c.setReg a (regReset c.part a)).clearRegs as

/-- Apply a step when a condition holds. -/
def Chip.when (c : Chip) (b : Bool) (f : Chip → Chip) : Chip := if b then f c else c

/-- What a command puts on the pins, the lanes or an endpoint. -/
def Chip.emit (c : Chip) (e : Emit) : Chip := { c with out := c.out ++ [e] }

/-- The number of the next free value, and the chip that has used it. -/
def Chip.fresh (c : Chip) : Nat × Chip := (c.free, { c with free := c.free + 1 })

/-! ## Pages (R4, R418, R419) -/

/-- A page that is present and enabled. -/
def Chip.pageOn (c : Chip) (p : Nat) : Bool := pagePresent c.part p && c.on (PAGE_CTRL.EN p)

/-- Every lane page of the link's port: 0x10–0x13 or 0x14–0x17. -/
def laneBase : Lnk → Nat
  | .ul => 0
  | .cs => 4

/-- The link a pair belongs to (R104): pairs 0–3 UL, 4–7 CS. -/
def lnkOf (l : Nat) : Lnk := if l < 4 then .ul else .cs

/-- The pairs of a link. -/
def pairs (k : Lnk) : List Nat := (List.range 4).map (laneBase k + ·)

/-! ## Event sources (R394–R398) -/

/-- A source fires: the firing waits for EVENT_FIRING. A source whose page is absent or disabled does not assert (R4,
R419). -/
def Chip.raise (c : Chip) (src detail : Nat) : Chip :=
  if c.pageOn (evSource src).page then
    { c with firings := c.firings ++ [{ src := src, detail := detail, forced := false }] }
  else c

/-- A source fires whose detail word no rule gives: the detail is a free value (log entry 3). -/
def Chip.raiseOpen (c : Chip) (src : Nat) : Chip :=
  let (n, c) := c.fresh
  c.raise src (Config.freeWord n).toNat

/-- The live condition of a source that lasts (EV_RAW, R398). -/
def Chip.setRaw (c : Chip) (src : Nat) (b : Bool) : Chip :=
  let s := evSource src
  c.setFld ⟨EV_RAW s.page, s.bit, 1⟩ (if b && c.pageOn s.page then 1 else 0)

/-- The configured reaction of a source (R394, R415). -/
def Chip.react (c : Chip) (src : Nat) : Nat := c.fld (EVT_SRC.REACT src)

/-! ## Time (log entry 6) -/

/-- The epoch count (R425): EPOCH_HI and EPOCH_LO as one number. -/
def Chip.epoch (c : Chip) : Nat := (c.reg EPOCH_HI).toNat * 2 ^ 32 + (c.reg EPOCH_LO).toNat

/-- Whether safe state is in force. -/
def Chip.safe (c : Chip) : Bool := c.on SAFE_STATUS.ACTIVE

/-- The power state, 0 for S0 (R315, R333). -/
def Chip.sstate (c : Chip) : Nat := c.fld PS_STATUS.STATE

/-- The operating point in force. -/
def Chip.op (c : Chip) : Nat := c.fld PS_STATUS.OP

/-- The operating point against which every check of R22 is made: the target of a lowering between its steps 2 and 4 (R329). -/
def Chip.fitOp (c : Chip) : Nat := if c.on PS_STATUS.LOWERING then c.seq.toOp.getD c.op else c.op

/-- Whether the core runs: start-up step 5 has ended (R54). -/
def Chip.coreUp (c : Chip) : Bool :=
  5 < c.boot.step || (c.boot.step == 5 && c.boot.rampNow != some .vcore && !c.boot.rampWait.contains .vcore)

/-! ## Units kept in sparse stores -/

def Chip.lane (c : Chip) (l : Nat) : LaneSt := cellsGet (fun _ => LaneSt.init) c.lanes l
def Chip.setLane (c : Chip) (l : Nat) (x : LaneSt) : Chip :=
  { c with lanes := cellsSet (fun _ => LaneSt.init) c.lanes l x }
def Chip.modLane (c : Chip) (l : Nat) (f : LaneSt → LaneSt) : Chip := c.setLane l (f (c.lane l))

def Chip.link (c : Chip) (k : Lnk) : LinkSt := cellsGet (fun _ => LinkSt.init) c.links k.idx
def Chip.setLink (c : Chip) (k : Lnk) (x : LinkSt) : Chip :=
  { c with links := cellsSet (fun _ => LinkSt.init) c.links k.idx x }
def Chip.modLink (c : Chip) (k : Lnk) (f : LinkSt → LinkSt) : Chip := c.setLink k (f (c.link k))

def Chip.flow (c : Chip) (f : Nat) : FlowEnt := cellsGet (fun _ => FlowEnt.init) c.flows f
def Chip.setFlow (c : Chip) (f : Nat) (x : FlowEnt) : Chip :=
  { c with flows := cellsSet (fun _ => FlowEnt.init) c.flows f x }
def Chip.modFlow (c : Chip) (f : Nat) (g : FlowEnt → FlowEnt) : Chip := c.setFlow f (g (c.flow f))

def Chip.sched (c : Chip) (k : Lnk) : Sched := cellsGet (fun _ => Sched.init) c.scheds k.idx
def Chip.setSched (c : Chip) (k : Lnk) (x : Sched) : Chip :=
  { c with scheds := cellsSet (fun _ => Sched.init) c.scheds k.idx x }
def Chip.modSched (c : Chip) (k : Lnk) (f : Sched → Sched) : Chip := c.setSched k (f (c.sched k))

/-- No router is active (R131, R388). -/
def Chip.noRouter (c : Chip) : Bool := c.fld ROUT_STATUS.STATE == 1

/-- The cells waiting to be sent on a flow of a link. -/
def Chip.outQ (c : Chip) (k : Lnk) (f : Nat) : List QCell := cellsGet (fun _ => []) c.queues (256 * k.idx + f)
def Chip.setOutQ (c : Chip) (k : Lnk) (f : Nat) (q : List QCell) : Chip :=
  { c with queues := cellsSet (fun _ => []) c.queues (256 * k.idx + f) q }

/-- The sequencer has raised VISL to what an island needs that raises its frequency (R330). -/
def Chip.raiseVisl (c : Chip) (need : Nat) : Chip :=
  (c.setFld PS_ISL.NEED (max need (c.fld PS_ISL.NEED))).setFld PS_ISL.VISL (max need (c.fld PS_ISL.VISL))

/-- The VISL codes that lanes, outputs, ports and pixel clocks need (R330). -/
def vislOfLane : Nat → Nat
  | 3 => 3
  | 2 => 2
  | _ => 1
def vislOfOutput : Nat → Nat
  | 6 => 2
  | 5 => 1
  | 4 => 1
  | _ => 0
def vislOfPort : Nat → Nat
  | 5 => 2
  | 4 => 1
  | _ => 0
def vislOfPixels (pclk : Nat) : Nat := if 2100000 < pclk then 1 else 0

/-! ## Endpoints that are not ready (R257, R259) -/

/-- An endpoint answers NAK, or on SuperSpeed NRDY, after which it owes ERDY. -/
def Chip.notReady (c : Chip) (e : HubEnd) : Chip :=
  let c := c.emit .nak
  let super := c.fld HUB_STATUS.UP == 2 || c.fld HUB_STATUS.UP == 3
  if super && !c.svcf.nrdy.contains e then { c with svcf := { c.svcf with nrdy := c.svcf.nrdy ++ [e] } } else c

/-- An endpoint that owes ERDY is ready. -/
def Chip.nowReady (c : Chip) (e : HubEnd) : Chip :=
  if c.svcf.nrdy.contains e then ({ c with svcf := { c.svcf with nrdy := c.svcf.nrdy.filter (· != e) } }).emit (.erdy e) else c

/-- A router is active again: the endpoints refused for want of one are ready, but a control endpoint whose request waits for a peer. -/
def Chip.fabricReady (c : Chip) : Chip :=
  c.svcf.nrdy.foldl (fun c e => if e == .control && c.svcf.busy then c else c.nowReady e) c

/-- The upstream connection or its reset ends what was owed. -/
def Chip.forgetReady (c : Chip) : Chip := { c with svcf := { c.svcf with nrdy := [] } }

/-! ## Bytes and words -/

/-- The byte `i` of a number, little-endian. -/
def byteOf (n i : Nat) : Byte := BitVec.ofNat 8 (n / 256 ^ i)

/-- The `n` low bytes of a number, little-endian. -/
def toBytes (n x : Nat) : List Byte := (List.range n).map (byteOf x)

/-- The number that bytes spell, little-endian. -/
def ofBytes : List Byte → Nat
  | [] => 0
  | b :: bs => b.toNat + 256 * ofBytes bs

/-- A list cut or filled with zeros to a length. -/
def fitBytes (n : Nat) (bs : List Byte) : List Byte := (bs ++ List.replicate (n - bs.length) 0).take n

/-- A list cut into runs of `n`. The fuel is its length. -/
def chunksAux {α : Type} (n : Nat) : Nat → List α → List (List α)
  | 0, _ => []
  | fuel + 1, bs => if bs.isEmpty then [] else bs.take n :: chunksAux n fuel (bs.drop n)

def chunks {α : Type} (n : Nat) (bs : List α) : List (List α) := chunksAux n (bs.length + 1) bs

/-! ## The local Stacks (R26, R75, R377): 4 GiB of bytes in bursts of 64 and granules of 256. A byte nothing has written
reads zero; a burst found or made uncorrectable reads as an error until it is written in full. -/

def stackSize : Nat := 0x100000000

def Chip.stk (c : Chip) (a : Nat) : Byte := cellsGet (fun _ => 0#8) c.stkMem a
def Chip.setStk (c : Chip) (a : Nat) (b : Byte) : Chip :=
  { c with stkMem := cellsSet (fun _ => 0#8) c.stkMem a b }

/-- The bytes from an address on. -/
def Chip.stkRead (c : Chip) (a n : Nat) : List Byte := (List.range n).map fun i => c.stk (a + i)

/-- Whether the granule of an address is filled (R75). -/
def Chip.granuleFilled (c : Chip) (a : Nat) : Bool :=
  c.on STAK_STATUS.FILLED || cellsGet (fun _ => false) c.stkFilled (a / 256)

/-- Whether the burst of an address reads as uncorrectable. -/
def Chip.burstBad (c : Chip) (a : Nat) : Bool := c.granuleFilled a && cellsGet (fun _ => false) c.stkBad (a / 64)

/-- The bursts that `n` bytes from an address on touch. -/
def burstsOf (a n : Nat) : List Nat := if n = 0 then [] else (List.range ((a + n - 1) / 64 + 1 - a / 64)).map (a / 64 + ·)

/-- Whether any of `n` bytes lies in an uncorrectable burst. -/
def Chip.stkBadIn (c : Chip) (a n : Nat) : Bool := (burstsOf a n).any fun b => c.burstBad (64 * b)

/-- Mark a burst uncorrectable, or sound. -/
def Chip.setBurstBad (c : Chip) (b : Nat) (bad : Bool) : Chip :=
  { c with stkBad := cellsSet (fun _ => false) c.stkBad b bad }

/-- Bytes stored from an address on, one by one. -/
def Chip.stkBytes (c : Chip) (a : Nat) : List Byte → Chip
  | [] => c
  | b :: bs => (c.setStk a b).stkBytes (a + 1) bs

/-- Write bytes from an address on: the granules touched count as filled, and a burst written whole loses its error. -/
def Chip.stkWrite (c : Chip) (a : Nat) (bs : List Byte) : Chip :=
  let n := bs.length
  let c := (burstsOf a n).foldl (fun c b =>
    let whole := decide (a ≤ 64 * b) && decide (64 * b + 64 ≤ a + n)
    let c := if whole || !c.granuleFilled (64 * b) then c.setBurstBad b false else c
    if c.on STAK_STATUS.FILLED then c
    else { c with stkFilled := cellsSet (fun _ => false) c.stkFilled (b / 4) true }) c
  c.stkBytes a bs

/-! ## Maintenance locks and units (R71, R94, R331) -/

/-- The three answers to a maintenance request. -/
inductive MaintAnswer where
  | granted | conflict | budget
  deriving DecidableEq, Repr

def Maint.holds (m : Maint) : List MaintHold := m.h0.toList ++ m.h1.toList

/-- Whether a lock is held. -/
def Chip.locked (c : Chip) (r : LockRes) : Bool := c.maint.holds.any fun h => h.locks.contains r

/-- Units held, 0–2. -/
def Chip.unitsHeld (c : Chip) : Nat := c.maint.holds.length

/-- Whether a ramp of a domain is in progress, in start-up or in a restart (R331). -/
def Chip.ramping (c : Chip) : Bool := match c.boot.rampNow with
  | some .vcore | some .vstk | some (.domain _) => true
  | _ => false

/-- What a request for locks and one unit would be answered: a held lock is refused first, then the budget (R94, R331). -/
def Chip.maintAnswer (c : Chip) (locks : List LockRes) : MaintAnswer :=
  if locks.any c.locked then .conflict
  else if c.sstate != 0 || 2 ≤ c.unitsHeld || c.ramping || c.safe then .budget
  else .granted

/-- Take the unit: HOLDER0 when it is free, HOLDER1 otherwise (R333). -/
def Chip.maintTake (c : Chip) (code : Nat) (locks : List LockRes) : Chip :=
  let h : MaintHold := { code := code, locks := locks }
  if c.maint.h0.isNone then { c with maint := { c.maint with h0 := some h } }
  else { c with maint := { c.maint with h1 := some h } }

/-- A refused request raises EV019 with its activity code and is counted (R331, R333). -/
def Chip.maintRefuse (c : Chip) (code : Nat) : Chip := (c.count PS_CNT.MAINT_REF).raise 19 code

/-- Request locks and a unit. -/
def Chip.maintRequest (c : Chip) (code : Nat) (locks : List LockRes) : MaintAnswer × Chip :=
  match c.maintAnswer locks with
  | .granted => (.granted, c.maintTake code locks)
  | .conflict => (.conflict, c.maintRefuse code)
  | .budget => (.budget, c.maintRefuse code)

/-- Release every unit whose activity satisfies a test, with its locks. -/
def Chip.maintDrop (c : Chip) (p : MaintHold → Bool) : Chip :=
  { c with maint :=
    { h0 := c.maint.h0.filter (fun h => !p h)
      h1 := c.maint.h1.filter (fun h => !p h) } }

/-- Release the unit that holds a lock. -/
def Chip.maintRelease (c : Chip) (r : LockRes) : Chip := c.maintDrop fun h => h.locks.contains r

/-! ## Messages -/

/-- A message cut into cells of 120 bytes: TYPE bits 2:0 give the class, MORE is set on all but the last cell (R112). -/
def cellsOfMessage (cls epoch : Nat) (bytes : List Byte) : List QCell :=
  let ps := if bytes.isEmpty then [[]] else chunks 120 bytes
  let n := ps.length
  (ps.zip (List.range n)).map fun (p, i) =>
    { typ := if i + 1 < n then 8 + cls else cls
      len := (p.length + 7) / 8
      payload := fitBytes 120 p
      epoch := epoch
      first := i == 0 }

/-- Credit class codes of TYPE bits 2:0 (R112). -/
def clsMgmt : Nat := 2
def clsNp : Nat := 3
def clsP : Nat := 4
def clsCpl : Nat := 5

/-- STATE of a flow (R140): flows 0–2 exist from the start of the core and are never FREE (R29). -/
def Chip.flowState (c : Chip) (f : Nat) : Nat := if f < 3 then 1 else c.fld (FLOW_STATE.STATE f)
/-- A flow that its deletion drains: DRAINING, or in REKEY_WAIT since it drains (R143, R368; DEDUCED, log entry 94). -/
def Chip.draining (c : Chip) (f : Nat) : Bool := c.flowState f == 2 || c.flowState f == 3 && (c.flow f).drain != 0
def Chip.flowClass (c : Chip) (f : Nat) : Nat := c.fld (FLOW_CFG.CLASS f)
def Chip.isIso (c : Chip) (f : Nat) : Bool := 3 ≤ f && f < 256 && c.flowClass f == 2

/-- Cells reach the fabric to be sent on a flow of a link: those of an ISO flow during a fail-over and those of a FAILED flow are
discarded and counted (R160, R389). -/
def Chip.queueCells (c : Chip) (k : Lnk) (f : Nat) (xs : List QCell) : Chip :=
  if c.router.phase != 0 && c.isIso f then c.count STBY_ISO_DROP.COUNT xs.length
  else if c.flowState f = 4 then c.count (FLOW_CNT.OVER f) xs.length
  else c.setOutQ k f (c.outQ k f ++ xs)

/-- Uncorrectable bursts of a range of the Stacks that is read are counted (R430). -/
def Chip.countBad (c : Chip) (a n : Nat) : Chip :=
  c.count STAK_ECC.UNCOR ((burstsOf a n).filter fun b => c.burstBad (64 * b)).length

/-- Send a message on a flow of a link: queued as cells, or handed to the key/crypto engine, whose command SEAL takes it, when the
flow is encrypted (R365). -/
def Chip.queueMsg (c : Chip) (k : Lnk) (f cls : Nat) (bytes : List Byte) : Chip :=
  if c.on (FLOW_CFG.ENC f) then c.emit (.toSeal f cls bytes)
  else c.queueCells k f (cellsOfMessage cls c.epoch bytes)

/-- Queue a link management cell, or an urgent one (R108, R109). -/
def Chip.queueLmc (c : Chip) (k : Lnk) (code : Nat) (body : List Byte) : Chip :=
  c.modLink k fun x => { x with lmcs := x.lmcs ++ [{ code := code, body := body }] }
def Chip.queueUrgent (c : Chip) (k : Lnk) (code : Nat) (body : List Byte) : Chip :=
  c.modLink k fun x => { x with lmcs := x.lmcs ++ [{ code := code, body := body, urgent := true }] }

end Sys2Proof.Machine
end

