-- ==== Sys2Proof/Machine/Wire.lean ====
section
/-! DEFINITION. The wire: levels and precoding, the marker, the scrambler, the RS(528,512) code, the cell header and the CRCs
(R77–R82, R105, R111). A level is coded 0 to 3 for −3, −1, +1, +3, so that a PAM4 symbol value is its level. -/

namespace Sys2Proof.Machine

/-! ## Bits -/

/-- The `n` low bits of a number, most significant first. -/
def bitsMsb (n x : Nat) : List Bool := (List.range n).map fun i => x.testBit (n - 1 - i)

/-- The number that bits spell, most significant first. -/
def ofBitsMsb (bs : List Bool) : Nat := bs.foldl (fun a b => 2 * a + b.toNat) 0

/-- Bytes as bits, the most significant bit of each byte first (R105). -/
def bitsOfBytes (bs : List Byte) : List Bool := bs.flatMap fun b => bitsMsb 8 b.toNat

/-- Bits as bytes, most significant bit first. -/
def bytesOfBits (bs : List Bool) : List Byte := (chunks 8 bs).map fun c => BitVec.ofNat 8 (ofBitsMsb c)

/-! ## CRCs -/

/-- One step of a CRC of width `w` with polynomial `poly`, most significant bit first. -/
def crcStep (w poly r : Nat) (b : Bool) : Nat :=
  let top := r.testBit (w - 1) != b
  let s := 2 * r % 2 ^ w
  if top then s ^^^ poly else s

/-- CRC-8 of the marker: x^8 + x^2 + x + 1, initial value 0xFF (R82). -/
def crc8 (bs : List Bool) : Nat := bs.foldl (crcStep 8 0x07) 0xFF

/-- CRC-16 of the cell header: x^16 + x^12 + x^5 + 1, initial value 0xFFFF (R111). -/
def crc16 (bs : List Bool) : Nat := bs.foldl (crcStep 16 0x1021) 0xFFFF

/-- One byte of the CRC-32, least significant bit first. -/
def crc32Byte (r : Nat) (b : Byte) : Nat :=
  (List.range 8).foldl (fun x _ => if x.testBit 0 then x / 2 ^^^ 0xEDB88320 else x / 2) (r ^^^ b.toNat)

/-- CRC-32 of a byte string (R62). The spec names no parameters; the reflected polynomial 0x04C11DB7 with initial value and
final inversion of all ones is PRESUMED (log entry 5). -/
def crc32 (bs : List Byte) : Nat := bs.foldl crc32Byte 0xFFFFFFFF ^^^ 0xFFFFFFFF

/-! ## Symbols and precoding (R77, R79) -/

/-- The PAM4 symbol value of a pair of bits, earlier bit first. -/
def graySymbol : Bool → Bool → Nat
  | false, false => 0
  | false, true => 1
  | true, true => 2
  | true, false => 3

/-- The pair of bits of a symbol value. -/
def grayBits : Nat → List Bool
  | 0 => [false, false]
  | 1 => [false, true]
  | 2 => [true, true]
  | _ => [true, false]

/-- Bits as PAM4 symbol values. -/
def pam4 : List Bool → List Nat
  | a :: b :: bs => graySymbol a b :: pam4 bs
  | _ => []

/-- Precoding: y_n = (x_n − y_{n−1}) mod 4, from the state `y`. -/
def precode (y : Nat) : List Nat → List Nat
  | [] => []
  | x :: xs => let v := (x + 4 - y) % 4; v :: precode v xs

/-- Its inverse: x_n = (y_n + y_{n−1}) mod 4, from the state `y`. -/
def unprecode (y : Nat) : List Nat → List Nat
  | [] => []
  | v :: vs => (v + y) % 4 :: unprecode v vs

/-! ## The marker (R81, R82) -/

/-- The comma as 32 bits; each PAM4 comma level is sent as two NRZ bits (R81). -/
def commaWord : Nat := 0xFF0CF030

/-- The comma levels: 16 in PAM4, 32 in NRZ. -/
def commaLevels (nrz : Bool) : List Nat :=
  let bs := bitsMsb 32 commaWord
  if nrz then bs.map fun b => if b then 3 else 0
  else (List.range 16).map fun i => if bs.getD (2 * i) false then 3 else 0

/-- A marker's fields below the comma (R82). -/
structure Marker where
  lane : Nat
  lstate : Nat
  pre : Nat
  epb : Nat
  bcnt : Nat
  deriving DecidableEq, Repr

/-- Bits 31:8 of a marker. -/
def Marker.body (m : Marker) : Nat :=
  m.lane % 4 * 2 ^ 22 + m.lstate % 4 * 2 ^ 20 + m.pre % 2 * 2 ^ 19 + m.epb % 2 * 2 ^ 18 + m.bcnt % 65536

/-- Bits 31:0 of a marker, MCRC included. -/
def Marker.word (m : Marker) : Nat := m.body * 256 + crc8 (bitsMsb 24 m.body)

/-- The fields of marker bits 31:0, or none when MCRC fails. -/
def Marker.ofWord (w : Nat) : Option Marker :=
  if crc8 (bitsMsb 24 (w / 256 % 2 ^ 24)) == w % 256 then
    some { lane := w / 2 ^ 30 % 4, lstate := w / 2 ^ 28 % 4, pre := w / 2 ^ 27 % 2, epb := w / 2 ^ 26 % 2,
           bcnt := w / 256 % 65536 }
  else none

/-! ## The scrambler (R78) -/

/-- The first state of a block's scrambler. -/
def scrambleSeed (bcnt lane : Nat) : Nat := 0x96A5C3E1F0 * 2 ^ 18 + bcnt % 65536 * 4 + lane % 4

/-- The keystream of the additive scrambler x^58 + x^39 + 1 from a state (its orientation is DEDUCED, log entry 7). -/
def scrambleBits : Nat → Nat → List Bool
  | 0, _ => []
  | n + 1, s =>
    let b := s.testBit 57 != s.testBit 38
    b :: scrambleBits n (2 * s % 2 ^ 58 + b.toNat)

/-- Scrambling, which is its own inverse. -/
def scramble (bcnt lane : Nat) (bs : List Bool) : List Bool :=
  (bs.zip (scrambleBits bs.length (scrambleSeed bcnt lane))).map fun (a, b) => a != b

/-! ## RS(528,512) over GF(2^10) (R105) -/

/-- Multiplication by α, modulo x^10 + x^3 + 1. -/
def gfDouble (a : Nat) : Nat := let s := 2 * a; if s.testBit 10 then s ^^^ 0x409 else s

/-- Multiplication in GF(2^10), over the ten bits of the second factor from the top. -/
def gfMul (a b : Nat) : Nat :=
  (List.range 10).foldl (fun r i => let s := gfDouble r; if b.testBit (9 - i) then s ^^^ a else s) 0

/-- Powers. -/
def gfPow (a : Nat) : Nat → Nat
  | 0 => 1
  | n + 1 => gfMul (gfPow a n) a

/-- The inverse, a^1022. -/
def gfInv (a : Nat) : Nat := gfPow a 1022

/-- α^i. -/
def gfAlpha (i : Nat) : Nat := gfPow 2 (i % 1023)

/-- Value of a polynomial, highest coefficient first. -/
def gfEvalHigh (p : List Nat) (x : Nat) : Nat := p.foldl (fun r c => gfMul r x ^^^ c) 0

/-- Value of a polynomial, lowest coefficient first. -/
def gfEvalLow (p : List Nat) (x : Nat) : Nat := gfEvalHigh p.reverse x

/-- The generator polynomial, the product of (x − α^i) for i from 0 to 15, highest coefficient first without the leading 1. -/
def rsGenerator : List Nat :=
  let times (g : List Nat) (r : Nat) : List Nat :=
    ((g ++ [0]).zip (0 :: g)).map fun (a, b) => a ^^^ gfMul r b
  ((List.range 16).foldl (fun g i => times g (gfAlpha i)) [1]).drop 1

/-- The 16 parity symbols of data symbols. -/
def rsParity (data : List Nat) : List Nat :=
  let g := rsGenerator
  data.foldl (fun r d =>
    let f := d ^^^ r.headD 0
    ((r.drop 1 ++ [0]).zip g).map fun (x, c) => x ^^^ gfMul f c) (List.replicate 16 0)

/-- State of the Berlekamp–Massey iteration; polynomials are lowest coefficient first. -/
structure BmState where
  c : List Nat
  b : List Nat
  len : Nat
  m : Nat
  bd : Nat

def bmStep (syn : List Nat) (s : BmState) (n : Nat) : BmState :=
  let d := (List.range (s.len + 1)).foldl (fun r i => r ^^^ gfMul (s.c.getD i 0) (if i ≤ n then syn.getD (n - i) 0 else 0)) 0
  if d = 0 then { s with m := s.m + 1 }
  else
    let f := gfMul d (gfInv s.bd)
    let sh := List.replicate s.m 0 ++ s.b.map (gfMul f)
    let w := max s.c.length sh.length
    let c' := (List.range w).map fun i => s.c.getD i 0 ^^^ sh.getD i 0
    if 2 * s.len ≤ n then { c := c', b := s.c, len := n + 1 - s.len, m := 1, bd := d }
    else { s with c := c', m := s.m + 1 }

/-- The 16 syndromes of a received word of 528 symbols, first symbol highest. -/
def rsSyndromes (r : List Nat) : List Nat := (List.range 16).map fun i => gfEvalHigh r (gfAlpha i)

/-- The decoded word and how many symbols were corrected; none when there are more errors than 8 can be corrected. -/
def rsDecode (r : List Nat) : Option (List Nat × Nat) :=
  let syn := rsSyndromes r
  if syn.all (· == 0) then some (r, 0)
  else
    let s := (List.range 16).foldl (bmStep syn) { c := [1], b := [1], len := 0, m := 1, bd := 1 }
    let lam := s.c.take (s.len + 1)
    let xinv (j : Nat) : Nat := gfAlpha (1023 - (527 - j) % 1023)
    let bad := (List.range 528).filter fun j => gfEvalLow lam (xinv j) == 0
    if 8 < s.len || bad.length != s.len then none
    else
      let om := (List.range 16).map fun i =>
        (List.range (i + 1)).foldl (fun t j => t ^^^ gfMul (lam.getD j 0) (syn.getD (i - j) 0)) 0
      let dl := (List.range s.len).map fun i => if i % 2 = 0 then lam.getD (i + 1) 0 else 0
      let fix (j : Nat) : Nat :=
        let xi := xinv j
        gfMul (gfMul (gfInv xi) (gfEvalLow om xi)) (gfInv (gfEvalLow dl xi))
      let r' := (r.zip (List.range 528)).map fun (v, j) => if bad.contains j then v ^^^ fix j else v
      if (rsSyndromes r').all (· == 0) then some (r', s.len) else none

/-! ## Cells (R111, R112) -/

/-- The 8 header bytes of a cell. -/
def cellHeader (c : Cell) : List Byte :=
  let top := c.flow % 512 * 2 ^ 39 + c.typ % 16 * 2 ^ 35 + c.len % 128 * 2 ^ 28 + c.seq % 65536 * 2 ^ 12 + c.cret % 4096
  let w := top * 65536 + crc16 (bitsMsb 48 top)
  (List.range 8).map fun i => BitVec.ofNat 8 (w / 256 ^ (7 - i))

/-- The 128 bytes of a cell. -/
def cellBytes (c : Cell) : List Byte := cellHeader c ++ fitBytes 120 c.payload

/-- A cell from 128 bytes, or none when HCRC fails (R113). Payload bytes beyond LEN × 8 are ignored. -/
def cellOfBytes (bs : List Byte) : Option Cell :=
  let w := (bs.take 8).foldl (fun a b => a * 256 + b.toNat) 0
  let top := w / 65536
  if crc16 (bitsMsb 48 top) == w % 65536 then
    let len := top / 2 ^ 28 % 128
    some { flow := top / 2 ^ 39 % 512, typ := top / 2 ^ 35 % 16, len := len, seq := top / 2 ^ 12 % 65536,
           cret := top % 4096, payload := fitBytes 120 ((bs.drop 8).take (8 * len)) }
  else none

/-- An IDLE cell. -/
def idleCell : Cell := { flow := 0, typ := 0, len := 0, seq := 0, cret := 0, payload := [] }

/-- A link management cell: CODE and its fields (R122). The spec gives it no LEN: LEN is 15, the whole payload (DESIGN CHOICE, log
entry 84). -/
def lmcCell (m : Lmc) : Cell :=
  { flow := 0, typ := 1, len := 15, seq := 0, cret := 0, payload := fitBytes 120 (BitVec.ofNat 8 m.code :: m.body) }

/-! ## Blocks -/

/-- The levels of a block: comma, marker and scrambled codeword (R77–R82, R105). -/
def encodeBlock (nrz : Bool) (m : Marker) (cells : List Cell) : List Nat :=
  let bits := bitsOfBytes (cells.flatMap cellBytes)
  let data := (chunks 10 bits).map ofBitsMsb
  let word := (data ++ rsParity data).flatMap (bitsMsb 10)
  let rest := bitsMsb 32 m.word ++ scramble m.bcnt m.lane word
  if nrz then commaLevels true ++ rest.map fun b => if b then 3 else 0
  else commaLevels false ++ (if m.pre = 1 then precode 0 (pam4 rest) else pam4 rest)

/-- How many comma levels match (R84). -/
def commaMatches (nrz : Bool) (levels : List Nat) : Nat :=
  ((commaLevels nrz).zip levels).countP fun (a, b) => if nrz then (a == 3) == decide (2 ≤ b) else a == b

/-- Whether a comma counts as present: 14 of 16 symbols in PAM4, 28 of 32 bits in NRZ (R84). -/
def commaPresent (nrz : Bool) (levels : List Nat) : Bool :=
  if nrz then 28 ≤ commaMatches true levels else 14 ≤ commaMatches false levels

/-- The bits after the comma, precoding undone when it is in force. -/
def bitsAfterComma (nrz pre : Bool) (levels : List Nat) : List Bool :=
  if nrz then (levels.drop 32).map fun v => decide (2 ≤ v)
  else
    let xs := levels.drop 16
    (if pre then unprecode 0 xs else xs).flatMap grayBits

/-- Outcome of a codeword (R106): cells by slot, a slot whose HCRC fails being none, and the symbols corrected; none when
UNCORRECTABLE. -/
def decodeCodeword (bcnt lane : Nat) (bits : List Bool) : Option (List (Option Cell) × Nat) :=
  let word := (chunks 10 (scramble bcnt lane bits)).map ofBitsMsb
  (rsDecode word).map fun (w, n) =>
    let bytes := bytesOfBits ((w.take 512).flatMap (bitsMsb 10))
    ((chunks 128 bytes).map cellOfBytes, n)

end Sys2Proof.Machine
end

