-- ==== Sys2Proof/Machine/Peers.lean ====
section
/-! DEFINITION. What the bridge and the cascade block share before any request is taken: the position of the device, the layout
of data in a message, the error log, answering a forwarded request, and the loss of a peer (R172–R174, R178, R179, R183–R186,
R334–R344). -/

namespace Sys2Proof.Machine

/-! ## Position and the links of a cascade (R334–R339) -/

/-- Paired follower or master, from the strap; a tied strap of the MH4142 is ignored (R43). -/
def Chip.pairedFollower (c : Chip) : Bool := c.part == .mh4160 && c.fld STRAP_STATUS.CASC_ROLE == 1
def Chip.pairedMaster (c : Chip) : Bool := c.part == .mh4160 && c.fld STRAP_STATUS.CASC_ROLE == 2
def Chip.paired (c : Chip) : Bool := c.pairedFollower || c.pairedMaster

/-- The link towards the master. -/
def Chip.tLink (c : Chip) : Lnk := if c.pairedFollower then .cs else .ul

/-- The link away from the master; the follower and the MH4142 have none. -/
def Chip.aLink (c : Chip) : Option Lnk := if c.part == .mh4142 || c.pairedFollower then none else some .cs

/-- The position the device holds. -/
def Chip.position (c : Chip) : Option Nat :=
  if c.pairedMaster then some 0
  else if c.pairedFollower then some 1
  else if c.on CASC_POSN.VALID then some (c.fld CASC_POSN.POS)
  else if c.fwd.pos0 then some 0
  else none

/-- The device is the master (R26, R335). -/
def Chip.master (c : Chip) : Bool := c.position == some 0

/-- The device decodes the ranges of its peers: the master, and no MH4142 (R27, R337). -/
def Chip.decodesPeers (c : Chip) : Bool := c.master && c.part == .mh4160

/-- A link that CASC records as a cascade link (R171, R339). -/
def Chip.cascadeLink (c : Chip) (k : Lnk) : Bool :=
  c.aLink == some k || (k == c.tLink && c.position.any (1 ≤ ·))

/-- A link is UP (LINK_STATUS.STATE 2). -/
def Chip.upNow (c : Chip) (k : Lnk) : Bool := c.fld (LINK_STATUS.STATE k.idx) == 2

/-- The Caraxline mode of a link's port is in force (R24): PD_STATUS.MODE reads 2 (R314). -/
def Chip.native (c : Chip) (k : Lnk) : Bool := c.fld (PD_STATUS.MODE k.idx) == 2

/-- Flow 2 takes part in the delivery of events (R400). -/
def Chip.flow2Part (c : Chip) : Bool := c.native .ul && c.on EVT_CTRL.FLOW2_EN

/-- The PART of a link's partner, 0 for none (R122, R351). -/
def Chip.partnerPart (c : Chip) (k : Lnk) : Nat := match (c.link k).partner with
  | some a => a.part.toNat
  | none => 0

/-- The link that leads towards a position; none for the device's own, either when the device holds no position. -/
def Chip.linkTo (c : Chip) (pos : Nat) (k : Lnk) : Bool :=
  match c.position with
  | none => true
  | some q => if q < pos then c.aLink == some k else if pos < q then c.tLink == k else false

/-- A position holds a device that CASC reports present (R173, R342): at the master by PRESENT, elsewhere beyond the device by
BEYOND; towards the master none is ever reported absent while the Caraxline mode of the T-link lasts, which failed training ends (R125, R186). A
device without a position reports none absent either. -/
def Chip.present (c : Chip) (pos : Nat) : Bool :=
  match c.position with
  | none => c.native .ul || c.native .cs
  | some q =>
    if q = 0 then (c.fld CASC_STATUS.PRESENT).testBit (pos - 1) && 0 < pos
    else if pos < q then c.native c.tLink && c.fld (LINK_STATUS.STATE c.tLink.idx) != 7
    else q < pos && pos ≤ q + c.fld CASC_STATUS.BEYOND

/-! ## Data in doublewords and byte order (R172, R174) -/

/-- The byte offset of the target doubleword that payload byte `q` holds; the map is its own inverse. -/
def omap (order width q : Nat) : Nat :=
  match order with
  | 1 => 7 - q
  | 2 => q ^^^ [7, 6, 4, 0].getD width 0
  | _ => q

/-- Doublewords that `n` bytes from an address on touch. -/
def dwords (a n : Nat) : Nat := if n = 0 then 0 else (a + n - 1) / 8 - a / 8 + 1

/-- Cells of a message that carries `d` doublewords behind the header. -/
def cellsFor (d : Nat) : Nat := 1 + (d - 13 + 14) / 15

/-- Accessed bytes laid out in doublewords; bytes outside the access are zero. -/
def layOut (order width a : Nat) (bs : List Byte) : List Byte :=
  (List.range (8 * dwords a bs.length)).map fun i =>
    let x := 8 * (a / 8 + i / 8) + omap order width (i % 8)
    if a ≤ x then bs.getD (x - a) 0 else 0

/-- The `n` accessed bytes taken out of doublewords. -/
def takeOut (order width a n : Nat) (payload : List Byte) : List Byte :=
  (List.range n).map fun i => payload.getD (8 * ((a + i) / 8 - a / 8) + omap order width ((a + i) % 8)) 0

/-! ## The error log and the counts of a window (R178, R179, R187, R188) -/

/-- The detail word of the bridge's sources. -/
def bridgeDetail (win status flow : Nat) : Nat := win * 2 ^ 28 + status * 2 ^ 16 + flow % 256

/-- A request to a window ended with a status other than OK. -/
def Chip.countWinError (c : Chip) (win : Option Nat) (status : Nat) : Chip :=
  match win with
  | some w => if status = 0 then c else c.count (WIN_CNT.ERRORS w)
  | none => c

/-- A failure assigned to the log: an entry and EV096, or LOG_OVF and EV099 when 16 are held. -/
def Chip.logFailure (c : Chip) (win : Option Nat) (status flow addr pos : Nat) : Chip :=
  let w := win.getD 0
  let n := c.fld BRDG_STATUS.LOG_COUNT
  if 16 ≤ n then (c.setFld BRDG_STATUS.LOG_OVF 1).raise 99 (bridgeDetail w status flow)
  else
    let i := (c.fld BRDG_STATUS.LOG_OLDEST + n) % 16
    let head := 2 ^ 31 + status * 2 ^ 16 + flow % 256 * 2 ^ 8 + (if win.isNone then 16 else 0) + w
    let c := (c.setReg (BLOG i 0) (BitVec.ofNat 32 head)).setReg (BLOG i 1) (BitVec.ofNat 32 addr)
    let c := (c.setReg (BLOG i 2) (BitVec.ofNat 32 (pos % 4 * 2 ^ 24 + addr / 2 ^ 32 % 256))).setReg (BLOG i 3)
      (BitVec.ofNat 32 c.epoch)
    (c.setFld BRDG_STATUS.LOG_COUNT (n + 1)).raise 96 (bridgeDetail w status flow)

/-! ## Answers (R170, R178) -/

/-- A completion: WIDTH, ABS, WIN, TAG, COUNT and ADDR of the request's header, its OP and STATUS replaced, the bits that R170 fixes
at zero zero, and the data. -/
def completionBytes (hdr : List Byte) (status : Nat) (data : List Byte) : List Byte :=
  let op := if hdr.getD 0 0 = 0x01#8 then 0x81#8 else 0x82#8
  let hdr := fitBytes 16 hdr
  [op, hdr.getD 1 0 &&& 0xEF, hdr.getD 2 0, hdr.getD 3 0 &&& 0x0F, hdr.getD 4 0, hdr.getD 5 0, BitVec.ofNat 8 status, 0] ++
    (hdr.drop 8).take 5 ++ [0, 0, 0] ++ data

/-- The class a completion travels in: MGT on flow 1, CPL elsewhere (R171). -/
def cplClass (f : Nat) : Nat := if f = 1 then clsMgmt else clsCpl

/-- A completion goes back to the sender of its request, with EV101 for a DATA_ERROR of a read. -/
def Chip.answer (c : Chip) (k : Lnk) (f : Nat) (win : Option Nat) (hdr : List Byte) (status : Nat) (data : List Byte) : Chip :=
  let c := (c.countWinError win status).queueMsg k f (cplClass f) (completionBytes hdr status data)
  if status = 9 && f != 1 then c.raise 101 (bridgeDetail (win.getD 0) status f) else c

/-! ## Prefetch buffers (R180–R182) -/

/-- A read-ahead under way, as the buffer it would fill. -/
def FwdReq.ahead? (r : FwdReq) (epoch : Nat) : Option (Nat × PrefetchBuf) := match r.asker with
  | .readAhead w k =>
    some (w, { addr := r.here, data := List.replicate (r.count * 2 ^ r.width) 0, epoch := epoch, lnk := k, used := [], bad := [] })
  | _ => none

/-- The answers of read-aheads under way are not used, those whose buffers satisfy a test. -/
def Chip.voidAhead (c : Chip) (p : Nat → PrefetchBuf → Bool) : Chip :=
  let void (r : FwdReq) : FwdReq := if (r.ahead? c.epoch).any fun b => p b.1 b.2 then { r with asker := .gone } else r
  { c with fwd := { c.fwd with reqs := c.fwd.reqs.map void } }

/-- Buffers are discarded, with what read-aheads under way would have put there, and the doublewords no READ has used are counted
(R182). -/
def Chip.discardPrefetch (c : Chip) (p : Nat → PrefetchBuf → Bool) : Chip :=
  let gone := c.prefetch.filter fun b => p b.1 b.2
  let n := (gone.map fun b => dwords b.2.addr b.2.data.length - b.2.used.length).sum
  let c := if n = 0 then c else c.count PF_DISCARD.COUNT n
  let c := c.voidAhead p
  { c with prefetch := c.prefetch.filter fun b => !p b.1 b.2 }

/-- A write over a range of target addresses discards the buffers it overlaps. -/
def Chip.discardOver (c : Chip) (a n : Nat) : Chip :=
  c.discardPrefetch fun _ b => decide (a < b.addr + b.data.length) && decide (b.addr < a + n)

/-- A window's buffer is filled, replacing what it held. -/
def Chip.fillPrefetch (c : Chip) (w : Nat) (k : Lnk) (a : Nat) (bs : List Byte) (bad : List Nat) : Chip :=
  let rest := c.prefetch.filter fun b => b.1 != w
  if bs.isEmpty then { c with prefetch := rest }
  else
    let b : PrefetchBuf := { addr := a, data := bs, epoch := c.epoch, lnk := k, used := [], bad := bad }
    { c with prefetch := rest ++ [(w, b)] }

/-! ## Forwarded requests (R183–R186) -/

/-- The bytes of a request's access. -/
def FwdReq.span (r : FwdReq) : Nat := r.count * 2 ^ r.width

/-- Cells of its completion, and of the request itself (R172). -/
def FwdReq.cplCells (r : FwdReq) : Nat := if r.write then 1 else cellsFor (dwords r.addr r.span)
def FwdReq.reqCells (r : FwdReq) : Nat := if r.write then cellsFor (dwords r.addr r.span) else 1

/-- The message that carries it, ABS and in NATIVE order (R168, R175). -/
def FwdReq.bytes (r : FwdReq) : List Byte :=
  [if r.write then 0x02#8 else 0x01#8, BitVec.ofNat 8 (r.width * 64 + 32)] ++ toBytes 2 (r.tag.getD 0) ++ toBytes 2 r.count ++
    [0, 0] ++ toBytes 8 r.addr ++ (if r.write then layOut 0 r.width r.addr r.data else [])

/-- The request belongs to the bridge's initiator side: it counts in TAGS and times out with EV097. -/
def FwdReq.bridged (r : FwdReq) : Bool := match r.asker with
  | .sender .. | .readAhead .. | .svcf | .svcp | .gone => true
  | _ => false

/-- BRDG_STATUS.TAGS follows the requests outstanding. -/
def Chip.syncTags (c : Chip) : Chip :=
  c.setFld BRDG_STATUS.TAGS (c.fwd.reqs.filter fun r => r.bridged && r.tag.isSome).length

/-- Tags in use or not yet free, and the lowest free one (R183, R185). -/
def Chip.freeTag (c : Chip) : Option Nat :=
  (List.range 256).find? fun t => !c.fwd.stale.contains t && !c.fwd.reqs.any fun r => r.tag == some t

/-- Cells of a link's CPL pool, or for flow 1 of its MGT pool, reserved for completions that are outstanding (R121); the CPL pool also
holds those of the PCIe tunnel. -/
def Chip.reserved (c : Chip) (k : Lnk) (flow1 : Bool) : Nat :=
  ((c.fwd.reqs.filter fun r => r.lnk == k && r.tag.isSome && (r.pflow == 1) == flow1).map FwdReq.cplCells).sum +
    (if flow1 then 0 else ((c.pcie.upReqs.filter fun r => r.lnk == k).map PepUp.cells).sum)

/-- Take a request off the list. -/
def Chip.dropReq (c : Chip) (r : FwdReq) : Chip :=
  let c := { c with fwd := { c.fwd with reqs := c.fwd.reqs.erase r } }
  c.syncTags

/-! ## What the service function and the service port ask of a peer (R255, R257, R339, R427–R429) -/

/-- The request at the next register of the same peer slot, if the slot has one. -/
def FwdReq.next? (r : FwdReq) : Option FwdReq :=
  if r.addr + 4 < 0x40000 then some { r with addr := r.addr + 4, here := r.here + 4, tag := none } else none

/-- A request joins those that wait. -/
def Chip.addReq (c : Chip) (r : FwdReq) : Chip := { c with fwd := { c.fwd with reqs := c.fwd.reqs ++ [r] } }

/-- Nobody waits any more for the answers to some requests. -/
def Chip.unasked (c : Chip) (x : Asker) : Chip :=
  { c with fwd := { c.fwd with reqs := c.fwd.reqs.map fun r => if r.asker = x then { r with asker := .gone } else r } }

/-- The service function is on port 7 of the hub. -/
def svcfPort : Nat := 7

/-- A register or Stacks request of the service function ends: LAST_STATUS shows it, and the data or status stage is answered. -/
def Chip.svcfEnd (c : Chip) (req addr status : Nat) (data : List Byte) : Chip :=
  let c := { c with svcf := { c.svcf with lastAddr := if status = 0 then 0 else addr, busy := false } }
  let c := ((c.setFld SVCF_STATUS.LAST_REQ req).setFld SVCF_STATUS.RESULT status).nowReady .control
  if status = 0 || status = 9 then c.emit (if req % 2 = 0 then .statusStage else .svcf data)
  else (((c.count SVCF_STATUS.REFUSED).count LMGT_CNT.SVCF).raise 164 svcfPort).emit .stall

/-- A peer has answered a request of the service function. -/
def Chip.svcfDone (c : Chip) (r : FwdReq) (status : Nat) (data : List Byte) : Chip :=
  c.svcfEnd (if r.write then 2 else 1) r.here status data

def Chip.modSvcp (c : Chip) (f : Svcp → Svcp) : Chip := { c with svcp := f c.svcp }

/-- A word of the service port is refused (R429). -/
def Chip.svcpRefuse (c : Chip) (status : Nat) : Chip :=
  ((c.setFld SVCP_STATUS.RESULT status).count SVCP_STATUS.REFUSED).count LMGT_CNT.SVCP

/-- The rest of a write transaction is not acknowledged after a refused word. -/
def Chip.svcpReject (c : Chip) (status : Nat) : Chip :=
  ((c.svcpRefuse status).modSvcp fun x => { x with refused := true, todo := [], part := [] }).emit .nack

/-- A word that is refused reads as ones. -/
def Chip.svcpOnes (c : Chip) (status : Nat) : Chip :=
  ((c.svcpRefuse status).modSvcp fun x => { x with read := x.read.map fun p => (p.1, p.2 + 4) }).emit (.svcp (List.replicate 4 0xFF#8))

/-- A peer has performed a word of a write, or refused it: the next word of the transaction follows. -/
def Chip.svcpWrote (c : Chip) (r : FwdReq) (status : Nat) : Chip :=
  let c := c.modSvcp fun x => { x with waiting := false }
  if status != 0 then c.svcpReject status
  else
    let c := c.modSvcp fun x => { x with addr := x.addr + 4 }
    if c.svcp.todo.isEmpty && c.svcp.part.isEmpty then c
    else match r.next? with
      | none => c.svcpReject 1
      | some n =>
        if c.svcp.todo.isEmpty then c
        else (c.addReq { n with data := c.svcp.todo.take 4 }).modSvcp fun x => { x with waiting := true, todo := x.todo.drop 4 }

/-- A peer has answered a word of a read: the next word due follows. -/
def Chip.svcpGot (c : Chip) (r : FwdReq) (status : Nat) (data : List Byte) : Chip :=
  let c := if status = 0 then (c.modSvcp fun x => { x with read := x.read.map fun p => (p.1, p.2 + 4) }).emit (.svcp data)
    else c.svcpOnes status
  let n := c.svcp.due - 1
  let c := c.modSvcp fun x => { x with waiting := false, due := n }
  if n = 0 then c
  else match r.next? with
    | some x => (c.addReq x).modSvcp fun y => { y with waiting := true }
    | none => ((List.range n).foldl (fun c _ => c.svcpOnes 1) c).modSvcp fun x => { x with due := 0 }

/-- A peer has answered the service port. -/
def Chip.svcpDone (c : Chip) (r : FwdReq) (status : Nat) (data : List Byte) : Chip :=
  if r.write then c.svcpWrote r status else c.svcpGot r status data

/-- A request ends with a status and, for a read, its bytes: its tag and reservation are released and who asked is answered.
A poll's answer is taken by the cascade block, not here. R180 does not say which bursts of a read-ahead that ends with DATA_ERROR are
bad: all of them (DESIGN CHOICE, log entry 79). -/
def Chip.endReq (c : Chip) (r : FwdReq) (status : Nat) (data : List Byte) : Chip :=
  let c := c.dropReq r
  let data := if r.write || !(status = 0 || status = 9) then [] else data
  match r.asker with
  | .sender k f _ hdr order => c.answer k f r.win hdr status (layOut order r.width r.here data)
  | .readAhead w k =>
    if data.isEmpty then c
    else c.fillPrefetch w k r.here data (if status = 9 then burstsOf r.here data.length else [])
  | .svcf => c.svcfDone r status data
  | .svcp => c.svcpDone r status data
  | .relay =>
    let c := (c.setFld CASC_RLY_CTRL.RESULT status).setFld CASC_RLY_CTRL.GO 0
    if data.isEmpty then c else c.setReg CASC_RLY_DATA (BitVec.ofNat 32 (ofBytes data))
  | .poll | .assign | .gone => c

/-- Every request towards positions that satisfy a test ends with PEER_ABSENT, waiting or outstanding (R186). -/
def Chip.failTowards (c : Chip) (p : FwdReq → Bool) : Chip :=
  (c.fwd.reqs.filter p).foldl (fun c r => c.endReq r 7 []) c

/-- Every device beyond this one is absent (R343): BEYOND and PRESENT clear, EV105 or EV106, and R186 applies. A link that was
neither training nor up, asleep or recovering and had no device behind it loses none. The position in the detail is that of the nearest
device lost. -/
def Chip.declareAbsent (c : Chip) (missed : Bool) : Chip :=
  let st := (c.aLink.map fun k => c.fld (LINK_STATUS.STATE k.idx)).getD 0
  let some_ := missed || c.fld CASC_STATUS.BEYOND != 0 || (1 ≤ st && st ≤ 5)
  let own := c.position.getD 0
  let c := ((c.setFld CASC_STATUS.BEYOND 0).setFld CASC_STATUS.PRESENT 0).failTowards fun r => c.aLink == some r.lnk
  let c := { c with fwd := { c.fwd with missed := 0, apNext := false, apThird := false } }
  if some_ then c.raise (if missed then 106 else 105) ((own + 1) % 4) else c

/-- A link is no longer up, or its mode has ended (`ended`): the peers beyond the A-link are absent, and the position that the T-link
gave is gone (R334, R335, R343). Requests on their way over the T-link end only with its mode (R186). -/
def Chip.linkLost (c : Chip) (k : Lnk) (ended : Bool) : Chip :=
  let c := if c.aLink == some k then c.declareAbsent false else c
  let c := if ended then c.failTowards fun r => r.lnk == k else c
  let c := { c with pcie := { c.pcie with upReqs := c.pcie.upReqs.filter fun r => r.lnk != k } }
  if k == c.tLink then
    let c := if c.paired || c.part == .mh4142 then c else c.setFld CASC_POSN.VALID 0
    if k == .ul then { c with fwd := { c.fwd with pos0 := false } } else c
  else c

end Sys2Proof.Machine
end

