-- ==== Sys2Proof/Machine/LinkOps.lean ====
section
/-! DEFINITION. The shared operations over lanes and links: directions and capacities, taking a lane out of service, putting a
link down, what an end advertises (R83, R92–R104, R110, R123–R133, R138). -/

namespace Sys2Proof.Machine

/-! ## Who is who (R43, R83, R138) -/

/-- This device is the downstream end of the link (R83). -/
def Chip.downEnd (c : Chip) : Lnk → Bool
  | .ul => true
  | .cs => c.pairedFollower

/-- The partner is an AP2080 (R135). -/
def Chip.partnerAp (c : Chip) (k : Lnk) : Bool :=
  match (c.link k).partner with
  | some a => a.part == 0x2080
  | none => false

/-- This device schedules the link (R138). Without a valid position it does not schedule its A-link (R335). -/
def Chip.schedules (c : Chip) (k : Lnk) : Bool := c.downEnd k || (c.partnerAp k && (c.aLink != some k || c.position.isSome))

/-- LINK_STATUS.STATE codes (R137). -/
def Chip.linkState (c : Chip) (k : Lnk) : Nat := c.fld (LINK_STATUS.STATE k.idx)
def Chip.linkUp (c : Chip) (k : Lnk) : Bool := c.linkState k == 2
def Chip.linkAsleep (c : Chip) (k : Lnk) : Bool := c.linkState k == 4 || c.linkState k == 5

/-- The first event source of a per-link pair of sources (R103, R136). -/
def evOf (k : Lnk) (ul cs : Nat) : Nat := match k with | .ul => ul | .cs => cs

/-- The part of a link page that is present. -/
def Chip.linkPresent (c : Chip) (k : Lnk) : Bool := pagePresent c.part (0x18 + k.idx)

/-- An exit from S1 ends when no link sleeps any more (R326). -/
def Chip.lightExit (c : Chip) : Chip :=
  if c.seq.exiting = some 1 && !c.linkAsleep .ul && !c.linkAsleep .cs then
    ({ c with seq := { c.seq with exiting := none } }.setFld PS_STATUS.STATE 0).setFld PS_STATUS.BUSY 0
  else c

/-! ## Lanes -/

/-- The pair that carries a link lane (R83). At the downstream end it is the pair of that number; at the upstream end it is
the one whose LINK_LANE says so. -/
def Chip.pairOf (c : Chip) (k : Lnk) (ll : Nat) : Nat :=
  if c.downEnd k then laneBase k + ll
  else ((pairs k).find? fun l => c.fld (LANE_STATUS.LINK_LANE l) == ll && c.on (LANE_STATUS.SVC l)).getD
    (((pairs k).find? fun l => c.fld (LANE_STATUS.LINK_LANE l) == ll).getD (laneBase k + ll))

/-- The link lane of a pair. -/
def Chip.linkLane (c : Chip) (l : Nat) : Nat :=
  if c.downEnd (lnkOf l) then l % 4 else c.fld (LANE_STATUS.LINK_LANE l)

/-- The reset direction of a pair: pairs 0 and 1 receive, 2 and 3 transmit (R104). -/
def resetDir (l : Nat) : Nat := if l % 4 < 2 then 0 else 1

/-- A lane in service. -/
def Chip.inService (c : Chip) (l : Nat) : Bool := c.on (LANE_STATUS.SVC l)

/-- The lanes in service in a direction: `dir` 0 receives, 1 transmits. -/
def Chip.group (c : Chip) (k : Lnk) (dir : Nat) : List Nat :=
  (pairs k).filter fun l => c.inService l && c.fld (LANE_STATUS.DIR l) == dir

/-- The lane is LOCKED. -/
def Chip.laneLocked (c : Chip) (l : Nat) : Bool := c.fld (LANE_STATUS.ALIGN l) == 2

/-- The lane's loss-of-lock and adaptation-failure sources (R103), by link lane. -/
def Chip.evLol (c : Chip) (l : Nat) : Nat := (if l < 4 then 32 else 36) + c.linkLane l
def Chip.evAdapt (c : Chip) (l : Nat) : Nat := (if l < 4 then 40 else 44) + c.linkLane l

/-- Capacity of a group of lanes (R110): the allottable cells summed over them. -/
def Chip.capOf (c : Chip) (ls : List Nat) : Nat :=
  (ls.map fun l => Config.allottable (c.fld (LANE_STATUS.RATE l))).sum

/-- C_d of a direction, 0 until the link has come UP since its mode was entered (R144). `dir` 0 is IN, 1 is OUT. -/
def Chip.capNow (c : Chip) (k : Lnk) (dir : Nat) : Nat :=
  if (c.link k).upSinceMode then c.capOf (c.group k dir) else 0

/-- DN_MAP, UP_MAP and ARR of LINK_STATUS follow the lanes in service (R100, R128, R137). IN is downstream at the downstream
end. After a two-lane turn of which one lane was abandoned ARR reads 0b11 (R128). -/
def Chip.syncMaps (c : Chip) (k : Lnk) : Chip :=
  let bits (ls : List Nat) : Nat := (ls.map fun l => 2 ^ c.linkLane l).sum
  let inn := bits (c.group k 0)
  let out := bits (c.group k 1)
  let dn := if c.downEnd k then inn else out
  let up := if c.downEnd k then out else inn
  let arr := if (c.link k).partTurn then 3
    else if dn == 0b0011 && up == 0b1100 then 0
    else if dn == 0b0111 && up == 0b1000 then 1
    else if dn == 0b0001 && up == 0b1110 then 2
    else 3
  ((c.setFld (LINK_STATUS.DN_MAP k.idx) dn).setFld (LINK_STATUS.UP_MAP k.idx) up).setFld (LINK_STATUS.ARR k.idx) arr

/-! ### The tap set (R88–R93) -/

/-- An integer held within a bound. -/
def within (m x : Int) : Int := max (-m) (min m x)

/-- How far element `i` of the receive settings has moved in TRACK since the tap set was stored, by at most `m` steps in each
epoch (R92). What it moves by is a free value (log entry 81). -/
def LaneSt.drift (x : LaneSt) (l i : Nat) (m : Int) : Int :=
  ((List.range x.tracked).map fun e => within m (Config.trackStep x.trackId l i e)).sum

/-- A 16-bit half of the receive settings as it is now. Halves 0–24 are the receive taps and DFE h1, 25–27 the slicer thresholds
in 0.25 mV. -/
def LaneSt.liveHalf (x : LaneSt) (l i stored : Nat) : Nat :=
  let v := (BitVec.ofNat 16 stored).toInt + x.drift l i (if i < 25 then 1 else 4)
  (BitVec.ofInt 16 (max (-32768) (min 32767 v))).toNat

/-- A half of the receive settings as it is now: that of a disabled slice is held at 0 (R380). Slices 0–23 are the
receive taps and slice 24 is DFE h1 (DEDUCED, log entry 82). -/
def Chip.halfNow (c : Chip) (l i stored : Nat) : Nat :=
  let x := c.lane l
  if i < 25 && c.copp.badSlices.contains (l, i) then 0
  else if x.tracked = 0 then stored
  else x.liveHalf l i stored

/-- A word of a lane's live tap set (R93). CTLE, gain, transmit FFE and precoding do not move in TRACK (R92). -/
def Chip.liveTap (c : Chip) (l i : Nat) : Word :=
  let w := c.reg (TAP_SET l i)
  if 2 ≤ i && i < 16 then
    BitVec.ofNat 32 (c.halfNow l (2 * i - 4) (w.toNat % 65536) + 65536 * c.halfNow l (2 * i - 3) (w.toNat / 65536))
  else w

/-- The words of a lane's live tap set (R93). -/
def Chip.tapWords (c : Chip) (l : Nat) : List Word := (List.range 28).map (c.liveTap l)

/-- What the fields of a word of a tap set can hold (R93). -/
def tapMask : Nat → Word
  | 1 => 0x00033F1F
  | 16 => 0x00FFFFFF
  | i => if i < 19 then 0xFFFFFFFF else 0

/-- The receive settings that mid-range means: CTLE peaking 16, gain 32, the main tap alone, and thresholds at 0 (DEDUCED, log
entry 82). Words 1–27 of a tap set. -/
def midTaps : List Word := [0x00002010, 0, 0x40000000] ++ List.replicate 24 0

/-- Load receive settings: words 1–27 of a tap set, the precoding bits kept (R80, R91). -/
def Chip.loadRx (c : Chip) (l : Nat) (ws : List Word) : Chip :=
  let keep := c.fld ⟨TAP_SET l 1, 16, 2⟩
  let c := (ws.zip ((List.range 27).map (1 + ·))).foldl (fun (c : Chip) p => c.setReg (TAP_SET l p.2) (p.1 &&& tapMask p.2)) c
  let (n, c) := c.fresh
  (c.setFld ⟨TAP_SET l 1, 16, 2⟩ keep).modLane l fun x => { x with tracked := 0, trackId := n }

/-- The preset coefficients of R89 as the first word of a tap set (R93). -/
def presetWord : Nat → Word
  | 0 => 0x00400000
  | 1 => 0xF8380000
  | 2 => 0xF0300000
  | 3 => 0xF832FA00
  | 4 => 0xF42CF800
  | 5 => 0xF428F400
  | 6 => 0xF62AF602
  | _ => 0xF828F000

/-- The default preset of a rate code (R89). -/
def defaultPreset : Nat → Nat
  | 0 => 1
  | 1 => 2
  | 2 => 3
  | _ => 4

/-! ## Eye scans and loopbacks end (R94, R97, R98) -/

/-- A running scan ends with a result code, its lock released; points completed are kept. -/
def Chip.endEye (c : Chip) (l code : Nat) : Chip :=
  if (c.lane l).eye.isSome then
    (((c.modLane l fun x => { x with eye := none }).setFld (EYE_STATUS.BUSY l) 0).setFld (EYE_STATUS.RESULT l) code).setFld
      (EYE_CTRL.START l) 0 |>.maintDrop fun h => h.code == 0x01 && h.locks.contains (.lane l)
  else c

/-- Any loopback or pattern mode ends. -/
def Chip.endLoop (c : Chip) (l : Nat) : Chip :=
  if c.fld (LANE_CTRL.LOOP l) != 0 then
    (c.setFld (LANE_CTRL.LOOP l) 0).maintDrop fun h => h.code == 0x05 && h.locks.contains (.lane l)
  else c

/-- Every activity that holds the lane's lock ends (R94). -/
def Chip.endLaneActivity (c : Chip) (l eyeCode : Nat) : Chip :=
  let c := (c.endEye l eyeCode).endLoop l
  let c := if (c.lane l).retraining then
      (c.modLane l fun x => { x with retraining := false }).setFld (LANE_EQ_CTRL.RETRAIN l) 0
    else c
  c.maintDrop fun h => h.code != 0x03 && h.locks.contains (.lane l)

/-! ## Turnarounds end (R102) -/

/-- A turn is dropped without an abort event: detach, Hard Reset, recovery, link failure and safe state (R102). -/
def Chip.dropTurn (c : Chip) (k : Lnk) : Chip :=
  match (c.link k).turn with
  | none => c
  | some t =>
    let c := t.lanes.foldl (fun c l => c.modLane l fun x => { x with
        confirmed := false, released := false, ready := false,
        armedRx := 0, txState := 0 }) c
    ((c.modLink k fun x => { x with turn := none }).maintDrop fun h => h.code == 0x03 && h.locks.any fun r =>
      (pairs k).any fun l => r == .lane l).setFld ⟨SCHED k.idx 0, 26, 1⟩ 0

/-- The lane is being turned. -/
def Chip.turning (c : Chip) (l : Nat) : Bool :=
  match (c.link (lnkOf l)).turn with
  | some t => t.lanes.contains l
  | none => false

/-! ## The lane leaves service or goes idle -/

/-- One lane in its reset direction, out of service, not aligned (R124, R129). -/
def Chip.laneReset (c : Chip) (l align : Nat) : Chip :=
  let c := (((c.setFld (LANE_STATUS.DIR l) (resetDir l)).setFld (LANE_STATUS.SVC l) 0).setFld (LANE_STATUS.ALIGN l) align).setFld
    (LANE_STATUS.LSTATE_RX l) 0
  let c := { c with copp := { c.copp with repairLanes := c.copp.repairLanes.filter (· != l) } }
  c.modLane l fun x => { x with
      run := 0, missed := 0, mcrcRun := 0, blocks := 0, badAt := [], out := .in_, partnerIn := false,
      retraining := false, confirmed := false, released := false, ready := false, armedRx := 0, txState := 0, carry := [],
      asked := false, idle := align == 3 }

/-- Every lane of a link goes to electrical idle in its reset direction, its activities ended. -/
def Chip.idleLanes (c : Chip) (k : Lnk) : Chip :=
  (pairs k).foldl (fun c l => ((c.endLaneActivity l 0x06).laneReset l 3).setFld (LANE_STATUS.EQ_STATE l) 0) (c.dropTurn k)

/-- A link goes down with a STATE code (0 DOWN, 7 FAILED): its lanes idle, its training, sleep and queues of management cells
gone, and its partner with them (R351). Cells waiting on flows stay under backpressure. R137 does not say what VERSION, RATE, CAPPED and SCHED read from then on:
they keep their last values (DESIGN CHOICE, log entry 84). -/
def Chip.linkDown (c : Chip) (k : Lnk) (code : Nat) : Chip :=
  let c := (((c.linkLost k (!c.native k || code == 7)).idleLanes k).setFld (LINK_STATUS.STATE k.idx) code).syncMaps k
  let c := (c.setFld (LINK_STATUS.HOLD_RX k.idx) 0).setFld (LINK_CTRL.RETRAIN k.idx) 0 |>.setFld (LINK_CTRL.RECOVER k.idx) 0
  c.modLink k fun x => { x with
      partner := none, step := 0, recStep := 0, chosenTx := 0, chosenRx := 0, loopLanes := 0, creditRx := false,
      adaptDone := [], reverseDone := [], early := [], stalled := [], srfWait := [], replay := [], again := [], credits := Credits.zero,
      freed := Credits.zero, rxTaken := Credits.zero, rxBack := Credits.zero, asm := [], lmcs := [], ackReqs := 0, rxBad := [],
      holdWait := false, holdEpochs := 0, sleepAsk := none, sleepWant := none, sleepGo := none, sleepLevel := 0, wakeDue := false,
      wakeSent := false, turn := none, partTurn := false }

/-! ## What an end advertises and chooses (R123, R125) -/

/-- RATES this end advertises: L1 at version 1, L2–L4 at version 2, up to MAX_RATE, without the excluded ones. -/
def Chip.ownRates (c : Chip) (k : Lnk) : Nat :=
  let x := c.link k
  let v1 := if c.on (LINK_CTRL.V1_EN k.idx) then 1 else 0
  let v2 := if c.on (LINK_CTRL.V2_EN k.idx) then (2 ^ (c.fld (LINK_CTRL.MAX_RATE k.idx) + 1) - 1) &&& 0b1110 else 0
  (v1 + v2) &&& (0b1111 - x.excluded)

/-- The operating point in force is barred by a slack monitor (R22, R381). -/
def Chip.opBarred (c : Chip) : Bool := (c.fld MON_STATUS.BAR).testBit c.fitOp

/-- Whether a rate fits the current operating point in the 2+2 arrangement (R22, R123). -/
def Chip.rateFits (c : Chip) (rate : Nat) : Bool :=
  2 * Config.laneRate rate ≤ Config.portFloor c.fitOp && !c.opBarred

/-- The highest rate code of a set that satisfies a test. -/
def bestRate (set : Nat) (ok : Nat → Bool) : Option Nat :=
  [3, 2, 1, 0].find? fun r => set.testBit r && ok r

/-- The choice of R123: version and rate code, with whether the operating point held the rate down (R125). -/
def Chip.chooseRate (c : Chip) (k : Lnk) (a : AdvMsg) : Option (Nat × Nat × Bool) :=
  let both := c.ownRates k &&& a.rates.toNat
  let v2 := c.on (LINK_CTRL.V2_EN k.idx) && a.vers.getLsbD 1
  let v1 := c.on (LINK_CTRL.V1_EN k.idx) && a.vers.getLsbD 0
  let set2 := both &&& 0b1110
  let top := bestRate set2 fun _ => true
  match if v2 then bestRate set2 c.rateFits else none with
  | some r => some (2, r, top != some r)
  | none => if v1 && both.testBit 0 then some (1, 0, v2 && top.isSome) else none

/-- CHOSEN as ADV carries it (R122). -/
def chosenByte (v r : Nat) : Nat := v * 16 + r + 1

/-- The part code of COLOPHON. -/
def Chip.partCode (c : Chip) : Nat := match c.part with | .mh4160 => 0x4160 | .mh4142 => 0x4142

/-- The ADV this end sends (R122, R123). -/
def Chip.advBody (c : Chip) (k : Lnk) (flags : Nat) : List Byte :=
  let x := c.link k
  let vers := (if c.on (LINK_CTRL.V1_EN k.idx) then 1 else 0) + (if c.on (LINK_CTRL.V2_EN k.idx) then 2 else 0)
  let lanes := ((pairs k).filter c.laneLocked).map (fun l => 2 ^ c.linkLane l) |>.sum
  toBytes 1 vers ++ toBytes 1 (c.ownRates k) ++ toBytes 1 0b111 ++ toBytes 1 lanes ++ toBytes 1 flags ++
    toBytes 1 (if flags.testBit 1 then x.loopLanes else 0) ++
    toBytes 1 x.chosenTx ++ toBytes 2 x.nextSeq ++ toBytes 2 c.partCode

/-- Receive buffers advertised by class (R120). -/
def poolSizes : Credits := { np := 128, p := 1536, cpl := 768, mgt := 64 }

/-- Cells of a class that wait in their receive buffer. -/
def LinkSt.held (x : LinkSt) (cls : Nat) : Nat := (x.early ++ x.stalled ++ x.srfWait).countP fun y => y.typ % 8 == cls

/-- CREDIT_INIT carrying each pool's free space, as it was when the step began (R122, R129). -/
def Chip.creditBody (c : Chip) (k : Lnk) : List Byte :=
  let u := (c.link k).rxTaken
  toBytes 1 0 ++ toBytes 2 (poolSizes.np - u.np) ++ toBytes 2 (poolSizes.p - u.p) ++ toBytes 2 (poolSizes.cpl - u.cpl) ++
    toBytes 2 (poolSizes.mgt - u.mgt)

end Sys2Proof.Machine
end

