-- ==== Sys2Proof/Machine/Sending.lean ====
section
/-! DEFINITION. Sending a block: flows as the link layer sees them, credits, the acknowledgement, what a slot carries, the block
itself (R108–R110, R114–R116, R119, R121, R122). -/

namespace Sys2Proof.Machine

/-! ## Flows as the link layer sees them (R29, R113, R140) -/

def Chip.flowExists (c : Chip) (f : Nat) : Bool := c.flowState f != 0
def Chip.isCtrl (c : Chip) (f : Nat) : Bool := c.flowClass f == 1

/-- The link a flow enters by (SIDE). -/
def Chip.sideLink (c : Chip) (f : Nat) : Lnk := if c.on (FLOW_CFG.SIDE f) then .cs else .ul

/-- The link a transit flow leaves by (ENDPOINT 0 or 2, R140). -/
def Chip.transitLink (c : Chip) (f : Nat) : Option Lnk :=
  if f < 3 then none
  else match c.fld (FLOW_CFG.ENDPOINT f) with
    | 0 => some .ul
    | 2 => some .cs
    | _ => none

/-- Whether a flow crosses a link. -/
def Chip.crosses (c : Chip) (k : Lnk) (f : Nat) : Bool :=
  if f < 3 then f != 0 else c.sideLink f == k || c.transitLink f == some k

/-! ## Credits (R119) -/

def Credits.get (x : Credits) (cls : Nat) : Nat :=
  if cls = clsNp then x.np else if cls = clsP then x.p else if cls = clsCpl then x.cpl else x.mgt

def Credits.set (x : Credits) (cls v : Nat) : Credits :=
  if cls = clsNp then { x with np := v } else if cls = clsP then { x with p := v }
  else if cls = clsCpl then { x with cpl := v } else { x with mgt := v }

def Credits.add (x : Credits) (cls n : Nat) : Credits := x.set cls (x.get cls + n)

/-- The class code of CRET bits 11:10. -/
def cretClass : Nat → Nat
  | 0 => clsNp
  | 1 => clsP
  | 2 => clsCpl
  | _ => clsMgmt

def cretCode (cls : Nat) : Nat :=
  if cls = clsNp then 0 else if cls = clsP then 1 else if cls = clsCpl then 2 else 3

/-- The credit of a cell goes back to the sender in later headers. -/
def Chip.returnCredit (c : Chip) (k : Lnk) (cls : Nat) : Chip :=
  c.modLink k fun x => { x with freed := x.freed.add cls 1 }

/-- A pending credit return for one header, at most 1,023 cells of one class. R119 leaves the order of the classes open; MGT, NP, P,
CPL is a DESIGN CHOICE (log entry 84). -/
def LinkSt.takeCret (x : LinkSt) : Nat × LinkSt :=
  match [clsMgmt, clsNp, clsP, clsCpl].find? fun k => x.freed.get k != 0 with
  | none => (0, x)
  | some k =>
    let n := min (x.freed.get k) 1023
    (cretCode k * 1024 + n, { x with freed := x.freed.set k (x.freed.get k - n), rxBack := x.rxBack.add k n })

/-- What CREDIT_INIT advertises becomes the account of the direction received: what waits has been taken, and credits not yet
returned are part of the free space (R119, R129). -/
def Chip.openCredits (c : Chip) (k : Lnk) : Chip :=
  c.modLink k fun x =>
    { x with
      rxTaken := { np := x.held clsNp, p := x.held clsP, cpl := x.held clsCpl, mgt := x.held clsMgmt }
      rxBack := Credits.zero, freed := Credits.zero }

/-! ## Numbers and acknowledgement (R112, R114, R115) -/

/-- Serial-number distance modulo 65,536 (R114). -/
def seqDiff (a b : Nat) : Nat := (a + 65536 - b % 65536) % 65536

/-- Whether a TYPE names a data cell of R112. -/
def dataType (typ : Nat) : Bool := 2 ≤ typ % 8 && typ % 8 ≤ 5

/-- A sequenced cell: data of any flow but ISO (R112, R114). -/
def Chip.sequenced (c : Chip) (x : Cell) : Bool := dataType x.typ && !c.isIso x.flow

/-- The bad-block map and ACK_BCNT of the direction received (R115). -/
def Chip.ackBody (c : Chip) (k : Lnk) : List Byte :=
  let s := c.link k
  let tops := (c.group k 0).map fun l => (c.lane l).lastBcnt
  let top := tops.foldl (fun a b => if seqDiff b a < 32768 then a else b) (tops.headD s.rxTop)
  let map (ll : Nat) : Nat :=
    ((s.rxBad.filter fun e => e.1 == ll).map fun e => seqDiff top e.2).filter (· < 64) |>.foldl (fun a j => a ||| 2 ^ j) 0
  toBytes 1 0 ++ toBytes 2 top ++ toBytes 2 s.nextSeq ++ toBytes 2 0 ++ (List.range 4).flatMap fun ll => toBytes 8 (map ll)

/-! ## The next cell of a flow (R121) -/

/-- The class of a queued cell on a flow. -/
def QCell.cls (q : QCell) : Nat := q.typ % 8

/-- The place in a flow's queue of the next cell that may go: cells of one class keep their order, a P cell may pass NP and
CPL cells waiting for credit, those never pass a P cell, and CPL and NP cells may pass each other (R121). -/
def nextCell (cr : Credits) : List QCell → Option Nat :=
  let rec go (i : Nat) (seen : List Nat) : List QCell → Option Nat
    | [] => none
    | q :: qs =>
      let blocked := seen.contains q.cls || (q.cls != clsP && seen.contains clsP)
      if !blocked && 0 < cr.get q.cls then some i else go (i + 1) (q.cls :: seen) qs
  go 0 []

/-- The grant of CTRL cells that all CTRL flows of a link share (R149), in the place of a flow number. -/
def ctrlShare : Nat := 256

/-- The flows a grant is for. R149 does not order the CTRL flows among themselves: ascending, a DESIGN CHOICE (log entry 86). -/
def Chip.grantFlows (c : Chip) (k : Lnk) (f : Nat) : List Nat :=
  if f = ctrlShare then (List.range 256).filter fun g => c.crosses k g && c.isCtrl g && (g < 3 || c.flowState g == 1) else [f]

/-- The next cell allotted to a lane of a link: the first grant in fill order with a cell left and a credit for it, as the place of
the grant, the flow and the place of the cell. -/
def Chip.pickCell (c : Chip) (k : Lnk) : Option (Nat × Nat × Nat) :=
  let s := c.link k
  let rec go (i : Nat) : List (Nat × Nat) → Option (Nat × Nat × Nat)
    | [] => none
    | (f, n) :: gs =>
      let next := (c.grantFlows k f).findSome? fun g => (nextCell s.credits (c.outQ k g)).map fun j => (i, g, j)
      if n = 0 || next.isNone then go (i + 1) gs else next
  go 0 s.grants

/-- Send that cell: its grant and credit are spent, and a sequenced cell takes the next number. -/
def Chip.sendCell (c : Chip) (k : Lnk) (p : Nat × Nat × Nat) : Option Cell × Chip :=
  let (i, f, j) := p
  match (c.outQ k f)[j]? with
  | none => (none, c)
  | some q =>
    let x : Cell := { flow := f, typ := q.typ, len := q.len, seq := 0, cret := 0, payload := q.payload }
    let seqd := c.sequenced x
    let s := c.link k
    let x := if seqd then { x with seq := s.seqTx } else x
    let c := c.setOutQ k f ((c.outQ k f).eraseIdx j)
    (some x, c.modLink k fun s =>
      { s with
        seqTx := if seqd then (s.seqTx + 1) % 65536 else s.seqTx
        grants := s.grants.modify i fun g => (g.1, g.2 - 1)
        credits := s.credits.set q.cls (s.credits.get q.cls - 1) })

/-! ## What a slot carries (R108, R109, R115, R122, R124, R129, R131) -/

/-- The first pending management cell that satisfies a test. -/
def Chip.takeLmc (c : Chip) (k : Lnk) (p : Lmc → Bool) : Option (Lmc × Chip) :=
  (c.link k).lmcs.find? p |>.map fun m => (m, c.modLink k fun s => { s with lmcs := s.lmcs.erase m })

/-- What a LINK slot carries when no management cell is pending: ADV, CREDIT_INIT and ACK in the cadence of the step. A recovery
carries ADV once a receive lane has locked, and from its step 5 on CREDIT_INIT and ADV in turn. -/
def Chip.cadence (c : Chip) (k : Lnk) (bcnt : Nat) : Lmc :=
  let s := c.link k
  let ack : Lmc := { code := 0x01, body := c.ackBody k }
  let credit : Lmc := { code := 0x03, body := c.creditBody k }
  let adv (flags : Nat) : Lmc := { code := 0x10, body := c.advBody k flags }
  if c.linkState k == 1 then
    if 2 ≤ s.step && s.step ≤ 4 then adv 0 else if s.step == 7 then credit else ack
  else if c.linkState k == 3 then
    if s.recStep == 5 then (if bcnt / 8 % 2 = 0 then credit else adv 1)
    else if (pairs k).any fun l => c.fld (LANE_STATUS.DIR l) == 0 && c.laneLocked l then adv 1
    else ack
  else ack

/-- The cell of a LINK slot: the oldest pending management cell, or that of the cadence. An urgent cell goes only on a lane of its
group while the link is UP (R109). -/
def Chip.linkSlot (c : Chip) (l bcnt : Nat) : Lmc × Chip :=
  let k := lnkOf l
  match c.takeLmc k fun m => !m.urgent || c.linkState k != 2 || c.inService l with
  | some r => r
  | none => (c.cadence k bcnt, c)

/-- Every eighth block of a lane in service carries an ACK, in a slot after the LINK slot when that one carries another cell (R115). -/
def Chip.ackSlot (c : Chip) (l bcnt : Nat) (before : List Cell) : Bool :=
  bcnt % 8 == 0 && c.linkState (lnkOf l) == 2 && c.inService l && !before.isEmpty &&
    !before.any fun x => x.flow == 0 && x.typ == 1 && x.payload.head? == some 0x01

/-- A data slot of a lane in service: a replayed cell, an ALLOT or DEMAND part, an allotted cell or IDLE. A lane that holds 64
replay entries sends IDLE and management cells only (R116); during HOLD no new cell goes (R131). -/
def Chip.dataSlot (c : Chip) (l : Nat) : Cell × Option (Cell × Nat) × Chip :=
  let k := lnkOf l
  let s := c.link k
  let full := 64 ≤ (s.replay.filter fun e => e.lane == l).length
  match if full then [] else s.again with
  | (x, n) :: more => (x, some (x, n + 1), (c.modLink k fun s => { s with again := more }).count (REPLAY_CNT.REPLAYED k.idx))
  | [] =>
    match c.takeLmc k fun m => m.code == 0x30 || m.code == 0x31 with
    | some (m, c) => (lmcCell m, none, c)
    | none =>
      if full || s.holdTx || s.holdWait then (idleCell, none, c)
      else match c.pickCell k with
        | none => (idleCell, none, c)
        | some p =>
          match c.sendCell k p with
          | (some x, c) => (x, some (x, 1), c)
          | (none, c) => (idleCell, none, c)

/-- What goes into the next slot of a block on lane `l`: nothing on a lane that has turned and is in no group (R101); HOLD in slot 0
while no router is active; a LINK slot; and on a lane in its group an urgent cell, the periodic ACK, or a data slot. `before`
holds the cells of the slots before it. The last component but one is the cell for the replay entry with its number of
transmissions. -/
def Chip.fillSlot (c : Chip) (l bcnt : Nat) (before : List Cell) : Cell × Option (Cell × Nat) × Chip :=
  let k := lnkOf l
  let s := c.link k
  if c.linkState k == 2 && !c.inService l && c.turning l then (idleCell, none, c)
  else if before.isEmpty && s.holdTx then (lmcCell { code := 0x38, body := toBytes 1 0 ++ toBytes 4 s.holdAt }, none, c)
  else if before.isEmpty && bcnt % 8 = 0 then
    let (m, c) := c.linkSlot l bcnt
    (lmcCell m, none, c)
  else if !c.inService l then (idleCell, none, c)
  else match c.takeLmc k (·.urgent) with
    | some (m, c) => (lmcCell m, none, c)
    | none => if c.ackSlot l bcnt before then (lmcCell { code := 0x01, body := c.ackBody k }, none, c) else c.dataSlot l

/-- One slot of the block, with a pending credit return in its header. R116 and R119 do not say whether a replayed cell repeats its
first CRET; it carries a new one, so that no credit is returned twice (DESIGN CHOICE, log entry 84). -/
def Chip.addSlot (l bcnt : Nat) (acc : List Cell × List (Cell × Nat) × Chip) (_ : Nat) :
    List Cell × List (Cell × Nat) × Chip :=
  let (cells, kept, c) := acc
  let (x, keep, c) := c.fillSlot l bcnt cells
  let (cret, s) := (c.link (lnkOf l)).takeCret
  (cells ++ [{ x with cret := cret }], kept ++ keep.toList, c.setLink (lnkOf l) s)

/-! ## The block -/

/-- The lane sends: it transmits and is not idle, and its link is neither DOWN nor FAILED. -/
def Chip.sends (c : Chip) (l : Nat) : Bool :=
  c.fld (LANE_STATUS.DIR l) == 1 && !(c.lane l).idle && !c.safe && c.linkState (lnkOf l) != 0 && c.linkState (lnkOf l) != 7

/-- A block is sent on a lane that sends: its marker, five cells, and a replay entry for the cells it holds (R82, R108, R116). A
QUIET block is the last before electrical idle. -/
def Chip.sendBlock (c : Chip) (l : Nat) : Chip :=
  let x := c.lane l
  let k := lnkOf l
  if !c.sends l then c
  else
    let (cells, kept, c) := (List.range 5).foldl (Chip.addSlot l x.txBcnt) ([], [], c)
    let nrz := c.fld (LANE_STATUS.RATE l) == 0
    let m : Marker :=
      { lane := c.linkLane l, lstate := if nrz then 0 else x.txState, pre := if nrz then 0 else c.fld (LANE_STATUS.PRE_TX l),
        epb := if x.epbDue then 1 else 0, bcnt := x.txBcnt }
    let c := if kept.isEmpty then c
      else c.modLink k fun s => { s with replay := s.replay ++ [{ lane := l, bcnt := x.txBcnt, cells := kept }] }
    let c := c.modLane l fun y =>
      { y with
        txBcnt := (y.txBcnt + 1) % 65536, epbDue := false, idle := y.txState == 2
        confirmed := y.confirmed || (y.txState == 1 && c.turning l) }
    c.emit (.symbols l (encodeBlock nrz m cells))

/-- The last block before electrical idle: LSTATE QUIET (R82). -/
def Chip.sendQuiet (c : Chip) (l : Nat) : Chip := (c.modLane l fun x => { x with txState := 2 }).sendBlock l

end Sys2Proof.Machine
end

