-- ==== Sys2Proof/Machine/LinkStarts.lean ====
section
/-! DEFINITION. Training and recovery start, a lane leaves service, and a link goes to sleep (R124, R127, R129, R130, R132). -/

namespace Sys2Proof.Machine

/-! ## Training starts (R124) -/

/-- Step 1 for one lane: its reset direction at L1, preset P1, receive taps mid-range; its link lane is not known yet (R83). The lane
loses lock, so every activity that holds its lock ends, a loopback mode that the host selected among them (DEDUCED from R94, log entry
25). -/
def Chip.trainLane (c : Chip) (l : Nat) : Chip :=
  let c := (c.endLaneActivity l 0x06).laneReset l 0
  let c := ((c.setFld (LANE_STATUS.EQ_STATE l) 1).setFld (LANE_STATUS.RATE l) 0).setFld (LANE_STATUS.LINK_LANE l) 0
  let c := ((c.setFld (LANE_STATUS.PRE_TX l) 0).setFld (LANE_STATUS.PRE_RX l) 0).setFld (LANE_STATUS.TURN_TRAINED l) 0
  ((c.loadRx l midTaps).setReg (TAP_SET l 0) (presetWord 1)).setFld ⟨TAP_SET l 1, 17, 1⟩ 0

/-- Step 1 of a training attempt: every lane begins, and blocks of IDLE cells carry ADV in the LINK slots. -/
def Chip.startAttempt (c : Chip) (k : Lnk) : Chip :=
  let c := (pairs k).foldl Chip.trainLane (c.dropTurn k)
  let used := c.fld (LINK_STATUS.ATTEMPT k.idx)
  let c := ((c.setFld (LINK_STATUS.STATE k.idx) 1).setFld (LINK_STATUS.ATTEMPT k.idx) (min (used + 1) 3)).syncMaps k
  let c := (c.setFld (LINK_STATUS.CAPPED k.idx) 0).setFld (LINK_STATUS.HOLD_RX k.idx) 0
  let c := c.modLink k fun x => { x with
      step := 2, recStep := 0, partner := none, chosenTx := 0, chosenRx := 0, loopLanes := 0,
      creditRx := false, adaptDone := [], reverseDone := [], early := [], stalled := [], srfWait := [], replay := [], again := [], asm := [],
      lmcs := [], ackReqs := 0, rxBad := [], holdWait := false, holdEpochs := 0, sleepAsk := none, sleepWant := none,
      sleepGo := none, sleepLevel := 0, wakeSent := false, wakeDue := false, woken := false, partTurn := false, stableNs := c.timeNs }
  (c.openCredits k).queueLmc k 0x10 (c.advBody k 0)

/-- A new training, not a further attempt of the one in progress: the attempt count starts again. -/
def Chip.startTraining (c : Chip) (k : Lnk) : Chip :=
  (((c.setFld (LINK_STATUS.ATTEMPT k.idx) 0).modLink k fun x => { x with failsStep2 := 0 })).startAttempt k

/-! ## Recovery starts (R129, R130) -/

/-- Step 1 for one lane that sends: its last block is QUIET, and in its group carries RECOVER as an urgent cell. R129 gives the reason
no codes, so it is a free value (log entry 30). -/
def Chip.recoverBlock (c : Chip) (l : Nat) : Chip :=
  if !c.sends l then c
  else if !c.inService l then c.sendQuiet l
  else
    let (n, c) := c.fresh
    let m : Lmc := { code := 0x50, body := toBytes 1 (Config.freeWord n).toNat, urgent := true }
    (c.modLink (lnkOf l) fun x => { x with lmcs := m :: x.lmcs }).sendQuiet l

/-- Step 2 for one lane: its reset direction at the trained rate, with the settings that its tap set holds for it (R91); a
transmitter sends REJOIN blocks. A retrain or repair in progress ends with its lock, and a lane that was adapting retrains once the link
is up again (DEDUCED, log entry 97). A lane that has failed or takes no part rests in its reset direction. -/
def Chip.recoverLane (c : Chip) (l : Nat) : Chip :=
  let busy := (c.lane l).retraining
  let eq := c.fld (LANE_STATUS.EQ_STATE l)
  let c := (c.endEye l 0x06).maintDrop fun h => (h.code == 0x02 || h.code == 0x04) && h.locks.contains (.lane l)
  let c := c.setFld (LANE_EQ_CTRL.RETRAIN l) 0
  if eq == 0 || eq == 8 then
    let out := (c.lane l).out
    (c.laneReset l 3).modLane l fun x => { x with out := out }
  else
    let c := c.laneReset l 0
    let c := (c.setFld (LANE_STATUS.PRE_TX l) (c.fld ⟨TAP_SET l 1, 17, 1⟩)).setFld (LANE_STATUS.PRE_RX l) (c.fld ⟨TAP_SET l 1, 16, 1⟩)
    let c := if busy then c.modLane l fun x => { x with out := .retrainWanted } else c
    if resetDir l = 1 then (c.modLane l fun x => { x with txState := 3 }).emit (.rejoin l) else c

/-- Recovery starts, unless the link is training, recovering or not up. The turn is dropped, prefetch buffers are discarded (R182)
and sequenced cells stay in their entries. -/
def Chip.startRecovery (c : Chip) (k : Lnk) : Chip :=
  if !(c.linkUp k || c.linkAsleep k) then c
  else
    let c := (pairs k).foldl Chip.recoverBlock ((c.dropTurn k).discardPrefetch fun _ b => b.lnk == k)
    let c := (pairs k).foldl Chip.recoverLane c
    let c := ((c.setFld (LINK_STATUS.STATE k.idx) 3).count (LINK_CNT.RECOVERIES k.idx)).raiseOpen (evOf k 50 56)
    (c.syncMaps k).modLink k fun x => { x with
        recStep := 3, creditRx := false, sleepAsk := none, sleepWant := none, sleepGo := none, sleepLevel := 0, wakeSent := false,
        wakeDue := false, ackReqs := 0, rxBad := [], partTurn := false, lmcs := x.lmcs.filter fun m => m.code != 0x50,
        stableNs := c.timeNs }

/-! ## A lane leaves service (R127) -/

/-- LANE_OUT for a lane in service: it leaves its group at the next epoch boundary, and recovery starts instead when no other lane
of its direction stays. -/
def Chip.takeLaneOut (c : Chip) (l reason : Nat) (tell : Bool) : Chip :=
  let k := lnkOf l
  let stays := (c.group k (c.fld (LANE_STATUS.DIR l))).filter fun m => m != l && (c.lane m).out == .in_
  if !c.inService l || (c.lane l).out != .in_ then c
  else if stays.isEmpty then c.startRecovery k
  else
    let c := c.modLane l fun x => { x with out := .leaving, partnerIn := false }
    if tell then c.queueLmc k 0x23 (toBytes 1 (c.linkLane l) ++ toBytes 1 reason) else c

/-! ## Sleep (R132) -/

/-- The wake pattern goes out on every transmit lane of a link asleep, unless it is already being sent. -/
def Chip.sendPatternOnce (c : Chip) (k : Lnk) : Chip :=
  if c.linkAsleep k && !(c.link k).wakeSent then
    (c.emit (.wakePattern k)).modLink k fun s => { s with wakeSent := true, woken := true }
  else c

/-- Each transmitter sends one QUIET block and goes to electrical idle; STATE reads QUIESCENT or DORMANT. A wake that came after the
accept starts the exit at once. -/
def Chip.linkSleep (c : Chip) (k : Lnk) (level : Nat) : Chip :=
  let c := (pairs k).foldl (fun c l =>
    if c.inService l then
      let c := if c.fld (LANE_STATUS.DIR l) = 1 then c.sendQuiet l else c
      (c.setFld (LANE_STATUS.ALIGN l) 3).modLane l fun x => { x with idle := true }
    else c) c
  let due := (c.link k).wakeDue
  let c := (c.setFld (LINK_STATUS.STATE k.idx) (3 + level)).modLink k fun s =>
    { s with sleepWant := none, sleepGo := none, sleepLevel := level, wakeSent := false, wakeDue := false }
  if due then c.sendPatternOnce k else c

end Sys2Proof.Machine
end

