-- ==== Sys2Proof/Machine/Access.lean ====
section
/-! DEFINITION. A 32-bit write under the access codes of R7, without the behaviour of its own that some registers have, and the
step every command makes on the state. -/

namespace Sys2Proof.Machine

/-- A command's effect on everything but the queue: what the last command put outside is gone, and the effect runs. -/
def State.run (s : State) (f : Chip → Chip) : Host.Outcome State Fault Refusal :=
  .next { s with chip := f { s.chip with out := [] } }

/-- The page of a management address. -/
def pageOf (a : Nat) : Nat := a / 0x1000

/-- The access masks of the register at an address: the row of the map, or EV_STICKY, EV_ENABLE and EV_FORCE of the header. -/
def accessOf (a : Nat) : Option RegDesc :=
  let o := a % 0x1000
  let m := 2 ^ pageSourceCount (pageOf a) - 1
  if o = 0x014 then some ⟨o, 0, 1, 0, .warm, 0, 0, m, 0, 0⟩
  else if o = 0x018 then some ⟨o, 0, 1, m, .folio, m, 0, 0, 0, 0⟩
  else if o < 0x040 then none
  else regDesc a

/-- Whether the page is locked (R421). -/
def Chip.pageLocked (c : Chip) (p : Nat) : Bool := c.on (PAGE_CTRL.LOCK p)

/-- A write that would have changed an RWL field of a locked page is counted (R7, R421). -/
def Chip.countLockIgn (c : Chip) (p : Nat) : Chip := c.count (PAGE_STATUS.LOCK_IGN p)

/-- The word after a write under its masks: RW bits, RWL bits while unlocked, and 1s clearing W1C bits (R7, R8). -/
def maskedWord (d : RegDesc) (locked : Bool) (old v : Word) : Word :=
  let wm : Word := BitVec.ofNat 32 (d.rw ||| (if locked then 0 else d.rwl))
  ((old &&& ~~~wm) ||| (v &&& wm)) &&& ~~~(v &&& BitVec.ofNat 32 d.w1c)

/-- The write itself. Absent pages and offsets without a register ignore it (R4, R416). -/
def Chip.writeMasked (c : Chip) (a : Nat) (v : Word) : Chip :=
  if !pagePresent c.part (pageOf a) then c
  else match accessOf a with
    | none => c
    | some d =>
      let locked := c.pageLocked (pageOf a)
      let old := c.reg a
      let lost := locked && ((old ^^^ v) &&& BitVec.ofNat 32 d.rwl) != 0
      let c := c.setReg a (maskedWord d locked old v)
      if lost then c.countLockIgn (pageOf a) else c

/-- A bit of a written word, below 32. -/
def bit (v : Word) (n : Nat) : Bool := v.getLsbD n

end Sys2Proof.Machine
end

