-- ==== Sys2Proof/Machine/Bridge.lean ====
section
/-! DEFINITION. The window bridge without the requests it takes: its windows' registers, the log, the initiator side, completions
and timeouts (R169, R179–R186, R188). -/

namespace Sys2Proof.Machine

/-! ## Window configuration (R169) -/

/-- A configuration write that R169 ignores is counted. -/
def Chip.countCfgIgn (c : Chip) : Chip := c.count BRDG_STATUS.CFG_IGN

/-- First target address and size of a window. -/
def Chip.winBase (c : Chip) (w : Nat) : Nat := c.fld (WIN_BASE.BASE w) * 4096
def Chip.winSize (c : Chip) (w : Nat) : Nat := 2 ^ (12 + c.fld (WIN_CTRL.SIZE w))

/-- Settings with which EN may not be set. -/
def Chip.badWindow (c : Chip) (w : Nat) : Bool :=
  let b := c.winBase w
  let n := c.winSize w
  decide (24 < c.fld (WIN_CTRL.SIZE w)) || c.fld (WIN_CTRL.ORDER w) == 3 || b % n != 0 ||
    (c.on (WIN_ROUTE.REMOTE w) && (b < 2 ^ 32 || 2 ^ 33 < b + n || c.position == some (c.fld (WIN_ROUTE.POS w))))

/-- A write of WIN_CTRL: while EN is 1 only EN changes; EN is not set with bad settings; clearing it discards the window's
buffer. -/
def Chip.writeWinCtrl (c : Chip) (w : Nat) (v : Word) : Chip :=
  let old := c.reg (WIN_CTRL w)
  let after := c.writeMasked (WIN_CTRL w) v
  let new := after.reg (WIN_CTRL w)
  if bit old 31 then
    let kept := (old &&& 0x7FFFFFFF#32) ||| (new &&& 0x80000000#32)
    let c := after.setReg (WIN_CTRL w) kept
    let c := if kept = new then c else c.countCfgIgn
    if bit new 31 then c else c.discardPrefetch fun i _ => i == w
  else if bit new 31 && after.badWindow w then (after.setReg (WIN_CTRL w) old).countCfgIgn
  else after

/-- A write of WIN_BASE or WIN_ROUTE: ignored while EN is 1, and counted when it would have changed a field. -/
def Chip.writeWinWord (c : Chip) (w a : Nat) (v : Word) : Chip :=
  let after := c.writeMasked a v
  if c.on (WIN_CTRL.EN w) && after.reg a != c.reg a then (after.setReg a (c.reg a)).countCfgIgn else after

/-- R169. -/
def execWindowEnable (w : Fin 16) (v : Word) (s : State) : Host.Outcome State Fault Refusal := s.run fun c => c.writeWinCtrl w v

/-- R169. -/
def execWindowDisable (w : Fin 16) (v : Word) (s : State) : Host.Outcome State Fault Refusal := s.run fun c => c.writeWinCtrl w v

/-! ## The log and the counters (R179, R188) -/

/-- A write of BRDG_LOG_REL: the oldest entry is freed and reads zero. -/
def Chip.writeLogRel (c : Chip) (v : Word) : Chip :=
  let n := c.fld BRDG_STATUS.LOG_COUNT
  if !bit v 0 || n = 0 then c
  else
    let i := c.fld BRDG_STATUS.LOG_OLDEST
    let c := c.clearRegs [BLOG i 0, BLOG i 1, BLOG i 2, BLOG i 3]
    (c.setFld BRDG_STATUS.LOG_OLDEST ((i + 1) % 16)).setFld BRDG_STATUS.LOG_COUNT (n - 1)

/-- R179. -/
def execRel (v : Word) (s : State) : Host.Outcome State Fault Refusal := s.run fun c => c.writeLogRel v

/-- A write of BRDG_CTRL: CPL_TO, and CNT_CLR. -/
def Chip.writeBrdgCtrl (c : Chip) (v : Word) : Chip :=
  let c := c.writeMasked BRDG_CTRL v
  if bit v 8 then
    (c.clearRegs ([PF_HIT, PF_DISCARD, ERR_CNT] ++ (List.range 16).map WIN_CNT)).setFld BRDG_STATUS.CFG_IGN 0
  else c

/-- R188. -/
def execBrdgCntClr (v : Word) (s : State) : Host.Outcome State Fault Refusal := s.run fun c => c.writeBrdgCtrl v

/-- The second epoch boundary after a buffer was filled (R182). -/
def execPrefetchExpiry (w : Fin 16) (s : State) : Host.Outcome State Fault Refusal :=
  s.run fun c => c.discardPrefetch fun i b => i == w && decide (b.epoch + 2 ≤ c.epoch)

/-! ## The initiator side (R183) -/

/-- A flow that may carry forwarded requests towards a position: ACTIVE, its ENDPOINT the bridge, its SIDE the link that leads
there (R168). -/
def Chip.usablePflow (c : Chip) (f pos : Nat) : Bool :=
  let k := if c.on (FLOW_CFG.SIDE f) then Lnk.cs else Lnk.ul
  3 ≤ f && c.fld (FLOW_STATE.STATE f) == 1 && c.fld (FLOW_CFG.ENDPOINT f) == 4 && c.linkTo pos k

/-- The class a forwarded request travels in. -/
def reqClass (f : Nat) : Nat := if f = 1 then clsMgmt else clsNp

/-- Credit of a link for a class of requests. -/
def Chip.reqCredit (c : Chip) (k : Lnk) (f : Nat) : Nat :=
  let cr := (c.link k).credits
  if f = 1 then cr.mgt else cr.np

/-- Space in this end's own pool for the whole completion of a request: the CPL pool, or the MGT pool on flow 1 (R121). -/
def Chip.cplSpace (c : Chip) (r : FwdReq) : Bool :=
  if r.pflow = 1 then decide (r.cplCells + c.reserved r.lnk true + (c.link r.lnk).held clsMgmt ≤ poolSizes.mgt)
  else decide (r.cplCells + c.reserved r.lnk false + (c.link r.lnk).held clsCpl ≤ poolSizes.cpl)

/-- A waiting request has what it needs: space for its whole completion and credit beyond the cells already queued. -/
def Chip.maySend (c : Chip) (r : FwdReq) : Bool :=
  let waiting := (c.outQ r.lnk r.pflow).countP fun q => q.typ % 8 == reqClass r.pflow
  c.cplSpace r && decide (waiting + r.reqCells ≤ c.reqCredit r.lnk r.pflow)

/-- A write that passes the bridge on its way to a peer: the prefetch buffers it overlaps are discarded as it is forwarded (R182). -/
def Chip.passed (c : Chip) (r : FwdReq) : Chip := match r.asker with
  | .sender _ f _ _ _ => if r.write && f != 1 then c.discardOver ((r.pos + 1) * 2 ^ 40 + r.addr) r.span else c
  | _ => c

/-- Send a request under a tag. -/
def Chip.sendReq (c : Chip) (r : FwdReq) (t : Nat) : Chip :=
  let c := c.passed r
  let sent := { r with tag := some t }
  let c := { c with fwd := { c.fwd with reqs := c.fwd.reqs.replace r sent } }
  (c.queueMsg r.lnk r.pflow (reqClass r.pflow) sent.bytes).syncTags

/-- The oldest waiting request that has everything it needs is sent. -/
def Chip.forwardRequest (c : Chip) : Chip :=
  match c.freeTag, c.fwd.reqs.find? fun r => r.tag.isNone && c.maySend r with
  | some t, some r => c.sendReq r t
  | _, _ => c

/-- R183. -/
def execForwardRequest (s : State) : Host.Outcome State Fault Refusal := s.run fun c => c.forwardRequest

/-! ## Completed polls (R342) -/

/-- BEYOND and, at the master, PRESENT after a completed poll. Positions that are no longer there are absent (R186); each rise at
the master raises EV104. -/
def Chip.setBeyond (c : Chip) (n : Nat) : Chip :=
  let oldB := c.fld CASC_STATUS.BEYOND
  let c := c.setFld CASC_STATUS.BEYOND n
  let ps := [1, 2, 3]
  if c.master then
    let old := c.fld CASC_STATUS.PRESENT
    let c := c.setFld CASC_STATUS.PRESENT (2 ^ n - 1)
    let rose := ps.filter fun p => decide (p ≤ n) && !old.testBit (p - 1)
    let c := if rose.isEmpty then c else c.count CASC_CNT.JOINS rose.length
    let c := rose.foldl (fun c p => c.raise 104 p) c
    c.failTowards fun r => decide (n < r.pos) && c.aLink == some r.lnk
  else
    let own := c.position.getD 0
    let c := if oldB < n then c.count CASC_CNT.JOINS else c
    c.failTowards fun r => decide (own + n < r.pos) && c.aLink == some r.lnk

/-- A completed poll: 1 + the partner's BEYOND from an MH4160 with a valid position, 1 otherwise. -/
def Chip.pollDone (c : Chip) (r : FwdReq) (status : Nat) (data : List Byte) : Chip :=
  let c := c.dropReq r
  let c := { c with fwd := { c.fwd with missed := 0 } }
  let w := ofBytes data
  let valid := status = 0 && c.partnerPart .cs == 0x4160 && w.testBit 29
  let n := if valid then min 3 (1 + w / 2 ^ 24 % 4) else 1
  let c := { c with fwd := { c.fwd with apNext := valid && w.testBit 20, apThird := c.fwd.apThird && n == 3 } }
  c.setBeyond n

/-! ## Completions (R184, R185) -/

/-- A completion for a tag ends its request; one for a timed-out or unknown tag, or of the other kind, is discarded and counted. -/
def Chip.completion (c : Chip) (k : Lnk) (f cls : Nat) (bytes : List Byte) (write : Bool) : Chip :=
  let tag := ofBytes ((bytes.drop 2).take 2) % 4096
  let status := (bytes.getD 6 0).toNat
  match c.fwd.reqs.find? fun r => r.tag == some tag && r.lnk == k && r.pflow == f && r.write == write && cls == cplClass f with
  | some r =>
    let data := takeOut 0 r.width r.addr r.span (bytes.drop 16)
    if r.asker = .poll then c.pollDone r status data else c.endReq r status data
  | none => (c.count ERR_CNT.LATE).raise 98 (bridgeDetail 0 status f)

/-- R184. -/
def execReadCpl (k : Lnk) (f : Fin 256) (cls : Fin 8) (bytes : List Byte) (s : State) : Host.Outcome State Fault Refusal :=
  s.run fun c => c.completion k f cls bytes false

/-- R184. -/
def execWriteCpl (k : Lnk) (f : Fin 256) (cls : Fin 8) (bytes : List Byte) (s : State) : Host.Outcome State Fault Refusal :=
  s.run fun c => c.completion k f cls bytes true

/-- The flow an answer goes out on. -/
def FwdReq.homeFlow (r : FwdReq) : Nat := match r.asker with
  | .sender _ f _ _ _ => f
  | _ => r.pflow

/-- A request without a completion within CPL_TO ends with TIMEOUT; its tag stays out of use. Polls are timed by R343. -/
def Chip.requestTimeout (c : Chip) (t : Nat) : Chip :=
  match c.fwd.reqs.find? fun r => r.tag == some t && r.asker != .poll with
  | some r =>
    let c := c.endReq r 8 []
    let c := { c with fwd := { c.fwd with stale := c.fwd.stale ++ [t] } }
    if r.bridged then (c.count ERR_CNT.TIMEOUTS).raise 97 (bridgeDetail (r.win.getD 0) 8 r.homeFlow) else c
  | none => c

/-- R185. -/
def execCompletionTimeout (t : Fin 256) (s : State) : Host.Outcome State Fault Refusal := s.run fun c => c.requestTimeout t

/-- R185. -/
def execTagReuseTimeout (t : Fin 256) (s : State) : Host.Outcome State Fault Refusal :=
  s.run fun c => { c with fwd := { c.fwd with stale := c.fwd.stale.erase t.val } }

end Sys2Proof.Machine
end

