-- ==== Sys2Proof/Machine/Adapt.lean ====
section
/-! DEFINITION. Equalisation: the tap records, the transmit coefficients, the start and the states of adaptation, and EQ cells
(R74, R80, R88–R93). -/

namespace Sys2Proof.Machine

/-! ## Tap records (R74) -/

/-- The 16-byte cable identity of a link's port: the words PD_CBL0–PD_CBL3, or sixteen bytes of 0xFF on a tied CS link; none
without an e-marker (R50, R74). -/
def Chip.cableId (c : Chip) (k : Lnk) : Option (List Byte) :=
  if k == .cs && c.paired then some (List.replicate 16 0xFF)
  else if c.on (PD_STATUS.CBL_EMARK k.idx) then
    some ((List.range 4).flatMap fun n => toBytes 4 (c.reg (PD_CBL k.idx n)).toNat)
  else none

def Chip.tapByte (c : Chip) (a : Nat) : Byte := cellsGet (fun _ => 0#8) c.taps a
def Chip.setTapByte (c : Chip) (a : Nat) (b : Byte) : Chip := { c with taps := cellsSet (fun _ => 0#8) c.taps a b }
def Chip.tapBytes (c : Chip) (a n : Nat) : List Byte := (List.range n).map fun i => c.tapByte (a + i)
def Chip.setTapBytes (c : Chip) (a : Nat) : List Byte → Chip
  | [] => c
  | b :: bs => (c.setTapByte a b).setTapBytes (a + 1) bs

/-- Offset of record `r` of a port in the tap section. -/
def recordAt (k : Lnk) (r : Nat) : Nat := 0x200 * (4 * k.idx + r)

/-- The record whose identity matches the cable. A record of RATE above 3 or VERSION other than 1 or 2 never matches. -/
def Chip.matchRecord (c : Chip) (k : Lnk) : Option Nat :=
  match c.cableId k with
  | none => none
  | some id =>
    (List.range 4).find? fun r =>
      let a := recordAt k r
      c.tapBytes a 16 == id && (c.tapByte (a + 0x10)).toNat ≤ 3 &&
        ((c.tapByte (a + 0x11)).toNat == 1 || (c.tapByte (a + 0x11)).toNat == 2)

/-- A matching record whose RATE and VERSION are the chosen ones supplies the starting taps. -/
def Chip.usableRecord (c : Chip) (k : Lnk) (ver rate : Nat) : Option Nat :=
  (c.matchRecord k).filter fun r =>
    let a := recordAt k r
    (c.tapByte (a + 0x10)).toNat == rate && (c.tapByte (a + 0x11)).toNat == ver

/-- A record supplies starting taps: its USES rises (R74). -/
def Chip.countUse (c : Chip) (k : Lnk) (r? : Option Nat) : Chip := match r? with
  | some r =>
    let a := recordAt k r + 0x14
    c.setTapBytes a (toBytes 2 (min (ofBytes (c.tapBytes a 2) + 1) 65535))
  | none => c

/-- The 28 words of a record's tap set for a link lane. -/
def Chip.recordTaps (c : Chip) (k : Lnk) (r ll : Nat) : List Word :=
  (List.range 28).map fun i => BitVec.ofNat 32 (ofBytes (c.tapBytes (recordAt k r + 0x40 + 0x70 * ll + 4 * i) 4))

/-! ## Transmit coefficients (R88, R89) -/

/-- The four coefficients of the first word of a tap set, c−2 first. -/
def ffeOf (w : Word) : List Int := (List.range 4).map fun i => (BitVec.ofNat 8 (w.toNat / 256 ^ i)).toInt

/-- Coefficients as that word. -/
def ffeWord (cs : List Int) : Word :=
  BitVec.ofNat 32 (ofBytes (cs.map fun x => BitVec.ofInt 8 x))

/-- The limits of a tap: 0 c−2, 1 c−1, 2 c0, 3 c+1 (R88). -/
def ffeInLimit (tap : Nat) (x : Int) : Bool :=
  match tap with
  | 0 => -8 ≤ x && x ≤ 8
  | 2 => 32 ≤ x
  | _ => -24 ≤ x && x ≤ 0

/-- Four responses as a byte, c−2 in bits 1:0. -/
def respByte (rs : List Nat) : Nat := rs.getD 0 0 + 4 * rs.getD 1 0 + 16 * rs.getD 2 0 + 64 * rs.getD 3 0

/-- A STEP request: taps step within their limits and c0 absorbs the remainder; if c0 would fall below 32 nothing changes. -/
def ffeStep (cs : List Int) (codes : Nat) : List Int × List Nat :=
  let one (tap : Nat) : Int × Nat :=
    let x := cs.getD tap 0
    match codes / 4 ^ tap % 4 with
    | 1 => if ffeInLimit tap (x + 1) then (x + 1, 1) else (x, 2)
    | 2 => if ffeInLimit tap (x - 1) then (x - 1, 1) else (x, 2)
    | _ => (x, 0)
  let a := one 0
  let b := one 1
  let d := one 3
  let c0 : Int := 64 - a.1.natAbs - b.1.natAbs - d.1.natAbs
  if c0 < 32 then (cs, [0, 0, 2, 0])
  else ([a.1, b.1, c0, d.1], [a.2, b.2, if c0 = cs.getD 2 0 then 0 else 1, d.2])

/-- An ABSOLUTE request: applied only if every coefficient is in its limit and the magnitudes sum to 64. -/
def ffeAbsolute (cs req : List Int) : List Int × List Nat :=
  let ok := (List.range 4).map fun t => ffeInLimit t (req.getD t 0)
  if !ok.all id then (cs, ok.map fun b => if b then 0 else 2)
  else if (req.map Int.natAbs).sum != 64 then (cs, [0, 0, 2, 0])
  else (req, [1, 1, 1, 1])

/-- One lane's request: new coefficients and responses (R88). -/
def ffeApply (cs : List Int) (q : EqLane) : List Int × List Nat :=
  match q.mode.toNat with
  | 1 => ffeStep cs (q.req.headD 0).toNat
  | 2 =>
    let n := (q.req.headD 0).toNat
    if 7 < n then (cs, [2, 2, 2, 2]) else (ffeOf (presetWord n), [1, 1, 1, 1])
  | 3 => ffeAbsolute cs (q.req.map fun b => b.toInt)
  | _ => (cs, [0, 0, 0, 0])

/-! ## Adaptation (R80, R90, R92) -/

/-- The eight bytes of a lane in an EQ cell (R122): mode, request and responses. -/
def eqBytes (mode : Nat) (req : List Byte) (resp : Nat) : List Byte :=
  toBytes 1 mode ++ fitBytes 4 req ++ toBytes 1 resp ++ [0, 0]

/-- An EQ cell is queued, with eight bytes for each link lane. -/
def Chip.queueEq (c : Chip) (k : Lnk) (f : Nat → List Byte) : Chip := c.queueLmc k 0x11 (0 :: (List.range 4).flatMap f)

/-- The initial request of a receiving lane (R90): the override preset, the record's far-end coefficients, or none. -/
def Chip.eqRequest (c : Chip) (l : Nat) : List Byte :=
  if c.fld (LANE_STATUS.DIR l) != 0 || c.fld (LANE_STATUS.EQ_STATE l) != 1 then eqBytes 0 [] 0
  else if c.on (LANE_EQ_CTRL.OVR_EN l) then eqBytes 2 (toBytes 1 (c.fld (LANE_EQ_CTRL.PRESET l))) 0
  else if (c.lane l).fromRec then eqBytes 3 (toBytes 4 (c.reg (TAP_SET l 17)).toNat) 0
  else eqBytes 0 [] 0

/-- Send the initial requests of lanes that begin to adapt. -/
def Chip.sendRequests (c : Chip) (k : Lnk) (ls : List Nat) : Chip :=
  c.queueEq k fun ll => match ls.find? fun l => c.linkLane l == ll with
    | some l => c.eqRequest l
    | none => eqBytes 0 [] 0

/-- Where the far transmitter starts: the override preset, the record's coefficients, or the rate's default preset (R89, R90). -/
def Chip.farStart (c : Chip) (l rate : Nat) (ws? : Option (List Word)) : Word :=
  if c.on (LANE_EQ_CTRL.OVR_EN l) then presetWord (c.fld (LANE_EQ_CTRL.PRESET l))
  else match ws? with
    | some ws => ws.getD 17 0
    | none => presetWord (defaultPreset rate)

/-- A receiving lane enters PRESET: the receive taps of the record, or mid-range ones, are loaded (R90). -/
def Chip.startAdapt (c : Chip) (l rate : Nat) (r? : Option Nat) : Chip :=
  let r? := if c.on (LANE_EQ_CTRL.USE_RECORD l) then r? else none
  let ws? := r?.map fun r => c.recordTaps (lnkOf l) r (c.linkLane l)
  let far := c.farStart l rate ws?
  let c := (c.loadRx l ((ws?.map (·.drop 1)).getD midTaps)).setReg (TAP_SET l 17) far
  let c := (c.setFld (LANE_STATUS.TAP_SRC l) (if r?.isSome then 2 else 1)).setFld (LANE_STATUS.REC_IDX l) (r?.getD 0)
  let c := (c.setFld (LANE_STATUS.EQ_STATE l) 1).setFld (LANE_STATUS.ALIGN l) 0
  c.modLane l fun x =>
    { x with
      run := 0, missed := 0, mcrcRun := 0, carry := [], rounds := 0, quiet := 0, codes := 0, fromRec := r?.isSome, idle := false
      asked := c.on (LANE_EQ_CTRL.OVR_EN l) || r?.isSome }

/-- The lane adapts: it receives, between PRESET and PRECODE, in steps 5 and 6 of training or in a retrain. -/
def Chip.adapting (c : Chip) (l : Nat) : Bool :=
  let x := c.link (lnkOf l)
  c.fld (LANE_STATUS.DIR l) == 0 && 1 ≤ c.fld (LANE_STATUS.EQ_STATE l) && c.fld (LANE_STATUS.EQ_STATE l) ≤ 6 &&
    ((c.lane l).retraining || (c.linkState (lnkOf l) == 1 && (x.step == 5 || x.step == 6)))

/-- Four STEP codes from a number: each tap holds, increases or decreases (R88). -/
def stepCodes (n : Nat) : Nat := ((List.range 4).map fun t => 4 ^ t * (n / 4 ^ t % 4 % 3)).sum

/-- A round of TXTUNE: a STEP request goes out. Which steps a receiver asks for the spec does not say: a free value (log entry 81). -/
def Chip.askStep (c : Chip) (l : Nat) : Chip :=
  let (n, c) := c.fresh
  let codes := stepCodes (Config.freeWord n).toNat
  (c.modLane l fun x => { x with asked := true, codes := codes }).queueEq (lnkOf l) fun ll =>
    if ll = c.linkLane l then eqBytes 1 (toBytes 1 codes) 0 else eqBytes 0 [] 0

/-- A block received on an adapting lane moves it on: CDR once the requests are out, CTLE when it is LOCKED, RXFFE, then TXTUNE, or
PRECODE for a lane that started from a record and holds alignment (R90). That each of CTLE and RXFFE lasts a block is a
DESIGN CHOICE: time-driven states have no command (log entry 81). -/
def Chip.adaptBlock (c : Chip) (l : Nat) : Chip :=
  if !c.adapting l then c
  else match c.fld (LANE_STATUS.EQ_STATE l) with
    | 1 => c.setFld (LANE_STATUS.EQ_STATE l) 2
    | 2 => if c.laneLocked l then c.setFld (LANE_STATUS.EQ_STATE l) 3 else c
    | 3 => c.setFld (LANE_STATUS.EQ_STATE l) 4
    | 4 =>
      if (c.lane l).fromRec && c.laneLocked l then c.setFld (LANE_STATUS.EQ_STATE l) 6
      else (c.setFld (LANE_STATUS.EQ_STATE l) 5).askStep l
    | _ => c

/-- The far transmitter's coefficients after a round: the taps answered 0b01 have stepped and c0 has absorbed the rest. -/
def farStep (cs : List Int) (codes resp : Nat) : List Int :=
  let one (t : Nat) : Int :=
    let x := cs.getD t 0
    if resp / 4 ^ t % 4 = 1 then (match codes / 4 ^ t % 4 with | 1 => x + 1 | 2 => x - 1 | _ => x) else x
  [one 0, one 1, 64 - (one 0).natAbs - (one 1).natAbs - (one 3).natAbs, one 3]

/-- Whether a response byte updated any tap. -/
def anyUpdated (resp : Nat) : Bool := (List.range 4).any fun t => resp / 4 ^ t % 4 == 1

/-- The entry of a lane in an EQ cell answers its last request. A request that names a tap is answered with a response other than zero
(R88), so a zero byte is an answer only to a STEP that held every tap, in a cell that asks and answers nothing else (DEDUCED, log entry
81). -/
def Chip.eqAnswers (c : Chip) (l : Nat) (qs : List EqLane) (q : EqLane) : Bool :=
  q.resp != 0 || ((c.lane l).codes == 0 && c.fld (LANE_STATUS.EQ_STATE l) == 5 && qs.all fun x => x.mode == 0 && x.resp == 0)

/-- The partner's answer to this lane's last request. TXTUNE ends after 8 rounds in a row with no tap updated, or after 128
(R88, R90). -/
def Chip.eqAnswer (c : Chip) (l resp : Nat) : Chip :=
  let x := c.lane l
  if !x.asked then c
  else
    let c := c.modLane l fun x => { x with asked := false }
    if !c.adapting l || c.fld (LANE_STATUS.EQ_STATE l) != 5 then c
    else
      let q := if anyUpdated resp then 0 else x.quiet + 1
      let c := c.setReg (TAP_SET l 17) (ffeWord (farStep (ffeOf (c.reg (TAP_SET l 17))) x.codes resp))
      let c := c.modLane l fun x => { x with rounds := x.rounds + 1, quiet := q }
      if 8 ≤ q || 128 ≤ x.rounds + 1 then c.setFld (LANE_STATUS.EQ_STATE l) 6 else c.askStep l

/-- A transmitter takes a request: applied whole or not at all, with the responses it gives (R88). Precoding is granted on version
2 (R80). -/
def Chip.eqApply (c : Chip) (l : Nat) (q : EqLane) : Chip × Nat :=
  let c := match q.pre with
    | some b => if c.fld (LINK_STATUS.VERSION (lnkOf l).idx) == 2 then
        (c.setFld (LANE_STATUS.PRE_TX l) b.toNat).setFld ⟨TAP_SET l 1, 17, 1⟩ b.toNat else c
    | none => c
  if q.mode.toNat = 0 then (c, 0)
  else
    let (cs, rs) := ffeApply (ffeOf (c.reg (TAP_SET l 0))) q
    (c.setReg (TAP_SET l 0) (ffeWord cs), respByte rs)

/-- A received EQ cell in training, or for a lane that retrains: each lane this device transmits on applies its request, and the
responses go back; a receiving lane takes its answer (R88, R90, R92). -/
def Chip.takeEq (c : Chip) (k : Lnk) (qs : List EqLane) : Chip :=
  let open_ (l : Nat) : Bool := c.linkState k == 1 || (c.linkUp k && !c.inService l)
  let step (acc : Chip × List (Nat × Nat)) (ll : Nat) : Chip × List (Nat × Nat) :=
    let (c, rs) := acc
    let l := c.pairOf k ll
    match qs[ll]? with
    | some q =>
      if !open_ l then (c, rs)
      else if c.fld (LANE_STATUS.DIR l) = 1 then
        let (c, r) := c.eqApply l q
        (c, if q.mode.toNat = 0 then rs else rs ++ [(ll, r)])
      else (if c.eqAnswers l qs q then c.eqAnswer l q.resp.toNat else c, rs)
    | none => (c, rs)
  let (c, rs) := (List.range 4).foldl step (c, [])
  if rs.isEmpty then c
  else c.queueEq k fun ll => eqBytes 0 [] (((rs.find? fun e => e.1 == ll).map (·.2)).getD 0)

/-- Precoding asked for by the receiver: DFE h1 at least 0.50 of the main cursor, or forced (R80). Version 2 only. -/
def Chip.wantsPrecode (c : Chip) (l : Nat) (taps : List Word) : Bool :=
  let h1 := BitVec.ofNat 16 (taps.getD 14 0).toNat
  c.fld (LINK_STATUS.VERSION (lnkOf l).idx) == 2 &&
    match c.fld (LANE_EQ_CTRL.PRECODE l) with
    | 1 => true
    | 2 => false
    | _ => decide ((8192 : Int) ≤ h1.toInt)

/-- Adaptation ends in TRACK: the receive settings found are stored with the coefficients asked of the far end, and the precoding
decision is taken and asked for (R80, R90). -/
def Chip.trackTaps (c : Chip) (l : Nat) (taps : List Word) : Chip :=
  let pre := c.wantsPrecode l taps
  let far := c.reg (TAP_SET l 17)
  let c := (c.loadRx l (taps.drop 1)).setReg (TAP_SET l 17) far
  let c := ((c.setFld ⟨TAP_SET l 1, 16, 1⟩ pre.toNat).setFld (LANE_STATUS.PRE_RX l) pre.toNat).setFld (LANE_STATUS.EQ_STATE l) 7
  if c.fld (LINK_STATUS.VERSION (lnkOf l).idx) == 2 then c.emit (.precodeAsk l pre) else c

end Sys2Proof.Machine
end

