-- ==== Sys2Proof/Machine/Lanes.lean ====
section
/-! DEFINITION. The lanes: eye scans, loopbacks and patterns, the lane retrain, loss of lock, the impaired lane, and the physical
steps of a turnaround (R84–R104, R107). -/

namespace Sys2Proof.Machine

/-! ## Eye scan (R95–R97) -/

/-- Whether grid index `i` belongs to the selected grid: all 957 points, or those with p = 0 or v = 0 (R96). -/
def eyePoint (cross : Bool) (i : Nat) : Bool := i < 957 && (!cross || i / 29 == 16 || i % 29 == 14)

/-- The next grid index at or after `i`. -/
def eyeNext (cross : Bool) (i : Nat) : Option Nat := ((List.range (957 - i)).map (i + ·)).find? (eyePoint cross)

/-- Every result reads 0xFFFF (R96). -/
def Chip.clearEyeResults (c : Chip) (l : Nat) : Chip :=
  (List.range 479).foldl (fun c i => c.setReg (EYE_RESULT l i) 0xFFFFFFFF) c

/-- START: refused with its code, or the scan begins (R97). -/
def Chip.eyeStart (c : Chip) (l : Nat) : Chip :=
  let refuse (c : Chip) (code : Nat) : Chip := c.setFld (EYE_STATUS.RESULT l) code
  let eye := c.fld (EYE_CTRL.EYE l)
  match c.maintAnswer [.lane l] with
  | .conflict => refuse (c.maintRefuse 0x01) 0x03
  | .budget => refuse (c.maintRefuse 0x01) 0x04
  | .granted =>
    if c.fld (LANE_STATUS.DIR l) != 0 || !c.laneLocked l then refuse c 0x05
    else if eye == 3 || (c.fld (LANE_STATUS.RATE l) == 0 && eye != 1) then refuse c 0x07
    else
      let cross := c.on (EYE_CTRL.PATTERN l)
      let c := (c.maintTake 0x01 [.lane l]).clearEyeResults l
      let c := ((c.setFld (EYE_STATUS.BUSY l) 1).setFld (EYE_STATUS.RESULT l) 0).setFld (EYE_STATUS.POINTS l) 0
      (c.setFld (EYE_CTRL.START l) 1).modLane l fun x =>
        { x with eye := some { next := (eyeNext cross 0).getD 0, dwell := c.fld (EYE_CTRL.DWELL l), cross := cross, eye := eye } }

/-- A write of EYE_CTRL: a running scan is ended by ABORT and ignores START; otherwise START begins one. -/
def Chip.writeEyeCtrl (c : Chip) (l : Nat) (v : Word) : Chip :=
  let busy := (c.lane l).eye.isSome
  let c := c.writeMasked (EYE_CTRL l) v
  if busy then c.when (bit v 30) fun c => c.endEye l 0x02
  else c.when (bit v 31) fun c => c.eyeStart l

/-- R97. -/
def execEyeScanStart (l : Fin 8) (v : Word) (s : State) : Host.Outcome State Fault Refusal :=
  s.run fun c => c.writeEyeCtrl l v

/-- R97. -/
def execEyeScanAbort (l : Fin 8) (v : Word) (s : State) : Host.Outcome State Fault Refusal :=
  s.run fun c => c.writeEyeCtrl l v

/-- A point's dwell ends: its count, saturating at 0xFFFE, is stored; the next point or DONE follows (R96, R97). -/
def Chip.eyePointDone (c : Chip) (l errors : Nat) : Chip :=
  match (c.lane l).eye with
  | none => c
  | some e =>
    let i := e.next
    let c := c.setFld ⟨EYE_RESULT l (i / 2), 16 * (i % 2), 16⟩ (min errors 0xFFFE)
    let c := c.count (EYE_STATUS.POINTS l)
    match eyeNext e.cross (i + 1) with
    | some j => c.modLane l fun x => { x with eye := some { e with next := j } }
    | none => c.endEye l 0x01

/-- R96. -/
def execEyeScanPoint (l : Fin 8) (errors : Nat) (s : State) : Host.Outcome State Fault Refusal :=
  s.run fun c => c.eyePointDone l errors

/-! ## Loopbacks and patterns (R98) -/

/-- The lane is out of service and its link is not training, so a selected mode takes effect (R98). -/
def Chip.loopEffective (c : Chip) (l : Nat) : Bool := !c.inService l && c.linkState (lnkOf l) != 1

/-- The mode in effect on a lane, 0 while none is. It is judged whenever symbols come or go. -/
def Chip.effLoop (c : Chip) (l : Nat) : Nat := if c.loopEffective l then c.fld (LANE_CTRL.LOOP l) else 0

/-- Symbols of the selected pattern from a place on; they are free values below 4 (log entry 83). -/
def Chip.patternLevels (c : Chip) (l start n : Nat) : List Nat :=
  (List.range n).map fun i =>
    Config.patternSymbol (c.fld (LANE_CTRL.PRBS_SEL l)) (c.fld (LANE_CTRL.LOOP_RATE l)) (start + i) % 4

/-- The checker: mismatches against the pattern are counted in PRBS_ERR (R98). -/
def Chip.checkPattern (c : Chip) (l : Nat) (levels : List Nat) : Chip :=
  let bad := (levels.zip (c.patternLevels l (c.lane l).pat levels.length)).countP fun p => p.1 != p.2
  (c.count ⟨PRBS_ERR l, 0, 32⟩ bad).modLane l fun x => { x with pat := x.pat + levels.length }

/-- The pair that re-sends what link lane k receives in far-end loopback: link lane (k + 2) mod 4 (R98). -/
def Chip.loopPair (c : Chip) (l : Nat) : Nat := c.pairOf (lnkOf l) ((c.linkLane l + 2) % 4)

/-- No block of its own goes out on a lane: it is in electrical idle in a near-end mode, or re-sends what the opposite lane receives
in far-end loopback (R98). -/
def Chip.loopSilent (c : Chip) (l : Nat) : Bool :=
  [1, 2, 3].contains (c.effLoop l) ||
    (c.loopEffective l && (pairs (lnkOf l)).any fun m => c.effLoop m = 3 && c.fld (LANE_STATUS.DIR m) = 0 && c.loopPair m = l)

/-- Symbols that arrive while a mode is in effect: checked in the near-end modes and on a pattern receiver, re-sent unchanged on
the opposite lane in far-end loopback (R98). -/
def Chip.loopReceive (c : Chip) (l : Nat) (levels : List Nat) : Chip :=
  match c.effLoop l with
  | 1 => c.checkPattern l levels
  | 2 => c.checkPattern l levels
  | 3 =>
    let t := c.loopPair l
    if c.fld (LANE_STATUS.DIR l) = 0 && c.fld (LANE_STATUS.DIR t) = 1 && c.loopEffective t then c.emit (.symbols t levels) else c
  | 4 => if c.fld (LANE_STATUS.DIR l) = 0 then c.checkPattern l levels else c
  | _ => c

/-- The pair of a lane in the pattern mode sends the pattern, one block's length at a time (R98). -/
def Chip.sendPattern (c : Chip) (l : Nat) : Chip :=
  let n := if c.fld (LANE_CTRL.LOOP_RATE l) = 0 then 5344 else 2672
  (c.emit (.symbols l (c.patternLevels l (c.lane l).pat n))).modLane l fun x => { x with pat := x.pat + n }

/-- LOOP takes a mode: 0b000 ends any mode and releases the lock; another takes the lock, or reads back 0b000 when it is
refused. -/
def Chip.selectLoop (c : Chip) (l mode : Nat) : Chip :=
  let c := (c.setReg (PRBS_ERR l) 0).modLane l fun x => { x with pat := 0 }
  if mode = 0 then c.endLoop l
  else if c.fld (LANE_CTRL.LOOP l) != 0 then (c.setFld (LANE_CTRL.LOOP l) mode).emit (.loopMode l mode (c.loopEffective l))
  else match c.maintRequest 0x05 [.lane l] with
    | (.granted, c) => (c.setFld (LANE_CTRL.LOOP l) mode).emit (.loopMode l mode (c.loopEffective l))
    | (_, c) => c.setFld (LANE_CTRL.LOOP l) 0

/-- A write of LANE_CTRL: reserved values of PRBS_SEL and LOOP are ignored (R104). -/
def Chip.writeLaneCtrl (c : Chip) (l : Nat) (v : Word) : Chip :=
  if !pagePresent c.part (0x10 + l) then c
  else
    let sel := v.toNat / 256 % 16
    let mode := v.toNat / 16 % 8
    let c := c.setFld (LANE_CTRL.LOOP_RATE l) (v.toNat / 2 ^ 12 % 4)
    let c := c.when (decide (sel ≤ 2)) fun c => c.setFld (LANE_CTRL.PRBS_SEL l) sel
    c.when (decide (mode ≤ 4)) fun c => c.selectLoop l mode

/-- R98. -/
def execNearEndSerial (l : Fin 8) (v : Word) (s : State) : Host.Outcome State Fault Refusal :=
  s.run fun c => c.writeLaneCtrl l v
/-- R98. -/
def execNearEndParallel (l : Fin 8) (v : Word) (s : State) : Host.Outcome State Fault Refusal :=
  s.run fun c => c.writeLaneCtrl l v
/-- R98. -/
def execFarEndRetimed (l : Fin 8) (v : Word) (s : State) : Host.Outcome State Fault Refusal :=
  s.run fun c => c.writeLaneCtrl l v
/-- R98. -/
def execPattern (l : Fin 8) (v : Word) (s : State) : Host.Outcome State Fault Refusal :=
  s.run fun c => c.writeLaneCtrl l v
/-- R98. -/
def execLoopNone (l : Fin 8) (v : Word) (s : State) : Host.Outcome State Fault Refusal :=
  s.run fun c => c.writeLaneCtrl l v

/-! ## Retraining one lane (R92, R127) -/

/-- A lane that a lane repair retrains starts from its live taps (R379): TAP_SRC then names neither presets nor a record. -/
def Chip.retrainLive (c : Chip) (l rate : Nat) : Chip :=
  let live := (List.range 27).map fun i => c.liveTap l (i + 1)
  ((c.startAdapt l rate none).loadRx l live).setFld (LANE_STATUS.TAP_SRC l) 0

/-- R90 runs again on a lane whose lock is held: a lane that receives starts from a record of its cable or from mid-range and sends
its initial request; one that transmits starts from the rate's default preset and answers the partner's requests (R89, R90). -/
def Chip.beginRetrain (c : Chip) (l : Nat) : Chip :=
  let k := lnkOf l
  let c := c.modLane l fun x => { x with retraining := true, out := .retraining }
  let rate := c.fld (LINK_STATUS.RATE k.idx)
  let live := c.copp.repairLanes.contains l
  if c.fld (LANE_STATUS.DIR l) != 0 then
    (if live then c else c.setReg (TAP_SET l 0) (presetWord (defaultPreset rate))).setFld (LANE_STATUS.EQ_STATE l) 1
  else if live then (c.retrainLive l rate).sendRequests k [l]
  else
    let r? := c.usableRecord k (c.fld (LINK_STATUS.VERSION k.idx)) rate
    let c := if c.on (LANE_EQ_CTRL.USE_RECORD l) then c.countUse k r? else c
    (c.startAdapt l rate r?).sendRequests k [l]

/-- Ask for the lane's lock and a unit and begin adaptation again; refused, it is not queued here. -/
def Chip.retrainLane (c : Chip) (l : Nat) : MaintAnswer × Chip :=
  match c.maintRequest 0x02 [.lane l] with
  | (.granted, c) => (.granted, c.beginRetrain l)
  | (a, c) => (a, c)

/-- A write of LANE_EQ_CTRL. RETRAIN on a lane in service first has the link layer take it out, reason 2 (host request); on a
lane out of service the retrain begins if its lock is granted (R92, R94, R127). RETRAIN stays 0 where the lane is the last of its
direction, whose link recovers instead. -/
def Chip.writeLaneEqCtrl (c : Chip) (l : Nat) (v : Word) : Chip :=
  let c := c.writeMasked (LANE_EQ_CTRL l) v
  if !bit v 8 || !pagePresent c.part (0x10 + l) || (c.lane l).retraining then c
  else if c.inService l then
    let c := c.takeLaneOut l 2 true
    if (c.lane l).out == .leaving then c.setFld (LANE_EQ_CTRL.RETRAIN l) 1 else c
  else match c.retrainLane l with
    | (.granted, c) => c.setFld (LANE_EQ_CTRL.RETRAIN l) 1
    | (_, c) => c

/-- R92. -/
def execLaneEqRetrain (l : Fin 8) (v : Word) (s : State) : Host.Outcome State Fault Refusal :=
  s.run fun c => c.writeLaneEqCtrl l v

/-! ## Loss of lock and the impaired lane (R85, R94, R107) -/

/-- The old receiver lets go: its termination off, the lane now transmits with the FFE and precoding its tap set holds for that
(R91, R101 step 4). -/
def Chip.receiverRelease (c : Chip) (l : Nat) : Chip :=
  let c := (((c.setFld (LANE_STATUS.DIR l) 1).setFld (LANE_STATUS.SVC l) 0).setFld (LANE_STATUS.ALIGN l) 3).syncMaps (lnkOf l)
  let c := c.setFld (LANE_STATUS.PRE_TX l) (c.fld ⟨TAP_SET l 1, 17, 1⟩)
  c.modLane l fun y => { y with released := true, idle := true }

/-- The old transmitter goes idle and switches to receive, with the receive settings its tap set holds (R91, R101 steps 3 and
6). -/
def Chip.transmitterRelease (c : Chip) (l : Nat) : Chip :=
  let c := (((c.setFld (LANE_STATUS.DIR l) 0).setFld (LANE_STATUS.SVC l) 0).setFld (LANE_STATUS.ALIGN l) 0).syncMaps (lnkOf l)
  let c := c.setFld (LANE_STATUS.PRE_RX l) (c.fld ⟨TAP_SET l 1, 16, 1⟩)
  c.modLane l fun y => { y with released := true, idle := false, txState := 0, run := 0, missed := 0, mcrcRun := 0, carry := [] }

/-- A LOCKED lane loses lock: counted, reported, its activities ended; a confirmed turn goes on from it, and a lane in service
is taken out (R85, R94, R102). -/
def Chip.loseLock (c : Chip) (l : Nat) : Chip :=
  if !c.laneLocked l then c
  else
    let c := ((c.setFld (LANE_STATUS.ALIGN l) 0).count (LANE_CNT.LOL l)).raiseOpen (c.evLol l)
    let c := c.modLane l fun x => { x with run := 0, missed := 0, mcrcRun := 0, carry := [] }
    let c := c.endLaneActivity l 0x06
    if c.turning l && (c.lane l).confirmed then
      if (c.lane l).released then c else c.receiverRelease l
    else if c.inService l then c.takeLaneOut l 0 true
    else c

/-- R85. -/
def execLossOfLock (l : Fin 8) (s : State) : Host.Outcome State Fault Refusal :=
  s.run fun c => c.loseLock l

/-- More than 4 bad blocks within the last 1,024 received on the lane (R107). -/
def LaneSt.impaired (x : LaneSt) : Bool := 4 < (x.badAt.filter fun n => x.blocks < n + 1024).length

/-- An impaired lane raises its port's event, has any scan ended with ABORTED, and is taken out of service (R107). -/
def Chip.laneImpaired (c : Chip) (l : Nat) : Chip :=
  if (c.lane l).impaired && c.inService l then
    let c := c.raiseOpen (evOf (lnkOf l) 53 59)
    let c := (c.endEye l 0x02).modLane l fun x => { x with badAt := [] }
    c.takeLaneOut l 1 true
  else c

/-- R107. -/
def execLaneImpaired (l : Fin 8) (s : State) : Host.Outcome State Fault Refusal :=
  s.run fun c => c.laneImpaired l

/-! ## The physical steps of a turnaround (R101) -/

/-- A lane under a confirmed turn. -/
def Chip.turnStep (c : Chip) (l : Nat) (ok : LaneSt → Bool) (f : Chip → Chip) : Chip :=
  if c.turning l && (c.lane l).confirmed && ok (c.lane l) then f c else c

/-- A receiving lane's skew in its group is within the 180 ns that deskew absorbs (R87). -/
def Chip.deskewed (c : Chip) (l : Nat) : Bool := (c.lane l).skew ≤ 180

/-- Step 3: the named block is sent with LSTATE QUIET, then the old transmitter is idle and receives. -/
def execTurnQuiet (l : Fin 8) (s : State) : Host.Outcome State Fault Refusal :=
  s.run fun c =>
    c.turnStep l (fun x => !x.released) fun c =>
      if c.fld (LANE_STATUS.DIR l) = 1 then (c.sendQuiet l).transmitterRelease l else c

/-- Step 4: the old receiver removes its termination and loads its transmit settings. -/
def execTurnReceiverRelease (l : Fin 8) (s : State) : Host.Outcome State Fault Refusal :=
  s.run fun c =>
    c.turnStep l (fun x => !x.released) fun c =>
      if c.fld (LANE_STATUS.DIR l) = 0 then c.receiverRelease l else c

/-- Step 5: the new transmitter sends blocks with LSTATE REJOIN, its BCNT following the new group. -/
def execRejoinStart (l : Fin 8) (s : State) : Host.Outcome State Fault Refusal :=
  s.run fun c =>
    c.turnStep l (fun x => x.released && x.idle) fun c =>
      if c.fld (LANE_STATUS.DIR l) = 1 then
        let b := match c.group (lnkOf l) 1 with
          | g :: _ => (c.lane g).txBcnt
          | [] => (c.lane l).txBcnt
        (c.emit (.rejoin l)).modLane l fun x => { x with idle := false, txState := 3, txBcnt := b }
      else c

/-- Steps 6 and 7: the lane is locked and deskewed in its new direction and reported ready; the new transmitter reports its own end. -/
def execTurnLaneReady (l : Fin 8) (s : State) : Host.Outcome State Fault Refusal :=
  s.run fun c =>
    c.turnStep l (fun x => x.released && !x.idle) fun c =>
      if c.fld (LANE_STATUS.DIR l) = 1 || (c.laneLocked l && c.deskewed l) then c.modLane l fun x => { x with ready := true } else c

end Sys2Proof.Machine
end

