-- ==== Sys2Proof/Machine/Transport.lean ====
section
/-! DEFINITION. Blocks and cells on a link: receiving and sending a block, sequencing, credits, acknowledgement and replay
(R84, R86, R105–R122, R131). -/

namespace Sys2Proof.Machine

/-! ## Receiving a cell -/

/-- A TYPE allowed on a flow (R112). -/
def typeAllowed (typ f : Nat) : Bool :=
  if f = 0 then typ == 0 || typ == 1
  else if f < 3 then typ % 8 == clsMgmt
  else typ % 8 == clsNp || typ % 8 == clsP || typ % 8 == clsCpl

/-- The key of a message being assembled: its flow and credit class. -/
def asmKey (x : Cell) : Nat := x.flow * 8 + x.typ % 8

/-- Cells of the message being assembled on the cell's flow and class. -/
def LinkSt.asmCells (s : LinkSt) (x : Cell) : Nat := ((s.asm.find? fun e => e.1 == asmKey x).map (·.2.1)).getD 0

/-- The message being assembled on the cell's flow and class is counted as ended: the cell that ends it was discarded, and its bytes
run together with the next message (R113). -/
def LinkSt.endCount (s : LinkSt) (x : Cell) : LinkSt :=
  { s with asm := s.asm.map fun e => if e.1 == asmKey x then (e.1, 0, e.2.2) else e }

/-- A protocol violation of R113, or none. -/
def Chip.violates (c : Chip) (k : Lnk) (x : Cell) : Bool :=
  256 ≤ x.flow || 16 ≤ x.len || !typeAllowed x.typ x.flow || !c.flowExists x.flow || 64 ≤ (c.link k).asmCells x

/-- A violation is counted and raises the port's event (R113). -/
def Chip.protoErr (c : Chip) (k : Lnk) : Chip :=
  (c.count (LINK_CNT.PROTO_ERR k.idx)).raiseOpen (evOf k 62 63)

def lookup (xs : List (Nat × Nat)) (f : Nat) : Nat := ((xs.find? fun e => e.1 == f).map (·.2)).getD 0
def bump (xs : List (Nat × Nat)) (f n : Nat) : List (Nat × Nat) :=
  if xs.any fun e => e.1 == f then xs.map fun e => if e.1 == f then (f, e.2 + n) else e else xs ++ [(f, n)]

/-- The guarantee of a flow in the direction arriving over a link, while it is admitted there (R143, R144). -/
def Chip.guarIn (c : Chip) (k : Lnk) (f : Nat) : Nat :=
  let w := (c.flow f).guar.toNat
  if f < 3 || c.draining f then 0 else if c.sideLink f == k then w % 4096 else w / 65536 % 4096

/-- One more cell of the flow exceeds what the partner may send: its guarantee and its extra grant, or, for a CTRL flow, its extra
grant and the reservation that the CTRL flows share (R149). -/
def Chip.pastGrant (c : Chip) (k : Lnk) (f : Nat) : Bool :=
  let s := c.sched k
  let used := lookup s.sentIn f
  let extra := lookup s.extraIn f
  let shared := ((s.sentIn.filter fun e => c.isCtrl e.1).map fun e => e.2 - lookup s.extraIn e.1).sum
  c.schedules k && f != 0 &&
    if c.isCtrl f then decide (extra ≤ used) && decide (s.resIn ≤ shared) else decide (c.guarIn k f + extra ≤ used)

/-- The scheduler counts a cell that has arrived. -/
def Chip.noteCell (c : Chip) (k : Lnk) (f : Nat) : Chip :=
  if !c.schedules k || f = 0 then c
  else c.modSched k fun s => { s with sentIn := bump s.sentIn f 1, received := bump s.received (256 * c.epoch + f) 1 }

/-- A cell beyond the partner's grants is counted for its flow and link, and raises EV066 (R149); a cell of a FAILED flow is counted
for its flow (R160). -/
def Chip.checkGrant (c : Chip) (k : Lnk) (f : Nat) : Chip :=
  let past := c.pastGrant k f
  let c := c.noteCell k f
  let c := if past || c.flowState f = 4 then c.count (FLOW_CNT.OVER f) else c
  if past then (c.count ⟨SCHED k.idx 7, 0, 32⟩).raise 66 (k.idx * 2 ^ 30 + f) else c

/-- The flow's messages end at the surface engine, in the clear. -/
def Chip.toSrf (c : Chip) (f : Nat) : Bool := 3 ≤ f && c.fld (FLOW_CFG.ENDPOINT f) == 5 && !c.on (FLOW_CFG.ENC f)

/-- A whole message of a flow into the surface engine keeps its buffer (R201). -/
def Chip.keepBuffer (c : Chip) (f : Nat) : Chip :=
  if c.toSrf f && c.pageOn 0x1D then { c with surf := { c.surf with held := c.surf.held ++ [f] } } else c

/-- A complete message of an encrypted flow of this link goes to the key/crypto engine (R367). -/
def Chip.noteEntered (c : Chip) (k : Lnk) (f cls : Nat) : Chip :=
  if c.on (FLOW_CFG.ENC f) && c.sideLink f == k then
    { c with muni := { c.muni with entered := c.muni.entered ++ [(f, cls)] } }
  else c

/-- A cell joins its message; a complete message leaves for the block at the flow's end (R112). -/
def Chip.assemble (c : Chip) (k : Lnk) (x : Cell) : Chip :=
  let s := c.link k
  let key := asmKey x
  let have_ := ((s.asm.find? fun e => e.1 == key).map (·.2)).getD (0, [])
  let rest := s.asm.filter fun e => e.1 != key
  let bytes := have_.2 ++ x.payload.take (8 * x.len)
  if 8 ≤ x.typ then c.modLink k fun s => { s with asm := rest ++ [(key, have_.1 + 1, bytes)] }
  else (((c.modLink k fun s => { s with asm := rest }).keepBuffer x.flow).noteEntered k x.flow (x.typ % 8)).emit
    (.delivered k x.flow (x.typ % 8) bytes)

/-- A cell in transit from a link waits for the other link; a link that is not up discards and counts it when it leads away from the
master (R343). Of its message only the cells are counted (R113). -/
def Chip.forwardCell (c : Chip) (src dst : Lnk) (x : Cell) : Chip :=
  let n := (c.link src).asmCells x
  let c := c.modLink src fun s =>
    { s with asm := (s.asm.filter fun e => e.1 != asmKey x) ++ if 8 ≤ x.typ then [(asmKey x, n + 1, [])] else [] }
  if c.aLink == some dst && !c.linkUp dst && !c.linkAsleep dst && c.linkState dst != 3 then c.count CASC_CNT.DROPPED
  else c.setOutQ dst x.flow (c.outQ dst x.flow ++
    [{ typ := x.typ, len := x.len, payload := x.payload, epoch := c.epoch, first := n == 0 }])

/-! ### Assembly buffers of the surface engine (R201) -/

/-- The flows of the buffers in use: of messages queued for a write unit, of whole ones not yet presented, and of messages partly
assembled. -/
def Chip.srfBuffers (c : Chip) : List Nat :=
  c.surf.jobs.map (·.flow) ++ c.surf.held ++ (((c.link .ul).asm ++ (c.link .cs).asm).map (·.1 / 8)).filter c.toSrf

/-- A flow may take a buffer: 64 in all, 2 for one flow. -/
def Chip.bufferFor (c : Chip) (f : Nat) : Bool :=
  decide (c.srfBuffers.length < 64) && decide (c.srfBuffers.countP (fun g => g == f) < 2)

/-- Nothing waits at the SRF ingress. -/
def Chip.ingressClear (c : Chip) : Bool := c.surf.wait.isEmpty && (c.link .ul).srfWait.isEmpty && (c.link .cs).srfWait.isEmpty

/-- The cell begins a message of its flow and class on the link. -/
def Chip.begins (c : Chip) (k : Lnk) (x : Cell) : Bool := !((c.link k).asm.any fun e => e.1 == asmKey x)

/-- A cell for the surface engine waits at its ingress: behind those that wait, or because it begins a message and finds no buffer. -/
def Chip.srfWaits (c : Chip) (k : Lnk) (x : Cell) : Bool :=
  c.toSrf x.flow && c.pageOn 0x1D && (!c.ingressClear || (c.begins k x && !c.bufferFor x.flow))

/-- A cell leaves its buffer: into its message, on to the other link, or discarded on a FAILED flow (R119, R160, R341); an
ISO cell during a fail-over is discarded and counted (R389). -/
def Chip.placeCell (c : Chip) (k : Lnk) (x : Cell) : Chip :=
  let c := c.returnCredit k (x.typ % 8)
  if c.router.phase != 0 && c.isIso x.flow then c.count STBY_ISO_DROP.COUNT
  else if c.flowState x.flow = 4 then c
  else if x.flow = 2 && k == .cs && !c.paired then c.forwardCell k .ul x
  else match c.transitLink x.flow with
    | some t => c.forwardCell k (if k == t then c.sideLink x.flow else t) x
    | none => c.assemble k x

/-- Cells of a link that wait at the SRF ingress go on as far as buffers are free. The fuel is the number that wait. -/
def Chip.drainSrf (c : Chip) (k : Lnk) : Nat → Chip
  | 0 => c
  | n + 1 => match (c.link k).srfWait with
    | [] => c
    | x :: rest =>
      if c.begins k x && !c.bufferFor x.flow then c
      else ((c.modLink k fun s => { s with srfWait := rest }).placeCell k x).drainSrf k n

/-- The ingress moves on: the uplink's cells, then, when none of them waits, those of the cascade link. R201 does not order the two;
DESIGN CHOICE (log entry 88). -/
def Chip.drainIngress (c : Chip) : Chip :=
  let c := c.drainSrf .ul (c.link .ul).srfWait.length
  if (c.link .ul).srfWait.isEmpty then c.drainSrf .cs (c.link .cs).srfWait.length else c

/-- A cell whose turn has come is checked (R113, R149) and leaves its buffer, unless it waits there: while no router is active as a
sequenced cell (R131, R135), or for the surface engine (R201). -/
def Chip.deliverCell (c : Chip) (k : Lnk) (x : Cell) : Chip :=
  if c.violates k x then
    let c := (c.protoErr k).returnCredit k (x.typ % 8)
    if x.typ < 8 then c.modLink k fun s => s.endCount x else c
  else if c.noRouter && c.sequenced x then c.modLink k fun s => { s with stalled := s.stalled ++ [x] }
  else
    let c := c.checkGrant k x.flow
    if c.srfWaits k x then c.modLink k fun s => { s with srfWait := s.srfWait ++ [x] } else c.placeCell k x

/-- The cells that waited for a router go on, in order (R131). -/
def Chip.drainStalled (c : Chip) (k : Lnk) : Chip :=
  let xs := (c.link k).stalled
  xs.foldl (fun c x => c.deliverCell k x) (c.modLink k fun s => { s with stalled := [] })

/-- Early cells whose turn has come are delivered in order (R117). The fuel is the number held. -/
def Chip.drainEarly (c : Chip) (k : Lnk) : Nat → Chip
  | 0 => c
  | n + 1 =>
    let s := c.link k
    match s.early.find? fun x => x.seq == s.nextSeq with
    | none => c
    | some x =>
      let c := c.modLink k fun s =>
        { s with
          early := s.early.filter fun y => y.seq != x.seq
          nextSeq := (s.nextSeq + 1) % 65536 }
      (c.deliverCell k x).drainEarly k n

/-- A cell that the credits given do not cover: as many cells of its class have been taken as were advertised and returned since
(R120). -/
def LinkSt.overrun (s : LinkSt) (cls : Nat) : Bool := poolSizes.get cls + s.rxBack.get cls ≤ s.rxTaken.get cls

/-- A data cell arrives: a duplicate is discarded and its credit returned, a cell without credit is an overrun that starts recovery,
one ahead of NEXT_SEQ waits in its class buffer, and the next one is delivered (R117, R119, R120). -/
def Chip.takeData (c : Chip) (k : Lnk) (x : Cell) : Chip :=
  let cls := x.typ % 8
  let s := c.link k
  let d := seqDiff x.seq s.nextSeq
  let seqd := c.sequenced x
  if seqd && (32768 ≤ d || s.early.any (fun y => y.seq == x.seq)) then c.returnCredit k cls
  else if s.overrun cls then (c.protoErr k).startRecovery k
  else
    let c := c.modLink k fun s => { s with rxTaken := s.rxTaken.add cls 1 }
    if !seqd then c.deliverCell k x
    else if d = 0 then
      ((c.modLink k fun s => { s with nextSeq := (s.nextSeq + 1) % 65536 }).deliverCell k x).drainEarly k s.early.length
    else c.modLink k fun s => { s with early := s.early ++ [x] }

/-- The codes of link management cells (R122). -/
def lmcCodes : List Nat :=
  [0x01, 0x02, 0x03, 0x10, 0x11, 0x20, 0x21, 0x22, 0x23, 0x24, 0x30, 0x31, 0x38, 0x40, 0x41, 0x50]

/-- A cell of a good block: its credit return is taken, then the cell itself (R112, R119, R122). -/
def Chip.takeCell (c : Chip) (k : Lnk) (x : Cell) : Chip :=
  let cls := cretClass (x.cret / 1024)
  let c := if x.cret % 1024 = 0 then c
    else c.modLink k fun s => { s with credits := s.credits.add cls (x.cret % 1024) }
  if x.flow = 0 && x.typ < 2 && 16 ≤ x.len then c.protoErr k
  else if x.flow = 0 && x.typ = 0 then c
  else if x.flow = 0 && x.typ = 1 then
    let code := (x.payload.headD 0).toNat
    if lmcCodes.contains code then c.emit (.lmc k code (x.payload.drop 1)) else c.protoErr k
  else if dataType x.typ then c.takeData k x
  else c.protoErr k

/-! ## Receiving a block (R84, R86, R106) -/

/-- The marker in force: the received one, or the predicted one when it fails MCRC or its PRE differs (R86). -/
def Chip.markerOf (c : Chip) (l : Nat) (w : Nat) : Bool × Marker :=
  let x := c.lane l
  let guess : Marker :=
    { lane := x.lastLane, lstate := x.lastState, pre := x.lastPre, epb := 0, bcnt := (x.lastBcnt + 1) % 65536 }
  match Marker.ofWord w with
  | some m => if m.pre == c.fld (LANE_STATUS.PRE_RX l) then (true, m) else (false, guess)
  | none => (false, guess)

/-- Remember a marker. -/
def LaneSt.mark (x : LaneSt) (m : Marker) : LaneSt :=
  { x with lastLane := m.lane, lastState := m.lstate, lastPre := m.pre, lastBcnt := m.bcnt }

/-- A 64-bit counter in two words, saturating (R137). -/
def Chip.count64 (c : Chip) (a n : Nat) : Chip :=
  let v := min ((c.reg (a + 4)).toNat * 2 ^ 32 + (c.reg a).toNat + n) (2 ^ 64 - 1)
  (c.setReg a (BitVec.ofNat 32 v)).setReg (a + 4) (BitVec.ofNat 32 (v / 2 ^ 32))

/-- A bad block is discarded entire, counted, reported and raises its event (R106). -/
def Chip.badBlock (c : Chip) (l : Nat) (m : Marker) : Chip :=
  let k := lnkOf l
  let c := (c.count (REPLAY_CNT.BAD_BLOCKS k.idx)).raiseOpen (evOf k 52 58)
  let c := c.modLane l fun x => { x with badAt := (x.badAt.filter fun n => x.blocks < n + 1024) ++ [x.blocks] }
  let c := c.modLink k fun s => { s with rxBad := (s.rxBad ++ [(m.lane, m.bcnt)]).drop (s.rxBad.length - 255) }
  c.queueUrgent k 0x01 (c.ackBody k)

/-- A block without HOLD has arrived: HOLD is no longer being received. At the scheduling end new cells may go at once; a
partner waits for a fresh ALLOT as well (R131). -/
def Chip.holdEnds (c : Chip) (k : Lnk) : Chip :=
  if c.on (LINK_STATUS.HOLD_RX k.idx) then
    (c.setFld (LINK_STATUS.HOLD_RX k.idx) 0).modLink k fun s =>
      { s with holdEpochs := 0, holdWait := s.holdWait && !c.schedules k }
  else c

/-- The codeword of a block: counted under one of three outcomes, bad or its cells taken (R106, R137). -/
def Chip.codeword (c : Chip) (l : Nat) (m : Marker) (bits : List Bool) : Chip :=
  let k := lnkOf l
  let a := FEC k.idx (c.linkLane l)
  let c := (c.count64 (a 0) 1).modLane l fun x => { x with blocks := x.blocks + 1 }
  let c := c.modLink k fun s => { s with rxBad := s.rxBad.filter fun e => e.1 != m.lane || seqDiff m.bcnt e.2 < 32768 }
  match decodeCodeword m.bcnt m.lane bits with
  | none => (c.count ⟨a 4, 0, 32⟩).badBlock l m
  | some (cells, n) =>
    let c := if n = 0 then c
      else ((c.count ⟨a 2, 0, 32⟩).count ⟨a 3, 0, 32⟩ n).count ⟨a (5 + n), 0, 32⟩
    let bad := cells.countP Option.isNone
    let hold := match cells.headD none with
      | some x => x.flow == 0 && x.typ == 1 && x.payload.headD 0 == 0x38
      | none => false
    if bad = 0 then
      let c := if hold then c else c.holdEnds k
      cells.foldl (fun c x => match x with | some x => c.takeCell k x | none => c) c
    else (c.count ⟨a 5, 0, 32⟩ bad).badBlock l m

/-- A block on a LOCKED lane. Four expected commas missed, or 16 markers failing MCRC, lose lock (R85). -/
def Chip.lockedBlock (c : Chip) (l : Nat) (nrz present : Bool) (levels : List Nat) : Chip :=
  let bits := bitsAfterComma nrz (c.on (LANE_STATUS.PRE_RX l)) levels
  let (good, m) := c.markerOf l (ofBitsMsb (bits.take 32))
  let c := if good then c else c.count (LANE_CNT.MCRC_ERR l)
  let c := c.modLane l fun x =>
    let y := x.mark m
    let armed := if m.lstate = 1 then x.armedRx + 1 else 0
    { y with
      missed := if present then 0 else x.missed + 1
      mcrcRun := if good then 0 else x.mcrcRun + 1
      armedRx := armed
      confirmed := x.confirmed || (decide (2 ≤ armed) && c.turning l) }
  let c := c.setFld (LANE_STATUS.LSTATE_RX l) m.lstate
  if 4 ≤ (c.lane l).missed || 16 ≤ (c.lane l).mcrcRun then c.loseLock l
  else c.codeword l m (bits.drop 32)

/-- In training the LANE field of one lane tells an end which pair carries which link lane: the pairs of one end and the link lanes
differ by the same two bits on every lane (DEDUCED from R34 and R83, log entry 80). -/
def Chip.learnLanes (c : Chip) (l lane : Nat) : Chip :=
  let k := lnkOf l
  if c.linkState k != 1 then c
  else
    let x := if c.downEnd k then 0 else l % 4 ^^^ lane
    (pairs k).foldl (fun c p => c.setFld (LANE_STATUS.LINK_LANE p) (p % 4 ^^^ x)) c

/-- A block at the expected place in VERIFY: the third comma in a row with a good marker gives lock, a missing comma returns to
SEARCH (R84, R86). -/
def Chip.verifyBlock (c : Chip) (l : Nat) (nrz present : Bool) (levels : List Nat) : Chip :=
  if !present then (c.setFld (LANE_STATUS.ALIGN l) 0).modLane l fun x => { x with run := 0 }
  else
    let bits := bitsAfterComma nrz (c.on (LANE_STATUS.PRE_RX l)) levels
    let run := (c.lane l).run + 1
    match decide (3 ≤ run), c.markerOf l (ofBitsMsb (bits.take 32)) with
    | true, (true, m) =>
      let c := ((c.setFld (LANE_STATUS.ALIGN l) 2).setFld (LANE_STATUS.LSTATE_RX l) m.lstate).learnLanes l m.lane
      c.modLane l fun x => { x.mark m with run := 0, missed := 0, mcrcRun := 0 }
    | _, _ => c.modLane l fun x => { x with run := run }

/-- The first place at which a comma is present, among the `n` places from `i` on. -/
def findComma (nrz : Bool) : Nat → Nat → List Nat → Option Nat
  | 0, _, _ => none
  | n + 1, i, w => if commaPresent nrz w then some i else findComma nrz n (i + 1) (w.drop 1)

/-- The symbols a receiver has not examined yet: SEARCH tests every place for the comma; VERIFY and LOCKED examine a block at the
expected place when it is complete, and keep the rest (R84). The fuel bounds the number of changes in one input. -/
def Chip.alignBlocks (c : Chip) (l : Nat) (nrz : Bool) : Nat → List Nat → Chip
  | 0, w => c.modLane l fun x => { x with carry := w }
  | fuel + 1, w =>
    let n := if nrz then 5344 else 2672
    let cl := if nrz then 32 else 16
    match c.fld (LANE_STATUS.ALIGN l) with
    | 0 => match findComma nrz (w.length + 1 - cl) 0 w with
      | some p =>
        ((c.setFld (LANE_STATUS.ALIGN l) 1).modLane l fun x => { x with run := 0 }).alignBlocks l nrz fuel (w.drop p)
      | none => c.modLane l fun x => { x with carry := w.drop (w.length + 1 - cl) }
    | 3 => c
    | a =>
      if w.length < n then c.modLane l fun x => { x with carry := w }
      else
        let levels := w.take n
        let present := commaPresent nrz levels
        let c := if a = 1 then c.verifyBlock l nrz present levels else c.lockedBlock l nrz present levels
        c.alignBlocks l nrz fuel (w.drop (if c.fld (LANE_STATUS.ALIGN l) = 0 then 1 else n))

/-- Symbols arrive on a lane: to the checker or the opposite lane in a loopback or pattern mode, else to alignment on a lane that
receives. `skewNs` is the lane's skew in its group (R87). -/
def Chip.blockReceive (c : Chip) (l skewNs : Nat) (levels : List Nat) : Chip :=
  if c.effLoop l != 0 then c.loopReceive l levels
  else if c.fld (LANE_STATUS.DIR l) != 0 || c.fld (LANE_STATUS.ALIGN l) = 3 then c
  else
    let w := (c.lane l).carry ++ levels
    let c := c.modLane l fun x => { x with skew := skewNs, carry := [] }
    (c.alignBlocks l (c.fld (LANE_STATUS.RATE l) == 0) 8 w).adaptBlock l

/-- R106. -/
def execBlockReceive (l : Fin 8) (r : Reception) (s : State) : Host.Outcome State Fault Refusal :=
  s.run fun c => c.blockReceive l r.skewNs (r.levels.map (·.val))

/-! ## Sending a block (R108–R110, R132) -/

/-- A block is sent, or the pattern on a lane in that mode, or nothing on a lane that a loopback mode silences. Once an accepting SLEEP_ACK has gone out, the link goes to sleep
(R132). -/
def Chip.blockTransmit (c : Chip) (l : Nat) : Chip :=
  let k := lnkOf l
  if c.effLoop l = 4 && c.fld (LANE_STATUS.DIR l) = 1 then c.sendPattern l
  else if c.loopSilent l then c
  else
    let c := c.sendBlock l
    match (c.link k).sleepGo with
    | some level => if (c.link k).lmcs.any fun m => m.code == 0x41 then c else c.linkSleep k level
    | none => c

/-- R110. -/
def execBlockTransmit (l : Fin 8) (s : State) : Host.Outcome State Fault Refusal :=
  s.run fun c => c.blockTransmit l

/-! ## Acknowledgement (R115–R118) -/

/-- Whether an ACK covers an entry, and whether its block was bad there (R115, R116). -/
def Chip.entryAck (c : Chip) (m : AckMsg) (e : ReplayEntry) : Option Bool :=
  let d := seqDiff m.bcnt.toNat e.bcnt
  if 64 ≤ d then none else some ((m.maps.getD (c.linkLane e.lane) 0).getLsbD d)

/-- One entry under an ACK: freed, or its sequenced cells replayed with the port's event (R136), its streaming credits reclaimed and
counted (R116). -/
def Chip.ackEntry (c : Chip) (k : Lnk) (m : AckMsg) (e : ReplayEntry) : Chip :=
  match c.entryAck m e with
  | none => c.modLink k fun s => { s with replay := s.replay ++ [e] }
  | some false => c
  | some true =>
    let again := e.cells.filter fun x => c.sequenced x.1
    let lost := e.cells.filter fun x => !c.sequenced x.1
    let c := if lost.isEmpty then c else c.count ⟨STREAM_LOST k.idx, 0, 32⟩ lost.length
    (c.raiseOpen (evOf k 52 58)).modLink k fun s =>
      { s with
        again := s.again ++ again
        credits := lost.foldl (fun cr x => cr.add (x.1.typ % 8) 1) s.credits }

/-- An ACK is taken: covered entries are freed or replayed in sequence order, and a cell reported bad in four consecutive
transmissions starts recovery (R116, R118). -/
def Chip.takeAck (c : Chip) (k : Lnk) (m : AckMsg) : Chip :=
  let held := (c.link k).replay
  let c := c.modLink k fun s => { s with replay := [], ackReqs := 0, woken := false }
  let c := held.foldl (fun c e => c.ackEntry k m e) c
  let base := m.nextSeq.toNat
  let c := c.modLink k fun s =>
    { s with again := s.again.mergeSort fun a b => seqDiff a.1.seq base ≤ seqDiff b.1.seq base }
  if (c.link k).again.any fun x => 4 ≤ x.2 then c.startRecovery k else c

/-- R116. -/
def execAck (k : Lnk) (m : AckMsg) (s : State) : Host.Outcome State Fault Refusal :=
  s.run fun c => if c.linkUp k || c.linkState k == 3 then c.takeAck k m else c

/-- A received ACK_REQ is answered with an ACK (R118). -/
def execAckReq (k : Lnk) (s : State) : Host.Outcome State Fault Refusal :=
  s.run fun c => if c.linkUp k then c.queueLmc k 0x01 (c.ackBody k) else c

/-- 128 block durations without an ACK while entries are held: ACK_REQ, and the third unanswered one starts recovery (R118). -/
def execAckReqTimeout (k : Lnk) (s : State) : Host.Outcome State Fault Refusal :=
  s.run fun c =>
    if !c.linkUp k || (c.link k).replay.isEmpty then c
    else if 3 ≤ (c.link k).ackReqs then c.startRecovery k
    else (c.modLink k fun s => { s with ackReqs := s.ackReqs + 1 }).queueUrgent k 0x02 []

end Sys2Proof.Machine
end

