-- ==== Sys2Proof/Machine/SurfOps.lean ====
section
/-! DEFINITION. Surfaces as the engine and the heads share them: descriptors and their checks, pixel formats, the Sprig coding, the
checks of a tile update and its rejection (R189–R200). -/

namespace Sys2Proof.Machine

/-! ## Descriptors (R189–R191, R193) -/

def layPacked : Nat := 0
def layEspalier : Nat := 1
def layRing : Nat := 2

/-- Bytes of a pixel; 0 for a refused format (R192). -/
def pixelBytes (fmt : Nat) : Nat :=
  match fmt with
  | 1 => 2
  | 2 => 3
  | 3 | 4 | 5 => 4
  | _ => 0

/-- The descriptor of a surface as it stands. -/
def Chip.descOf (c : Chip) (s : Nat) : SurfDesc :=
  { layout := c.fld (SD_CTRL.LAYOUT s), fmt := c.fld (SD_CTRL.FORMAT s), width := c.fld (SD_SIZE.WIDTH s),
    height := c.fld (SD_SIZE.HEIGHT s), base := c.fld (SD_BASE.BASE s), aux := c.fld (SD_AUX.AUX s) }

def Chip.surfValid (c : Chip) (s : Nat) : Bool := s < 64 && c.on (SD_CTRL.VALID s)

def SurfDesc.tw (d : SurfDesc) : Nat := (d.width + 63) / 64
def SurfDesc.th (d : SurfDesc) : Nat := (d.height + 15) / 16
def SurfDesc.bpp (d : SurfDesc) : Nat := pixelBytes d.fmt
def SurfDesc.slot (d : SurfDesc) : Nat := 1024 * d.bpp
def SurfDesc.pitch (d : SurfDesc) : Nat := 64 * d.aux

/-- First bytes of a tile's slot, of its directory entry, and of a line of a packed or ring surface. -/
def SurfDesc.slotAt (d : SurfDesc) (tx ty : Nat) : Nat := d.base * 4096 + (ty * d.tw + tx) * d.slot
def SurfDesc.dirAt (d : SurfDesc) (tx ty : Nat) : Nat := d.aux * 4096 + 8 * (ty * d.tw + tx)
def SurfDesc.lineAt (d : SurfDesc) (y : Nat) : Nat := d.base * 4096 + y * d.pitch

/-- The footprint lies within the Stacks (R190). -/
def SurfDesc.fits (d : SurfDesc) : Bool :=
  if d.layout = layEspalier then
    let n := d.tw * d.th
    decide (d.base * 4096 + n * d.slot ≤ stackSize) && decide (d.aux * 4096 + 8 * n ≤ stackSize)
  else decide (d.base * 4096 + d.pitch * d.height ≤ stackSize)

/-- How many other RING surfaces are valid. -/
def Chip.otherRings (c : Chip) (s : Nat) : Nat :=
  (List.range 64).countP fun t => t != s && c.surfValid t && c.fld (SD_CTRL.LAYOUT t) == layRing

/-- Settings with which VALID may not be set (R191). -/
def Chip.badSurface (c : Chip) (s : Nat) : Bool :=
  let d := c.descOf s
  d.layout == 3 || d.bpp == 0 || d.width == 0 || d.height == 0 ||
    (d.layout != layEspalier && d.pitch < d.width * d.bpp) ||
    (d.layout == layRing && (d.height % 16 != 0 || d.height < 16 || 256 < d.height || 4 ≤ c.otherRings s)) || !d.fits

/-! ## The Sprig coding (R195–R197) -/

/-- Widths of the coded channels of a format, in coding order. -/
def channels (fmt : Nat) : List Nat :=
  match fmt with
  | 1 => [5, 6, 5]
  | 4 => [8, 8, 8, 8]
  | 5 => [10, 10, 10]
  | _ => [8, 8, 8]

/-- A number of `n` bits off the front of a bit string. -/
def readBits (n : Nat) (bs : List Bool) : Option (Nat × List Bool) :=
  if bs.length < n then none else some (ofBitsMsb (bs.take n), bs.drop n)

/-- Eight values of `k` bits. -/
def readGroup (k : Nat) : Nat → List Bool → Option (List Nat × List Bool)
  | 0, bs => some ([], bs)
  | m + 1, bs =>
    match readBits k bs with
    | none => none
    | some (z, bs) => (readGroup k m bs).map fun (zs, bs) => (z :: zs, bs)

/-- `m` groups of a channel of width `n`; a width above `n` fails. -/
def readChannel (n : Nat) : Nat → List Bool → Option (List Nat × List Bool)
  | 0, bs => some ([], bs)
  | m + 1, bs =>
    match readBits 4 bs with
    | none => none
    | some (k, bs) =>
      if n < k then none
      else match readGroup k 8 bs with
        | none => none
        | some (zs, bs) => (readChannel n m bs).map fun (rest, bs) => (zs ++ rest, bs)

/-- The residual, modulo 2^n, that a mapped value stands for. -/
def residual (n z : Nat) : Nat := if z % 2 = 0 then z / 2 else 2 ^ n - (z + 1) / 2

/-- Values from mapped residuals by the prediction of R196; `x` is the column, `left` the value before and `first` the first value
of the line. -/
def predict (n : Nat) : Nat → Nat → Nat → List Nat → List Nat
  | _, _, _, [] => []
  | x, left, first, z :: zs =>
    let v := ((if x = 0 then first else left) + residual n z) % 2 ^ n
    v :: predict n ((x + 1) % 64) v (if x = 0 then v else first) zs

/-- All channels of a tile, and the bits left. -/
def readChannels : List Nat → List Bool → Option (List (List Nat) × List Bool)
  | [], bs => some ([], bs)
  | n :: ns, bs =>
    match readChannel n 128 bs with
    | none => none
    | some (zs, bs) => (readChannels ns bs).map fun (rest, bs) => (predict n 0 0 0 zs :: rest, bs)

/-- A pixel in storage format from its channels, X bits 0. -/
def packPixel (fmt : Nat) (vs : List Nat) : Nat :=
  match fmt with
  | 1 => vs.getD 0 0 * 2048 + vs.getD 1 0 * 32 + vs.getD 2 0
  | 4 => vs.getD 0 0 * 2 ^ 24 + vs.getD 1 0 * 65536 + vs.getD 2 0 * 256 + vs.getD 3 0
  | 5 => vs.getD 0 0 * 2 ^ 20 + vs.getD 1 0 * 1024 + vs.getD 2 0
  | _ => vs.getD 0 0 * 65536 + vs.getD 1 0 * 256 + vs.getD 2 0

/-- The 1,024 pixels of a stream held in whole Sprigs, or none where R196 rejects it. -/
def decodeStream (fmt : Nat) (bytes : List Byte) : Option (List Nat) :=
  let len := ofBytes ((bytes.drop 2).take 2)
  let coded := (bytes.drop 8).take len
  if bytes.headD 0 != 0x01#8 || coded.length < len || !((bytes.drop (8 + len)).all (· == 0)) then none
  else match readChannels (channels fmt) (bitsOfBytes coded) with
    | none => none
    | some (vs, rest) =>
      if 8 ≤ rest.length || rest.contains true then none
      else some ((List.range 1024).map fun i => packPixel fmt (vs.map fun ch => ch.getD i 0))

/-- Pixels as bytes in slot order. -/
def pixelsToBytes (bpp : Nat) (ps : List Nat) : List Byte := ps.flatMap fun p => toBytes bpp p

/-- Sprigs a stream needs, from the LEN of its header (R197). -/
def sprigsFor (bytes : List Byte) : Nat := (8 + ofBytes ((bytes.drop 2).take 2) + 119) / 120

/-- Most Sprigs of a tile, and raw data cells with the LEN of the last (R197, R198). -/
def sprigLimit (bpp : Nat) : Nat := match bpp with | 2 => 17 | 3 => 25 | _ => 34
def rawCells (bpp : Nat) : Nat := match bpp with | 2 => 18 | 3 => 26 | _ => 35
def rawLast (bpp : Nat) : Nat := match bpp with | 2 => 1 | 3 => 9 | _ => 2

/-! ## Tile updates (R198–R200) -/

/-- A field of the header cell, little-endian. -/
def hdrNat (cells : List MsgCell) (a n : Nat) : Nat := match cells with
  | [] => 0
  | x :: _ => ofBytes ((fitBytes 120 x.payload).drop a |>.take n)

def tileOp (m : List MsgCell) : Nat := hdrNat m 0 1
def tileFlags (m : List MsgCell) : Nat := hdrNat m 1 1
def tileEnc (m : List MsgCell) : Nat := tileFlags m % 4
def tileSurf (m : List MsgCell) : Nat := hdrNat m 2 1
def tileTx (m : List MsgCell) : Nat := hdrNat m 4 2
def tileTy (m : List MsgCell) : Nat := hdrNat m 6 2
def tileNx (m : List MsgCell) : Nat := hdrNat m 8 2
def tileNy (m : List MsgCell) : Nat := hdrNat m 10 2
def tileNdata (m : List MsgCell) : Nat := hdrNat m 12 1
def tileValue (m : List MsgCell) : Nat := hdrNat m 16 4
def isFill (m : List MsgCell) : Bool := tileOp m == 0x11

/-- The data of a message behind its header cell. -/
def tileData (m : List MsgCell) : List Byte := (m.drop 1).flatMap fun x => fitBytes 120 x.payload

/-- The fields that R199 gives as zero hold zero. -/
def tileZeros (m : List MsgCell) : Bool :=
  tileFlags m < 16 && hdrNat m 13 3 == 0 && hdrNat m 20 100 == 0 && (isFill m || (tileNx m == 0 && tileNy m == 0))

/-- Check 4 of R200: NDATA, the cell count and every LEN. -/
def tileLengths (bpp : Nat) (m : List MsgCell) : Bool :=
  let ds := m.drop 1
  let n := tileNdata m
  let ok := match tileEnc m with
    | 0 => n == rawCells bpp && (ds.dropLast.all fun x => x.len == 15) && (ds.getLast?.any fun x => x.len == rawLast bpp)
    | 1 => n == sprigsFor (tileData m) && ds.all fun x => x.len == 15
    | _ => n == 0
  ok && ds.length == n && (m.head?.any fun x => 3 ≤ x.len)

/-- Checks 2–8 of R200, with the RING test of check 1, against the descriptor as it stands. A FILL of no tiles counts as OUTSIDE
(log entry 9). -/
def Chip.descReason (c : Chip) (m : List MsgCell) : Nat :=
  let s := tileSurf m
  let d := c.descOf s
  let data := tileData m
  if s < 64 && d.layout == layRing then 0x01
  else if !c.surfValid s then 0x02
  else if (if isFill m then tileNx m == 0 || tileNy m == 0 || d.tw < tileTx m + tileNx m || d.th < tileTy m + tileNy m
      else d.tw ≤ tileTx m || d.th ≤ tileTy m) then 0x03
  else if !tileLengths d.bpp m then 0x05
  else if tileEnc m != 1 then 0
  else if sprigLimit d.bpp < tileNdata m then 0x08
  else if (data.getD 1 0).toNat != d.fmt then 0x04
  else match decodeStream d.fmt data with
    | none => 0x06
    | some ps => if crc32 (pixelsToBytes d.bpp ps) == ofBytes ((data.drop 4).take 4) then 0 else 0x07

/-- The reason of R200 for which a tile update is rejected, 0 for none. -/
def Chip.tileReason (c : Chip) (flow : Nat) (m : List MsgCell) : Nat :=
  let enc := tileEnc m
  let cls := c.fld (FLOW_CFG.CLASS flow)
  if !(tileOp m == 0x10 || (isFill m && enc == 2)) || enc == 3 || !(m.all fun x => x.typ % 8 == clsP) || !tileZeros m ||
      !(cls == 3 || cls == 4) then 0x01
  else c.descReason m

/-- A rejection is counted, recorded and raises EV128 (R200, R212). -/
def Chip.rejectTile (c : Chip) (reason flow surf op tx ty : Nat) : Chip :=
  let c := if surf < 64 then c.count (SD_REJ.REJECTED surf) else c
  let c := c.setReg SURF_REJ0 (BitVec.ofNat 32 (reason * 2 ^ 24 + flow % 256 * 2 ^ 16 + surf % 64 * 2 ^ 8 + op % 256))
  (c.setReg SURF_REJ1 (BitVec.ofNat 32 (ty % 512 * 2 ^ 16 + tx % 128))).raise 128
    (reason * 2 ^ 16 + surf % 64 * 2 ^ 8 + flow % 256)

def Chip.rejectMsg (c : Chip) (reason flow : Nat) (m : List MsgCell) : Chip :=
  c.rejectTile reason flow (tileSurf m) (tileOp m) (tileTx m) (tileTy m)

/-- A message left incomplete when its flow becomes FREE is discarded with FLOW_GONE (R200). One whose first cell still waits at the SRF
ingress has not been begun: its cells go with the flow, uncounted and without FLOW_GONE (DESIGN CHOICE, log entry 88). -/
def Chip.flowGone (c : Chip) (f : Nat) : Chip :=
  let gone (k : Lnk) : List (List Byte) := ((c.link k).asm.filter fun e => e.1 / 8 == f).map (·.2.2)
  let parts := gone .ul ++ gone .cs
  let drop (k : Lnk) (c : Chip) : Chip := c.modLink k fun s => { s with asm := s.asm.filter fun e => e.1 / 8 != f }
  let c := drop .ul (drop .cs c)
  if c.fld (FLOW_CFG.ENDPOINT f) == 5 && !c.on (FLOW_CFG.ENC f) then
    parts.foldl (fun c bs => c.rejectMsg 0x09 f [{ typ := clsP, len := 15, payload := bs.take 120 }]) c
  else c

/-! ## Rings (R209, R210) -/

/-- The tag of a ring line: none when nothing has been written to it. -/
def Chip.ringTag (c : Chip) (ring line : Nat) : Option Nat :=
  match cellsGet (fun _ => 0) c.surf.tags (512 * ring + line) with
  | 0 => none
  | t + 1 => some t

def Chip.setRingTag (c : Chip) (ring line tag : Nat) : Chip :=
  { c with surf := { c.surf with tags := cellsSet (fun _ => 0) c.surf.tags (512 * ring + line) (tag + 1) } }

/-- The descriptor a receiver ring has: 64 lines with a pitch of 30,720 bytes, in the format its stream is stored in. -/
def Chip.rxDesc (c : Chip) (k : Nat) : SurfDesc :=
  { layout := layRing, fmt := if c.fld (RX_STATUS.BPC k) == 2 then 5 else 3, width := 7680, height := 64,
    base := c.fld (RX_CTRL.BASE k), aux := 480 }

end Sys2Proof.Machine
end

