-- ==== Sys2Proof/Machine/HeadOps.lean ====
section
/-! DEFINITION. The heads and DisplayPort outputs as other units see them: rasters and their limits, read paths, the checks of an
enable and a commit, starting and stopping a head, and whether its stream fits (R214–R218, R226, R231, R234–R237). -/

namespace Sys2Proof.Machine

/-! ## Access -/

def Chip.head (c : Chip) (h : Nat) : HeadSt := cellsGet (fun _ => HeadSt.init) c.heads h
def Chip.setHead (c : Chip) (h : Nat) (x : HeadSt) : Chip :=
  { c with heads := cellsSet (fun _ => HeadSt.init) c.heads h x }
def Chip.modHead (c : Chip) (h : Nat) (f : HeadSt → HeadSt) : Chip := c.setHead h (f (c.head h))

def Chip.dp (c : Chip) (o : Nat) : DpSt := cellsGet (fun _ => DpSt.init) c.dps o
def Chip.setDp (c : Chip) (o : Nat) (x : DpSt) : Chip := { c with dps := cellsSet (fun _ => DpSt.init) c.dps o x }
def Chip.modDp (c : Chip) (o : Nat) (f : DpSt → DpSt) : Chip := c.setDp o (f (c.dp o))

/-- Heads and outputs the part has (R2, R241). -/
def Chip.headList (c : Chip) : List Nat := (List.range 4).filter fun h => pagePresent c.part (0x20 + h)
def Chip.hasOut (c : Chip) (o : Nat) : Bool := pagePresent c.part (0x24 + o)

/-- A head is scanning (R214); a head the allocator holds is not. -/
def Chip.scanning (c : Chip) (h : Nat) : Bool := c.on (HEAD_STATUS.SCANNING h)

/-! ## Modes and rasters (R214, R215, R230) -/

def modeSurface : Nat := 0
def modeRing : Nat := 1
def modeFollow : Nat := 2

def Chip.headMode (c : Chip) (h : Nat) : Nat := c.fld (HEAD_CTRL.MODE h)

/-- Panel-timed mode; TE_EN is ignored in FOLLOW (R228). -/
def Chip.panelTimed (c : Chip) (h : Nat) : Bool := c.on (HEAD_CTRL.TE_EN h) && c.headMode h != modeFollow

/-- The raster the registers of a head give. -/
def Chip.regRaster (c : Chip) (h : Nat) : Raster :=
  { htotal := c.fld (HEAD_HTIM.HTOTAL h), hactive := c.fld (HEAD_HTIM.HACTIVE h), vtotal := c.fld (HEAD_VTIM.VTOTAL h),
    vactive := c.fld (HEAD_VTIM.VACTIVE h), hfp := c.fld (HEAD_SYNC.HFP h), hsw := c.fld (HEAD_SYNC.HSW h),
    vfp := c.fld (HEAD_SYNC.VFP h), vsw := c.fld (HEAD_SYNC.VSW h), hpol := c.on (HEAD_SYNC.HPOL h),
    vpol := c.on (HEAD_SYNC.VPOL h), pclk := c.fld (HEAD_PCLK.PCLK h) }

def noRaster : Raster :=
  { htotal := 0, hactive := 0, vtotal := 0, vactive := 0, hfp := 0, hsw := 0, vfp := 0, vsw := 0, hpol := false,
    vpol := false, pclk := 0 }

/-- A stream's last raster and last received line. -/
def Chip.stream (c : Chip) (k : Nat) : Option Raster × Nat := cellsGet (fun _ => (none, 0)) c.surf.streams k
def Chip.setStream (c : Chip) (k : Nat) (x : Option Raster × Nat) : Chip :=
  { c with surf := { c.surf with streams := cellsSet (fun _ => (none, 0)) c.surf.streams k x } }

/-- The raster of a head: its registers, or in FOLLOW the last timing of its stream. -/
def Chip.raster (c : Chip) (h : Nat) : Raster :=
  if c.headMode h = modeFollow then (c.stream h).1.getD noRaster else c.regRaster h

/-- Active pixel rate as a fraction, in kpixel/s. -/
def rasterRate (r : Raster) : Nat × Nat := (r.hactive * r.vactive * r.pclk, max 1 (r.htotal * r.vtotal))

/-- Sum of fractions. -/
def fracSum (xs : List (Nat × Nat)) : Nat × Nat := xs.foldl (fun a x => (a.1 * x.2 + x.1 * a.2, a.2 * x.2)) (0, 1)
def fracLe (x : Nat × Nat) (lim : Nat) : Bool := decide (x.1 ≤ lim * x.2)

/-- The limits of R215 for one head. -/
def rasterOk (r : Raster) : Bool :=
  decide (320 ≤ r.hactive) && decide (r.hactive ≤ 7680) && decide (200 ≤ r.vactive) && decide (r.vactive ≤ 4320) &&
    decide (1 ≤ r.hfp) && decide (1 ≤ r.hsw) && decide (1 ≤ r.vfp) && decide (1 ≤ r.vsw) &&
    decide (r.hactive + r.hfp + r.hsw + 1 ≤ r.htotal) && decide (r.htotal ≤ 16383) &&
    decide (r.vactive + r.vfp + r.vsw + 1 ≤ r.vtotal) && decide (r.vactive + 16 ≤ r.vtotal) && decide (r.vtotal ≤ 8191) &&
    decide (25000 ≤ r.pclk) && decide (r.pclk ≤ 4200000) && fracLe (rasterRate r) 4000000

/-- TLINE in ps, rounded to the nearest (R214). -/
def rasterTline (r : Raster) : Nat := if r.pclk = 0 then 0 else (2 * r.htotal * 1000000000 + r.pclk) / (2 * r.pclk)

/-! ## Read paths (R217) -/

/-- A plane word's surface is shown by the tiled path. -/
def Chip.tiledPlane (c : Chip) (h : Nat) (plane : Word) : Bool :=
  let s := (HEAD_PLANE.SURF h).get plane
  (HEAD_PLANE.MAIN_EN h).get plane == 1 && c.headMode h == modeSurface && c.surfValid s &&
    c.fld (SD_CTRL.LAYOUT s) == layEspalier

/-- The other enabled heads. -/
def Chip.others (c : Chip) (h : Nat) : List Nat := c.headList.filter fun g => g != h && c.on (HEAD_CTRL.EN g)

/-- A head may show an ESPALIER surface; heads that show the background for a lost one do not count (R217, R220). -/
def Chip.tiledOk (c : Chip) (h : Nat) : Bool :=
  let showing := (c.others h).filter fun g => c.tiledPlane g (c.head g).plane && !(c.head g).gone
  fracLe (rasterRate (c.raster h)) 2500000 && fracLe (fracSum ((h :: showing).map fun g => rasterRate (c.raster g))) 6000000

/-! ## Checks of a commit and of an enable (R216, R226, R231, R235) -/

def crefTiming : Nat := 1
def crefPath : Nat := 2
def crefSurf : Nat := 3

/-- A head commit of a plane word: 0, or the cause of its refusal. The main surface settings are ignored in FOLLOW (R230). -/
def Chip.planeRefusal (c : Chip) (h : Nat) (plane : Word) : Nat :=
  let s := (HEAD_PLANE.SURF h).get plane
  let d := c.descOf s
  let r := c.raster h
  let m := c.headMode h
  if (HEAD_PLANE.MAIN_EN h).get plane = 0 || m = modeFollow then 0
  else if !c.surfValid s || (if m = modeRing then d.layout != layRing else d.layout == layRing) || d.width < r.hactive ||
      (m = modeSurface && d.height < r.vactive) then crefSurf
  else if c.tiledPlane h plane && !c.tiledOk h then crefPath
  else 0

/-- Bytes of a Marginalia row. -/
def margPitch (fmt w : Nat) : Nat := (w * (if fmt = 0 then 1 else 2) + 63) / 64 * 64

/-- First byte of the buffer that Marginalia words select. -/
def margBuffer (h : Nat) (ctrl base : Word) : Nat :=
  65536 * (if (MARG_CTRL.SEL h).get ctrl = 0 then (MARG_BASE.BASE0 h).get base else (MARG_BASE.BASE1 h).get base)

/-- A Marginalia commit of those words is refused. -/
def margRefused (h : Nat) (ctrl size base : Word) : Bool :=
  let w := (MARG_SIZE.W h).get size
  let n := (MARG_SIZE.H h).get size
  let fmt := (MARG_CTRL.FMT h).get ctrl
  let bytes := (if fmt = 0 then 1024 else 0) + margPitch fmt w * n
  (MARG_CTRL.SCALE h).get ctrl == 3 || w < 1 || 1920 < w || n < 1 || 1080 < n ||
    decide (stackSize < margBuffer h ctrl base + bytes)

/-- The DSC settings of a head break R235. -/
def Chip.dscBad (c : Chip) (h : Nat) : Bool :=
  let r := c.raster h
  let n := 2 ^ c.fld (HEAD_OPT.SLICES h)
  let bpc := if c.on (HEAD_CTRL.BPC10 h) then 10 else 8
  let b := c.fld (HEAD_OPT.BPP16 h)
  c.on (HEAD_CTRL.DSC_EN h) && (4 < c.fld (HEAD_OPT.SLICES h) || r.hactive % n != 0 || decide (2560 * n < r.hactive) ||
    decide (1100000 * n < r.pclk) || r.vactive % 8 != 0 || b < 96 || 48 * bpc < b)

/-- The cause for which an enable is refused, 0 for none. A FOLLOW head whose stream has not been seen takes no timing yet; the
Marginalia plane counts among the initial planes when its EN is 1 (log entry 9). -/
def Chip.enableRefusal (c : Chip) (h : Nat) : Nat :=
  let o := c.fld (HEAD_CTRL.OUT h)
  let m := c.headMode h
  let unseen := m == modeFollow && (c.stream h).1.isNone
  let shared := (c.others h).any fun g => c.fld (HEAD_CTRL.OUT g) == o
  let rates := (h :: c.others h).map fun g => rasterRate (c.raster g)
  let plane := c.planeRefusal h (c.reg (HEAD_PLANE h))
  if m = 3 || !(unseen || rasterOk (c.raster h)) || !c.hasOut o || c.dscBad h || (shared && !c.on (DPTX_CTRL.MST o)) then crefTiming
  else if !fracLe (fracSum rates) 8800000 || plane = crefPath then crefPath
  else if plane = crefSurf || (c.on (MARG_CTRL.EN h) && margRefused h (c.reg (MARG_CTRL h)) (c.reg (MARG_SIZE h)) (c.reg (MARG_BASE h)))
    then crefSurf
  else 0

/-- R215 for the timing a stream brings to its FOLLOW head (R230). -/
def Chip.msaFits (c : Chip) (k : Nat) (r : Raster) : Bool :=
  rasterOk r && (c.headMode k != modeFollow || !c.on (HEAD_CTRL.EN k) ||
    fracLe (fracSum (rasterRate r :: (c.others k).map fun g => rasterRate (c.raster g))) 8800000)

/-! ## Streams (R234, R236) -/

/-- Link rates in Mb/s. -/
def dpRate (code : Nat) : Nat := [1620, 2700, 5400, 8100, 10000, 13500, 20000].getD code 20000
def dpLanes (code : Nat) : Nat := [1, 2, 4].getD code 4

/-- Slots a head's stream has on its output. -/
def Chip.slotsOf (c : Chip) (o h : Nat) : Nat :=
  match h with
  | 0 => c.fld (DPTX_SLOTS.S0 o)
  | 1 => c.fld (DPTX_SLOTS.S1 o)
  | 2 => c.fld (DPTX_SLOTS.S2 o)
  | _ => c.fld (DPTX_SLOTS.S3 o)

/-- The slots that a head's stream is given when it is enabled, its own alone (R234; DESIGN CHOICE, log entry 99). -/
def Chip.applySlots (c : Chip) (h : Nat) : Chip :=
  c.modHead h fun x => { x with slots := c.slotsOf (c.fld (HEAD_CTRL.OUT h)) h }

/-- The time slots of an output: its enabled heads in order, each with its first slot, from 1 on, and how many it has (R234). -/
def Chip.slotTable (c : Chip) (o : Nat) : List (Nat × Nat × Nat) :=
  ((c.headList.filter fun h => c.on (HEAD_CTRL.EN h) && c.fld (HEAD_CTRL.OUT h) == o).foldl (fun (a : List (Nat × Nat × Nat) × Nat) h =>
    let n := (c.head h).slots
    (a.1 ++ [(h, a.2, n)], a.2 + n)) ([], 1)).1

/-- What goes with the start of a head's stream (R228, R235). -/
def Chip.streamForm (c : Chip) (h : Nat) : StreamForm :=
  let r := c.raster h
  let n := 2 ^ c.fld (HEAD_OPT.SLICES h)
  let dsc : DscForm :=
    { slices := n, width := r.hactive / n, height := if r.vactive % 16 = 0 then 16 else 8, predict := true
      bpp16 := c.fld (HEAD_OPT.BPP16 h), bpc := if c.on (HEAD_CTRL.BPC10 h) then 10 else 8 }
  { output := c.fld (HEAD_CTRL.OUT h), msaIgnore := c.panelTimed h, pps := if c.on (HEAD_CTRL.DSC_EN h) then some dsc else none }

/-- The stream of a head needs no more than its share of its output's payload. -/
def Chip.streamFits (c : Chip) (h : Nat) : Bool :=
  let o := c.fld (HEAD_CTRL.OUT h)
  let code := c.fld (DPTX_STATUS.RATE o)
  let (num, den) := if code < 4 then (8, 10) else (128, 132)
  let bpc := if c.on (HEAD_CTRL.BPC10 h) then 10 else 8
  let b16 := if c.on (HEAD_CTRL.DSC_EN h) then c.fld (HEAD_OPT.BPP16 h) else 48 * bpc
  let need := (c.raster h).pclk * b16 * den
  let link := 16 * dpLanes (c.fld (DPTX_STATUS.LANES o)) * dpRate code * 1000 * num
  if c.on (DPTX_CTRL.MST o) then decide (need * 64 ≤ link * (c.head h).slots) else decide (need ≤ link)

/-- A scanning head's stream starts on a trained output, or is not sent and raises EV140. -/
def Chip.startStream (c : Chip) (h : Nat) : Chip :=
  let o := c.fld (HEAD_CTRL.OUT h)
  if !c.scanning h || !c.on (DPTX_STATUS.TRAINED o) then c.modHead h fun x => { x with sent := false }
  else if c.streamFits h then
    let c := if c.on (DPTX_CTRL.MST o) then c.emit (.act o (c.slotTable o)) else c
    ((c.modHead h fun x => { x with sent := true }).emit (.streamForm h (c.streamForm h))).emit (.stream h true)
  else ((c.modHead h fun x => { x with sent := false }).setFld (DPTX_STATUS.FIT_ERR o) 1).raise 140 o

/-- Every head of an output, after training or its end. -/
def Chip.restreams (c : Chip) (o : Nat) : Chip :=
  let hs := c.headList.filter fun h => c.fld (HEAD_CTRL.OUT h) == o
  hs.foldl (fun c h => c.startStream h) (hs.foldl (fun c h => c.applySlots h) c)

/-! ## Starting and stopping a head (R216, R218) -/

/-- The live Marginalia words and MARG_STATUS follow the shadows. -/
def Chip.takeMarg (c : Chip) (h : Nat) : Chip :=
  let ctrl := c.reg (MARG_CTRL h)
  let c := c.modHead h fun x => { x with
    margCtrl := ctrl, margPos := c.reg (MARG_POS h), margSize := c.reg (MARG_SIZE h), margBase := c.reg (MARG_BASE h) }
  (c.setFld (MARG_STATUS.LIVE_SEL h) ((MARG_CTRL.SEL h).get ctrl)).setFld (MARG_STATUS.LIVE_EN h) ((MARG_CTRL.EN h).get ctrl)

/-- The live main plane follows the shadow. -/
def Chip.takePlane (c : Chip) (h : Nat) : Chip :=
  let p := c.reg (HEAD_PLANE h)
  (c.modHead h fun x => { x with plane := p, gone := false }).setFld (HEAD_STATUS.LIVE_SURF h) ((HEAD_PLANE.SURF h).get p)

/-- EV137 for each uncorrectable burst of a range a head reads (R219). -/
def Chip.headRead (c : Chip) (h a n : Nat) : Chip :=
  let bad := (burstsOf a n).filter fun b => c.burstBad (64 * b)
  let c := if bad.isEmpty then c else c.count STAK_ECC.UNCOR bad.length
  bad.foldl (fun c _ => c.raise 137 h) c

/-- The palette of a live PAL8 Marginalia plane is read at line VACTIVE (R221). -/
def Chip.readPalette (c : Chip) (h : Nat) : Chip :=
  let x := c.head h
  if (MARG_CTRL.EN h).get x.margCtrl = 1 && (MARG_CTRL.FMT h).get x.margCtrl = 0 then
    let a := margBuffer h x.margCtrl x.margBase
    (c.headRead h a 1024).modHead h fun y => { y with palette := c.stkRead a 1024 }
  else c

/-- The live planes take the shadows at a start that comes after the enable, each if it passes the check of R216; one that does not
stays as it was (DESIGN CHOICE, log entry 88). -/
def Chip.retakePlanes (c : Chip) (h : Nat) : Chip :=
  let c := if c.planeRefusal h (c.reg (HEAD_PLANE h)) = 0 then c.takePlane h else c
  if c.on (MARG_CTRL.EN h) && margRefused h (c.reg (MARG_CTRL h)) (c.reg (MARG_SIZE h)) (c.reg (MARG_BASE h)) then c else c.takeMarg h

/-- A head starts: live planes from the shadows, LINE at VACTIVE, FRAME 0. -/
def Chip.startHead (c : Chip) (h : Nat) : Chip :=
  let c := (c.retakePlanes h).raiseVisl (vislOfPixels (c.raster h).pclk)
  let c := c.modHead h fun x => { x with
    stopping := false, fetch := none, nextBand := 0, begun := 0, bands := [], edge := false, held := 0, resync := false }
  let c := c.setReg (HEAD_POS h) (BitVec.ofNat 32 (c.raster h).vactive)
  let c := ((c.setFld (HEAD_STATUS.SCANNING h) 1).setFld (HEAD_STATUS.VBLANK h) 1).setFld (HEAD_STATUS.TE_HOLD h) 0
  (c.readPalette h).startStream h

/-- A head stops: band fetches end at once, its stream gives way to the idle pattern. -/
def Chip.stopHead (c : Chip) (h : Nat) : Chip :=
  if !c.scanning h then c
  else
    let c := c.modHead h fun x => { x with
      stopping := false, fetch := none, bands := [], edge := false, held := 0, sent := false }
    let c := ((c.setFld (HEAD_STATUS.SCANNING h) 0).setFld (HEAD_STATUS.VBLANK h) 0).setFld (HEAD_STATUS.TE_HOLD h) 0
    (c.setFld (HEAD_STATUS.LOCKED h) 0).emit (.stream h false)

/-- The head will stop at the next line boundary; band fetches end then. -/
def Chip.haltHead (c : Chip) (h : Nat) : Chip := if c.scanning h then c.modHead h fun x => { x with stopping := true } else c

/-! ## DP_PWR (R237) -/

/-- The DP_PWR switch of an output opens or closes. -/
def Chip.dpPower (c : Chip) (o : Nat) (on : Bool) : Chip :=
  if c.on (DPTX_STATUS.PWR_ON o) == on then c
  else (c.setFld (DPTX_STATUS.PWR_ON o) (if on then 1 else 0)).emit (.dpPower o on)

end Sys2Proof.Machine
end

