-- ==== Sys2Proof/Machine/Surfaces.lean ====
section
/-! DEFINITION. The surface engine and the display stream port: descriptors, tile updates and their buffers, the write units, raw
cells, and the fallback receiver (R189–R213). -/

namespace Sys2Proof.Machine

/-! ## Descriptors (R191) -/

def Chip.countSurfIgn (c : Chip) : Chip := c.count SURF_STATUS.CFG_IGN

/-- A surface is made invalid: every head whose live plane names it shows the background until its next commit (R220). -/
def Chip.loseSurface (c : Chip) (n : Nat) : Chip :=
  c.headList.foldl (fun c h =>
    if (HEAD_PLANE.SURF h).get (c.head h).plane = n then c.modHead h fun x => { x with gone := true } else c) c

/-- A write of SD_CTRL: while VALID is 1 only VALID changes, and VALID is not set with settings that R191 refuses. -/
def Chip.writeSdCtrl (c : Chip) (n : Nat) (v : Word) : Chip :=
  let old := c.reg (SD_CTRL n)
  let after := c.writeMasked (SD_CTRL n) v
  let new := after.reg (SD_CTRL n)
  if bit old 31 then
    let kept := (old &&& 0x7FFFFFFF#32) ||| (new &&& 0x80000000#32)
    let c := after.setReg (SD_CTRL n) kept
    let c := if bit kept 31 then c else c.loseSurface n
    if kept = new then c else c.countSurfIgn
  else if bit new 31 && after.badSurface n then (after.setReg (SD_CTRL n) old).countSurfIgn
  else after

/-- A write of SD_SIZE, SD_BASE or SD_AUX: ignored while VALID is 1, and counted when it would have changed a field. -/
def Chip.writeSdWord (c : Chip) (n a : Nat) (v : Word) : Chip :=
  let after := c.writeMasked a v
  if c.surfValid n && after.reg a != c.reg a then (after.setReg a (c.reg a)).countSurfIgn else after

/-- R191. -/
def execSurfaceValidate (n : Fin 64) (v : Word) (s : State) : Host.Outcome State Fault Refusal := s.run fun c => c.writeSdCtrl n v

/-- R191. -/
def execSurfaceInvalidate (n : Fin 64) (v : Word) (s : State) : Host.Outcome State Fault Refusal := s.run fun c => c.writeSdCtrl n v

/-! ## Assembly buffers (R201) -/

/-- SURF_STATUS as it reads: the buffers in use and the busy units. -/
def Chip.surfStatusWord (c : Chip) : Word :=
  let units := (if c.surf.unit0.isSome then 1 else 0) + (if c.surf.unit1.isSome then 2 else 0)
  SURF_STATUS.UNITS_BUSY.put (SURF_STATUS.ASM_USED.put (c.reg SURF_STATUS) c.srfBuffers.length) units

/-- The tiles of a message in raster order. -/
def tilesOf (m : List MsgCell) : List (Nat × Nat) :=
  if isFill m then
    (List.range (tileNy m)).flatMap fun j => (List.range (tileNx m)).map fun i => (tileTx m + i, tileTy m + j)
  else [(tileTx m, tileTy m)]

/-- A complete message is checked in its buffer, and rejected or queued for a write unit. -/
def Chip.acceptTile (c : Chip) (f : Nat) (m : List MsgCell) : Chip :=
  match c.tileReason f m with
  | 0 =>
    let j : SurfJob := { flow := f, cells := m, tiles := tilesOf m, desc := none }
    { c with surf := { c.surf with jobs := c.surf.jobs ++ [j] } }
  | r + 1 => c.rejectMsg (r + 1) f m

/-- A message for the surface engine has kept its buffer, takes one, or waits at the ingress with every later one (R201). -/
def Chip.tileArrives (c : Chip) (f : Nat) (m : List MsgCell) : Chip :=
  if c.fld (FLOW_CFG.ENDPOINT f) != 5 || !c.pageOn 0x1D then c
  else if c.surf.held.contains f then ({ c with surf := { c.surf with held := c.surf.held.erase f } }).acceptTile f m
  else if c.ingressClear && c.bufferFor f then c.acceptTile f m
  else { c with surf := { c.surf with wait := c.surf.wait ++ [(f, m)] } }

/-- R200. -/
def execTile (f : Fin 256) (cells : List MsgCell) (s : State) : Host.Outcome State Fault Refusal :=
  s.run fun c => c.tileArrives f cells

/-- R200. -/
def execFill (f : Fin 256) (cells : List MsgCell) (s : State) : Host.Outcome State Fault Refusal :=
  s.run fun c => c.tileArrives f cells

/-- What waits at the ingress takes a buffer it may take: the first complete message, or, when none waits, cells in their order. -/
def Chip.bufferFree (c : Chip) : Chip :=
  match c.surf.wait with
  | (f, m) :: rest =>
    if c.bufferFor f then ({ c with surf := { c.surf with wait := rest } }).acceptTile f m else c
  | [] => c.drainIngress

/-- R201. -/
def execAssemblyBufferFree (s : State) : Host.Outcome State Fault Refusal := s.run fun c => c.bufferFree

/-! ## Writing a tile (R202–R204, R206) -/

/-- The writes in progress. -/
def Surf.writes (x : Surf) : List SurfWrite := x.unit0.toList ++ x.unit1.toList

/-- A head is fetching a band of a surface (R203). -/
def Chip.bandFetched (c : Chip) (s b : Nat) : Bool := c.headList.any fun h => (c.head h).fetch == some (s, b)

/-- A head shows a surface in its main plane. -/
def Chip.shows (c : Chip) (h s : Nat) : Bool :=
  let p := (c.head h).plane
  c.headMode h != modeFollow && (HEAD_PLANE.MAIN_EN h).get p == 1 && (HEAD_PLANE.SURF h).get p == s

/-- The head for which a tile about to be written is late, none when it is not (R206). -/
def Chip.lateFor (c : Chip) (f : Nat) (m : List MsgCell) (ty : Nat) : Option Nat :=
  let h := c.fld (FLOW_CFG.BEAM_HEAD f)
  if tileFlags m / 4 % 2 = 0 || 4 ≤ h || !c.scanning h then none
  else
    let d := (hdrNat m 3 1 + 256 - c.fld (HEAD_POS.FRAME h) % 256) % 256
    let late := if d = 0 then c.shows h (tileSurf m) && decide (ty < (c.head h).begun) else decide (128 ≤ d)
    if late then some h else none

/-- A late tile is counted and raises EV129. -/
def Chip.countLate (c : Chip) (f s h : Nat) : Chip :=
  ((c.count (SD_CNT.LATE s)).modHead h fun x => { x with late := min (x.late + 1) 65535 }).raise 129 (s * 2 ^ 8 + f)

/-- Put a job's successor in its place, or take it out. -/
def Chip.setJob (c : Chip) (j : SurfJob) (new : Option SurfJob) : Chip :=
  let jobs := match new with
    | some j' => c.surf.jobs.replace j j'
    | none => c.surf.jobs.erase j
  { c with surf := { c.surf with jobs := jobs } }

/-- A free unit takes a write. -/
def Chip.takeUnit (c : Chip) (w : SurfWrite) : Chip :=
  if c.surf.unit0.isNone then { c with surf := { c.surf with unit0 := some w } }
  else { c with surf := { c.surf with unit1 := some w } }

/-- The next tile of a job: held by a band fetch or by a write of the same tile, judged for lateness, dropped or begun. -/
def Chip.beginTile (c : Chip) (j : SurfJob) (d : SurfDesc) : Chip :=
  match j.tiles with
  | [] => c
  | (tx, ty) :: rest =>
    let f := j.flow
    let s := tileSurf j.cells
    if c.bandFetched s ty || c.surf.writes.any (fun w => w.surf == s && w.tx == tx && w.ty == ty) then c
    else
      let late := c.lateFor f j.cells ty
      let c := match late with
        | some h => c.countLate f s h
        | none => c
      let left := { j with tiles := rest, desc := some d }
      if late.isSome && tileFlags j.cells / 8 % 2 = 1 then c.setJob j (if rest.isEmpty then none else some left)
      else (c.setJob j (some left)).takeUnit
        { flow := f, surf := s, tx := tx, ty := ty, cells := j.cells, desc := d, last := rest.isEmpty }

/-- A free unit takes the next tile of a flow's oldest message. Its first tile samples VALID and the descriptor, and is refused when
they no longer suit the message (R191). -/
def Chip.startTile (c : Chip) (f : Nat) : Chip :=
  if c.surf.unit0.isSome && c.surf.unit1.isSome then c
  else match c.surf.jobs.find? fun j => j.flow == f && !j.tiles.isEmpty with
    | none => c
    | some j =>
      match j.desc with
      | some d => c.beginTile j d
      | none =>
        match c.descReason j.cells with
        | 0 => c.beginTile j (c.descOf (tileSurf j.cells))
        | r + 1 => (c.setJob j none).rejectMsg (r + 1) f j.cells

/-- R203. -/
def execTileWriteStart (f : Fin 256) (s : State) : Host.Outcome State Fault Refusal := s.run fun c => c.startTile f

/-- The pixels of a message as bytes in slot order. -/
def tileBytes (d : SurfDesc) (m : List MsgCell) : List Byte :=
  match tileEnc m with
  | 0 => (tileData m).take d.slot
  | 1 => pixelsToBytes d.bpp ((decodeStream d.fmt (tileData m)).getD [])
  | _ => (List.replicate 1024 (toBytes d.bpp (tileValue m))).flatten

/-- A tile of an ESPALIER surface: the slot first, then the directory entry with GEN one higher (R194, R202). -/
def Chip.putEspalier (c : Chip) (w : SurfWrite) : Chip :=
  let d := w.desc
  let enc := tileEnc w.cells
  let slot := match enc with
    | 0 => (tileData w.cells).take d.slot
    | 1 => tileData w.cells
    | _ => []
  let at' := d.dirAt w.tx w.ty
  let gen := (ofBytes (c.stkRead at' 2) + 1) % 65536
  let sprigs := if enc = 1 then tileNdata w.cells else 0
  let value := if enc = 2 then tileValue w.cells else 0
  let c := if slot.isEmpty then c else c.stkWrite (d.slotAt w.tx w.ty) slot
  c.stkWrite at' (toBytes 4 (enc * 2 ^ 30 + sprigs * 2 ^ 24 + gen) ++ toBytes 4 value)

/-- A tile of a PACKED surface: its pixels, line by line, up to the surface's edges. -/
def Chip.putPacked (c : Chip) (w : SurfWrite) : Chip :=
  let d := w.desc
  let bs := tileBytes d w.cells
  let n := min 64 (d.width - 64 * w.tx) * d.bpp
  (List.range (min 16 (d.height - 16 * w.ty))).foldl (fun c j =>
    c.stkWrite (d.lineAt (16 * w.ty + j) + 64 * w.tx * d.bpp) ((bs.drop (64 * d.bpp * j)).take n)) c

/-- A write unit is free. -/
def Chip.freeUnit (c : Chip) (u : Nat) : Chip :=
  if u = 0 then { c with surf := { c.surf with unit0 := none } } else { c with surf := { c.surf with unit1 := none } }

/-- An update whose last tile has been written is over. -/
def Chip.endJob (c : Chip) (w : SurfWrite) : Chip :=
  if w.last then { c with surf := { c.surf with jobs := c.surf.jobs.eraseP fun j => j.flow == w.flow && j.tiles.isEmpty } } else c

/-- A unit finishes its tile: the surface holds it, the band is released, and the buffer is free after the last tile. -/
def Chip.endTile (c : Chip) (u : Nat) : Chip :=
  match if u = 0 then c.surf.unit0 else c.surf.unit1 with
  | none => c
  | some w =>
    let c := if w.desc.layout = layEspalier then c.putEspalier w else c.putPacked w
    ((c.freeUnit u).endJob w).count (SD_CNT.WRITTEN w.surf)

/-- R202. -/
def execTileWriteEnd (u : Fin 2) (s : State) : Host.Outcome State Fault Refusal := s.run fun c => c.endTile u

/-! ## Raw cells (R208, R209) -/

/-- Write the part of some bytes that lies within the Stacks. -/
def Chip.ringWrite (c : Chip) (a : Nat) (bs : List Byte) : Chip := c.stkWrite a (bs.take (stackSize - a))

/-- The reason for which a raw cell is discarded, 0 for none. LEN is wrong unless it is the fewest doublewords that hold the header and
the pixels, and so is a message of several cells (DESIGN CHOICE, log entry 99). -/
def Chip.rawReason (c : Chip) (f : Nat) (m : List MsgCell) : Nat :=
  let s := hdrNat m 1 1
  let d := c.descOf s
  let n := hdrNat m 6 1
  if c.fld (FLOW_CFG.CLASS f) != 2 || !(m.all fun x => x.typ % 8 == clsP) || hdrNat m 0 1 != 0x20 then 0x01
  else if !c.surfValid s then 0x02
  else if d.layout != layRing then 0x01
  else if d.width < hdrNat m 4 2 + n then 0x03
  else if m.length != 1 || n < 1 || 112 < n * d.bpp || !(m.all fun x => x.len == (8 + n * d.bpp + 7) / 8) then 0x05
  else 0

/-- A RAW_LINE cell: its pixels go into ring line LINE mod HEIGHT, whose tag becomes LINE, or it is discarded and counted. -/
def Chip.rawLine (c : Chip) (f : Nat) (m : List MsgCell) : Chip :=
  if c.fld (FLOW_CFG.ENDPOINT f) != 6 || !c.pageOn 0x1D then c
  else
    let s := hdrNat m 1 1
    let line := hdrNat m 2 2
    match c.rawReason f m with
    | 0 =>
      let d := c.descOf s
      let n := hdrNat m 6 1 * d.bpp
      let bs := match m with
        | x :: _ => ((fitBytes 120 x.payload).drop 8).take n
        | [] => []
      let y := line % d.height
      ((c.ringWrite (d.lineAt y + hdrNat m 4 2 * d.bpp) bs).setRingTag s y line).count (SD_CNT.WRITTEN s)
    | r + 1 => c.rejectTile (r + 1) f s (hdrNat m 0 1) 0 line

/-- R209. -/
def execRawLine (f : Fin 256) (cells : List MsgCell) (s : State) : Host.Outcome State Fault Refusal :=
  s.run fun c => c.rawLine f cells

/-! ## The fallback receiver (R210, R211) -/

/-- The uplink is in the standard fallback (R24, R314). -/
def Chip.fallback (c : Chip) : Bool := c.fld (PD_STATUS.MODE 0) == 3 || c.fld (PD_STATUS.MODE 0) == 4

/-- Streams of the sink: four, or two on the MH4142. -/
def Chip.streams (c : Chip) : Nat := if c.part == .mh4160 then 4 else 2

/-- A stream in a form that is not accepted is not written: EV132 when it is first seen. -/
def Chip.unsupported (c : Chip) (k : Nat) : Chip :=
  let seen := c.on (RX_STATUS.UNSUPP k)
  let c := (((c.setFld (RX_STATUS.UNSUPP k) 1).setFld (RX_STATUS.ACTIVE k) 0).setFld (RX_STATUS.BPC k) 0).setFld (HEAD_STATUS.LOCKED k) 0
  if seen then c else c.raise 132 (k * 2 ^ 8)

/-- A line of stream `k`: written into receiver ring `k` with its tag, or not accepted. -/
def Chip.streamLine (c : Chip) (k : Nat) (m : StreamLine) : Chip :=
  if !c.fallback || c.streams ≤ k || !c.on (RX_CTRL.EN k) || !c.pageOn 0x1D then c
  else if !m.rgb || !(m.bpc == 8 || m.bpc == 10) || 7680 < m.msa.hactive then c.unsupported k
  else
    let c := (c.setFld (RX_STATUS.UNSUPP k) 0).setFld (RX_STATUS.ACTIVE k) 1
    let c := c.setFld (RX_STATUS.BPC k) (if m.bpc = 10 then 2 else 1)
    let c := c.setStream k (if c.msaFits k m.msa then some m.msa else (c.stream k).1, m.line)
    let y := m.line % 64
    (c.ringWrite ((c.rxDesc k).lineAt y) (pixelsToBytes 4 (m.pixels.take 7680))).setRingTag (64 + k) y m.line

/-- R210. -/
def execFallbackStreamLine (k : Fin 4) (m : StreamLine) (s : State) : Host.Outcome State Fault Refusal :=
  s.run fun c => c.streamLine k m

/-- A stream is no longer received: ACTIVE and UNSUPP clear, and the head that follows it is not locked. -/
def Chip.endStream (c : Chip) (k : Nat) : Chip :=
  let c := ((c.setFld (RX_STATUS.ACTIVE k) 0).setFld (RX_STATUS.UNSUPP k) 0).setFld (RX_STATUS.BPC k) 0
  c.setFld (HEAD_STATUS.LOCKED k) 0

/-- A stream that was received is lost. -/
def Chip.loseStream (c : Chip) (k : Nat) : Chip :=
  if c.on (RX_STATUS.ACTIVE k) || c.on (RX_STATUS.UNSUPP k) then (c.endStream k).raise 131 (k * 2 ^ 8) else c

/-- R211. -/
def execStreamLost (k : Fin 4) (s : State) : Host.Outcome State Fault Refusal := s.run fun c => c.loseStream k

/-- A write of RX_CTRL: no stream is received while EN is 0. -/
def Chip.writeRxCtrl (c : Chip) (k : Nat) (v : Word) : Chip :=
  let c := c.writeMasked (RX_CTRL k) v
  if c.on (RX_CTRL.EN k) then c else c.endStream k

/-! ## Counters (R213) -/

/-- A write of SURF_CTRL: its fields, and CNT_CLR. -/
def Chip.writeSurfCtrl (c : Chip) (v : Word) : Chip :=
  let c := c.writeMasked SURF_CTRL v
  if bit v 8 then
    let c := c.clearRegs ((List.range 64).flatMap fun n => [SD_CNT n, SD_REJ n])
    let c := c.setFld SURF_STATUS.CFG_IGN 0
    (List.range 4).foldl (fun c k => c.setFld (RX_STATUS.UNDER k) 0) c
  else c

/-- R213. -/
def execSurfCntClr (v : Word) (s : State) : Host.Outcome State Fault Refusal := s.run fun c => c.writeSurfCtrl v

end Sys2Proof.Machine
end

