-- ==== Sys2Proof/Machine/Heads.lean ====
section
/-! DEFINITION. The heads line by line: band fetches, the pixels of a line and their composition, commits, panel-timed mode and
FOLLOW (R214, R218–R230). -/

namespace Sys2Proof.Machine

/-! ## Components at 10 bits (R220–R222) -/

/-- Three components of 10 bits in one number: R in bits 29:20, G in bits 19:10, B in bits 9:0. -/
def rgb10 (r g b : Nat) : Nat := r * 2 ^ 20 + g * 2 ^ 10 + b

def widen8 (x : Nat) : Nat := x % 256 * 4 + x % 256 / 64
def widen6 (x : Nat) : Nat := x % 64 * 16 + x % 64 / 4
def widen5 (x : Nat) : Nat := x % 32 * 32 + x % 32
/-- A 4-bit component widened by repeating its bits (log entry 9). -/
def widen4 (x : Nat) : Nat := x % 16 * 64 + x % 16 * 4 + x % 16 / 4

/-- A stored pixel at 10 bits per component, alpha and X bits ignored. -/
def widenPixel (fmt p : Nat) : Nat :=
  match fmt with
  | 1 => rgb10 (widen5 (p / 2048)) (widen6 (p / 32)) (widen5 p)
  | 5 => p % 2 ^ 30
  | _ => rgb10 (widen8 (p / 65536)) (widen8 (p / 256)) (widen8 p)

/-- A component of a 10-bit pixel: 0 B, 1 G, 2 R. -/
def part10 (p i : Nat) : Nat := p / 2 ^ (10 * i) % 1024

/-- The background colour of a plane word. -/
def background (h : Nat) (plane : Word) : Nat := widenPixel 3 ((HEAD_PLANE.BG h).get plane)

/-- Pixels out of bytes in a storage format. -/
def pixelsOf (fmt : Nat) (bs : List Byte) : List Nat :=
  (chunks (pixelBytes fmt) bs).map fun p => widenPixel fmt (ofBytes p)

/-! ## Reading a band (R194, R218, R219) -/

/-- One stored tile as a head reads it: its 1,024 pixels, and the chip after the bursts read. Of a raw tile the head reads `cols` columns
of `rows` lines (R218). -/
def Chip.readTile (c : Chip) (h : Nat) (d : SurfDesc) (tx ty cols rows : Nat) : List Nat × Chip :=
  let at' := d.dirAt tx ty
  let entry := ofBytes (c.stkRead at' 4)
  let value := ofBytes (c.stkRead (at' + 4) 4)
  let zero := List.replicate 1024 0
  let slot := d.slotAt tx ty
  let badDir := c.stkBadIn at' 8
  let c := c.headRead h at' 8
  match entry / 2 ^ 30 with
  | 0 => (pixelsOf d.fmt (c.stkRead slot d.slot),
      (List.range rows).foldl (fun c j => c.headRead h (slot + 64 * d.bpp * j) (cols * d.bpp)) c)
  | 1 =>
    let n := 120 * (entry / 2 ^ 24 % 64)
    let ps := if badDir || c.stkBadIn slot n then none else decodeStream d.fmt (c.stkRead slot n)
    ((ps.map fun ps => ps.map (widenPixel d.fmt)).getD zero, c.headRead h slot n)
  | 2 => (List.replicate 1024 (widenPixel d.fmt value), c)
  | _ => (zero, c)

/-- The tiles of a band from column `tx` on, of lines `w` pixels wide, each appended to the lines so far. -/
def Chip.readTiles (c : Chip) (h : Nat) (d : SurfDesc) (b w : Nat) : Nat → Nat → List (List Nat) → List (List Nat) × Chip
  | 0, _, rows => (rows, c)
  | n + 1, tx, rows =>
    let (ps, c) := c.readTile h d tx b (min 64 (w - 64 * tx)) rows.length
    let rows := (rows.zip (List.range rows.length)).map fun (row, j) => row ++ (ps.drop (64 * j)).take 64
    c.readTiles h d b w n (tx + 1) rows

/-- A band of a surface: columns 0 to `w` − 1 of its lines above `v`; the last band may be a part (R218). -/
def Chip.readBand (c : Chip) (h s b w v : Nat) : List (List Nat) × Chip :=
  let d := c.descOf s
  let n := min 16 (v - 16 * b)
  if d.layout = layEspalier then
    let (rows, c) := c.readTiles h d b w ((w + 63) / 64) 0 (List.replicate n [])
    (rows.map fun row => row.take w, c)
  else
    let lines := (List.range n).map fun j => d.lineAt (16 * b + j)
    (lines.map fun a => pixelsOf d.fmt (c.stkRead a (w * d.bpp)), lines.foldl (fun c a => c.headRead h a (w * d.bpp)) c)

/-! ## Band fetches (R203, R218) -/

/-- The surface of the live plane is valid, and has been since the plane was taken (R220). -/
def Chip.planeValid (c : Chip) (h : Nat) : Bool :=
  c.surfValid ((HEAD_PLANE.SURF h).get (c.head h).plane) && !(c.head h).gone

/-- The surface a head fetches bands of: its live main plane in SURFACE mode, while valid. -/
def Chip.bandSurface (c : Chip) (h : Nat) : Option Nat :=
  let p := (c.head h).plane
  let s := (HEAD_PLANE.SURF h).get p
  if c.headMode h = modeSurface && (HEAD_PLANE.MAIN_EN h).get p = 1 && c.planeValid h then some s else none

/-- The head may begin its next band: its start line has come, and no tile write into that band is in progress. -/
def Chip.mayFetch (c : Chip) (h s : Nat) : Bool :=
  let x := c.head h
  let v := (c.raster h).vactive
  let line := c.fld (HEAD_POS.LINE h)
  let b := x.nextBand
  c.scanning h && !x.stopping && x.fetch.isNone && decide (16 * b < v) &&
    (if b = 0 then decide (v ≤ line) else decide (line < v) && decide (16 * (b - 1) ≤ line)) &&
    !(c.surf.writes.any fun w => w.surf == s && w.ty == b)

/-- A head begins to fetch its next band. -/
def Chip.startFetch (c : Chip) (h : Nat) : Chip :=
  match c.bandSurface h with
  | none => c
  | some s =>
    if !c.mayFetch h s then c
    else
      let active := decide (c.fld (HEAD_POS.LINE h) < (c.raster h).vactive)
      c.modHead h fun x => { x with
        fetch := some (s, x.nextBand)
        nextBand := x.nextBand + 1
        begun := if active then x.nextBand + 1 else x.begun }

/-- R218. -/
def execBandFetchStart (h : Fin 4) (s : State) : Host.Outcome State Fault Refusal := s.run fun c => c.startFetch h

/-- The last byte of the band is in the band buffer; two bands are kept. -/
def Chip.endFetch (c : Chip) (h : Nat) : Chip :=
  match (c.head h).fetch with
  | none => c
  | some (s, b) =>
    let (rows, c) := c.readBand h s b (c.raster h).hactive (c.raster h).vactive
    c.modHead h fun x => { x with fetch := none, bands := x.bands.drop (x.bands.length - 1) ++ [{ surf := s, band := b, rows := rows }] }

/-- R218. -/
def execBandFetchEnd (h : Fin 4) (s : State) : Host.Outcome State Fault Refusal := s.run fun c => c.endFetch h

/-! ## The main plane of a line (R209, R219, R220, R229, R230) -/

/-- A line from the band buffer; an underrun shows the background. -/
def Chip.bandLine (c : Chip) (h s line : Nat) (bg : List Nat) : List Nat × Chip :=
  match (c.head h).bands.find? fun b => b.surf == s && b.band == line / 16 with
  | some b => (b.rows.getD (line % 16) bg, c)
  | none => (bg, (c.count (HEAD_STATUS.UNDER_CNT h)).raise 133 h)

/-- A line from a ring; a stale tag is counted and raises EV130. -/
def Chip.ringLine (c : Chip) (h ring : Nat) (d : SurfDesc) (line w : Nat) : List Nat × Chip :=
  let y := line % max 1 d.height
  let a := d.lineAt y
  let n := w * d.bpp
  let c := if c.ringTag ring y == some line then c
    else if ring < 64 then (c.count (SD_CNT.LATE ring)).raise 130 (ring * 2 ^ 8)
    else (c.count (RX_STATUS.UNDER (ring - 64))).raise 130 ((ring - 64) * 2 ^ 8)
  (pixelsOf d.fmt (c.stkRead a n), c.headRead h a n)

/-- The main plane of active line `line`. -/
def Chip.mainLine (c : Chip) (h line : Nat) : List Nat × Chip :=
  let w := (c.raster h).hactive
  let p := (c.head h).plane
  let s := (HEAD_PLANE.SURF h).get p
  let bg := List.replicate w (background h p)
  if c.headMode h = modeFollow then
    if c.on (RX_STATUS.ACTIVE h) && !c.on (RX_STATUS.UNSUPP h) then c.ringLine h (64 + h) (c.rxDesc h) line w else (bg, c)
  else if (HEAD_PLANE.MAIN_EN h).get p = 0 || !c.planeValid h then (bg, c)
  else if c.headMode h = modeRing then c.ringLine h s (c.descOf s) line w
  else c.bandLine h s line bg

/-! ## The Marginalia plane of a line (R221, R222) -/

/-- A pixel of the image: alpha, the maximum alpha, and the colour at 10 bits. -/
def margPixel (fmt : Nat) (palette row : List Byte) (x : Nat) : Nat × Nat × Nat :=
  if fmt = 0 then
    let e := ofBytes ((palette.drop (4 * (row.getD x 0).toNat)).take 4)
    (e / 2 ^ 24, 255, widenPixel 3 e)
  else
    let e := ofBytes ((row.drop (2 * x)).take 2)
    (e / 4096, 15, rgb10 (widen4 (e / 256)) (widen4 (e / 16)) (widen4 e))

/-- One component mixed, rounded to the nearest: coverage is `num` of `den`. -/
def mix (num den m p : Nat) : Nat := (2 * (num * m + (den - num) * p) + den) / (2 * den)

/-- A pixel of the plane over one of the main plane. -/
def blend (galpha : Nat) (marg : Nat × Nat × Nat) (p : Nat) : Nat :=
  let (alpha, top, m) := marg
  let num := alpha * galpha
  let den := top * 255
  let f (i : Nat) : Nat := mix num den (part10 m i) (part10 p i)
  rgb10 (f 2) (f 1) (f 0)

/-- The line with the Marginalia plane laid over it. -/
def Chip.overlay (c : Chip) (h line : Nat) (px : List Nat) : List Nat × Chip :=
  let x := c.head h
  let ctrl := x.margCtrl
  let k := 2 ^ (MARG_CTRL.SCALE h).get ctrl
  let x0 := (MARG_POS.X h).get x.margPos
  let y0 := (MARG_POS.Y h).get x.margPos
  let w := (MARG_SIZE.W h).get x.margSize
  let n := (MARG_SIZE.H h).get x.margSize
  if (MARG_CTRL.EN h).get ctrl = 0 || line < y0 || y0 + n * k ≤ line then (px, c)
  else
    let fmt := (MARG_CTRL.FMT h).get ctrl
    let pitch := margPitch fmt w
    let a := margBuffer h ctrl x.margBase + (if fmt = 0 then 1024 else 0) + (line - y0) / k * pitch
    let row := c.stkRead a pitch
    let past := (px.zip (List.range px.length)).map fun (p, i) =>
      if x0 ≤ i && i < x0 + w * k then
        blend ((MARG_CTRL.GALPHA h).get ctrl) (margPixel fmt x.palette row ((i - x0) / k)) p
      else p
    (past, c.headRead h a pitch)

/-- A 10-bit pixel as it is sent: at 8 bits per component, rounded. -/
def sendPixel (bpc10 : Bool) (p : Nat) : Nat :=
  if bpc10 then p
  else
    let f (i : Nat) : Nat := min 255 ((part10 p i + 2) / 4)
    f 2 * 65536 + f 1 * 256 + f 0

/-- An active line is composed and sent. -/
def Chip.showLine (c : Chip) (h line : Nat) : Chip :=
  let (px, c) := c.mainLine h line
  let (px, c) := c.overlay h line px
  if (c.head h).sent then c.emit (.line h (px.map (sendPixel (c.on (HEAD_CTRL.BPC10 h))))) else c

/-! ## Commits (R224–R226) -/

/-- A head commit no longer waits. -/
def Chip.clearArm (c : Chip) (h : Nat) : Chip :=
  (((c.setFld (HEAD_COMMIT.ARM h) 0).setFld (HEAD_STATUS.ARMED h) 0).setFld (HEAD_STATUS.MISSED h) 0).modHead h
    fun x => { x with skip := false }

def Chip.clearMargArm (c : Chip) (h : Nat) : Chip :=
  (((c.setFld (MARG_COMMIT.ARM h) 0).setFld (MARG_STATUS.ARMED h) 0).setFld (MARG_STATUS.MISSED h) 0).modHead h
    fun x => { x with mskip := false }

/-- At line VACTIVE an armed head commit is applied or refused; a deferred one passes one frame. -/
def Chip.applyCommit (c : Chip) (h : Nat) : Chip :=
  if !c.on (HEAD_STATUS.ARMED h) then c
  else if (c.head h).skip then c.modHead h fun x => { x with skip := false }
  else match c.planeRefusal h (c.reg (HEAD_PLANE h)) with
    | 0 => (c.takePlane h).clearArm h
    | r + 1 => ((c.clearArm h).setFld (HEAD_STATUS.CREF h) (r + 1)).raise 136 h

/-- The same for a Marginalia commit, whose refusal shows in MARG_STATUS alone: CREF has no code for it (DESIGN CHOICE, log entry 99). -/
def Chip.applyMargCommit (c : Chip) (h : Nat) : Chip :=
  if !c.on (MARG_STATUS.ARMED h) then c
  else if (c.head h).mskip then c.modHead h fun x => { x with mskip := false }
  else if margRefused h (c.reg (MARG_CTRL h)) (c.reg (MARG_SIZE h)) (c.reg (MARG_BASE h)) then
    ((c.clearMargArm h).setFld (MARG_STATUS.REFUSED h) 1).raise 136 (256 + h)
  else ((c.takeMarg h).clearMargArm h).setFld (MARG_STATUS.REFUSED h) 0

/-- The commit window of the frame is closed: LINE is one of the last CLOSE active lines. -/
def Chip.windowClosed (c : Chip) (h : Nat) : Bool :=
  let v := (c.raster h).vactive
  let line := c.fld (HEAD_POS.LINE h)
  c.scanning h && decide (v - c.fld (HEAD_CTRL.CLOSE h) ≤ line) && decide (line < v)

/-- A head commit is armed, deferred when its window has closed. -/
def Chip.armHead (c : Chip) (h : Nat) : Chip :=
  if c.on (HEAD_STATUS.ARMED h) then c
  else
    let late := c.windowClosed h
    let c := (c.setFld (HEAD_COMMIT.ARM h) 1).setFld (HEAD_STATUS.ARMED h) 1
    let c := c.modHead h fun x => { x with skip := late }
    if late then ((c.setFld (HEAD_STATUS.MISSED h) 1).count (HEAD_STATUS.MISS_CNT h)).raise 134 h else c

def Chip.armMarg (c : Chip) (h : Nat) : Chip :=
  if c.on (MARG_STATUS.ARMED h) then c
  else
    let late := c.windowClosed h
    let c := (c.setFld (MARG_COMMIT.ARM h) 1).setFld (MARG_STATUS.ARMED h) 1
    let c := c.modHead h fun x => { x with mskip := late }
    if late then (c.setFld (MARG_STATUS.MISSED h) 1).raise 134 (256 + h) else c

/-- A write of HEAD_COMMIT: CNT_CLR, then CANCEL, then ARM (log entry 9). -/
def Chip.writeHeadCommit (c : Chip) (h : Nat) (v : Word) : Chip :=
  if !c.headList.contains h then c
  else
    let c := if bit v 2 then (c.setFld (HEAD_STATUS.MISS_CNT h) 0).setFld (HEAD_STATUS.UNDER_CNT h) 0 else c
    let c := if bit v 1 then c.clearArm h else c
    if bit v 0 then c.armHead h else c

/-- A write of MARG_COMMIT: CANCEL, then ARM. -/
def Chip.writeMargCommit (c : Chip) (h : Nat) (v : Word) : Chip :=
  if !c.headList.contains h then c
  else
    let c := if bit v 1 then c.clearMargArm h else c
    if bit v 0 then c.armMarg h else c

/-- A write of HEAD_PLANE: ignored while a commit is armed. -/
def Chip.writeHeadPlane (c : Chip) (h : Nat) (v : Word) : Chip :=
  if c.on (HEAD_STATUS.ARMED h) then c else c.writeMasked (HEAD_PLANE h) v

/-- A write of a Marginalia word of head `h`: ignored while its commit is armed, and on heads the part lacks (R241). -/
def Chip.writeMargWord (c : Chip) (h a : Nat) (v : Word) : Chip :=
  if c.on (MARG_STATUS.ARMED h) || !c.headList.contains h then c else c.writeMasked a v

/-- A write of a timing word of a head: ignored while EN is 1 (R216). -/
def Chip.writeHeadTiming (c : Chip) (h a : Nat) (v : Word) : Chip :=
  if c.on (HEAD_CTRL.EN h) then c else c.writeMasked a v

/-- R225. -/
def execHeadArm (h : Fin 4) (v : Word) (s : State) : Host.Outcome State Fault Refusal := s.run fun c => c.writeHeadCommit h v
/-- R224. -/
def execHeadCancel (h : Fin 4) (v : Word) (s : State) : Host.Outcome State Fault Refusal := s.run fun c => c.writeHeadCommit h v
/-- R241. -/
def execHeadCntClr (h : Fin 4) (v : Word) (s : State) : Host.Outcome State Fault Refusal := s.run fun c => c.writeHeadCommit h v
/-- R225. -/
def execMargArm (h : Fin 4) (v : Word) (s : State) : Host.Outcome State Fault Refusal := s.run fun c => c.writeMargCommit h v
/-- R224. -/
def execMargCancel (h : Fin 4) (v : Word) (s : State) : Host.Outcome State Fault Refusal := s.run fun c => c.writeMargCommit h v

/-! ## FOLLOW (R230) -/

/-- Lines by which a FOLLOW head trails the line received last. -/
def Chip.followLag (c : Chip) (h line : Nat) : Nat :=
  let v := max 1 (c.raster h).vtotal
  ((c.stream h).2 + v - line % v) % v

/-- LOCKED and the resynchronisation of a FOLLOW head at an active line. While the stream is in its blanking, after its last
active line, the lag is not judged. -/
def Chip.follow (c : Chip) (h line : Nat) : Chip :=
  if c.headMode h != modeFollow || !c.on (RX_STATUS.ACTIVE h) || (c.stream h).2 + 1 = (c.raster h).vactive then c
  else
    let lag := c.followLag h line
    let c := c.setFld (HEAD_STATUS.LOCKED h) (if 6 ≤ lag && lag ≤ 10 then 1 else 0)
    if (2 ≤ lag && lag ≤ 56) || (c.head h).resync then c
    else (c.modHead h fun x => { x with resync := true }).raise 138 h

/-- The next frame of a FOLLOW head that lost its lag restarts at a lag of 8 lines, if its stream is still received. -/
def Chip.refollow (c : Chip) (h : Nat) : Chip :=
  if !(c.head h).resync then c
  else (c.modHead h fun x => { x with resync := false }).setFld (HEAD_STATUS.LOCKED h) (c.fld (RX_STATUS.ACTIVE h))

/-! ## A line begins (R214, R227, R228) -/

/-- Line VACTIVE: commits are applied, the palette is read, and the next frame's bands begin again at band 0. -/
def Chip.beginBlank (c : Chip) (h : Nat) : Chip :=
  let c := (c.applyCommit h).applyMargCommit h
  let c := c.modHead h fun x => { x with fetch := none, nextBand := 0, bands := [] }
  c.readPalette h

/-- Line 0: the frame count advances. -/
def Chip.beginFrame (c : Chip) (h : Nat) : Chip :=
  let c := c.setFld (HEAD_POS.FRAME h) (c.fld (HEAD_POS.FRAME h) + 1)
  (c.modHead h fun x => { x with begun := x.nextBand }).refollow h

/-- LINE takes its next value and the line does what it calls for. -/
def Chip.nextLine (c : Chip) (h : Nat) : Chip :=
  let r := c.raster h
  let line := c.fld (HEAD_POS.LINE h) + 1
  let line := if r.vtotal ≤ line then 0 else line
  let c := (c.setFld (HEAD_POS.LINE h) line).setFld (HEAD_STATUS.VBLANK h) (if r.vactive ≤ line then 1 else 0)
  let c := if line = 0 then c.beginFrame h else c
  if line < r.vactive then (c.follow h line).showLine h line
  else if line = r.vactive then c.beginBlank h
  else c

/-- A FOLLOW head that lost its lag has finished its frame and waits for the line that gives a lag of 8 (R230). -/
def Chip.awaitsLag (c : Chip) (h : Nat) : Bool :=
  c.headMode h == modeFollow && (c.head h).resync && c.on (RX_STATUS.ACTIVE h) &&
    c.fld (HEAD_POS.LINE h) + 1 == (c.raster h).vtotal && c.followLag h 0 != 8

/-- A line ends and the next begins. A head whose EN was cleared stops; a panel-timed head holds its front porch until an edge is
latched. -/
def Chip.lineStart (c : Chip) (h : Nat) : Chip :=
  if !c.scanning h then c
  else if (c.head h).stopping then c.stopHead h
  else if c.awaitsLag h then c
  else
    let r := c.raster h
    if c.panelTimed h && c.fld (HEAD_POS.LINE h) = r.vactive + r.vfp - 1 then
      if (c.head h).edge then
        ((c.modHead h fun x => { x with edge := false, held := 0 }).setFld (HEAD_STATUS.TE_HOLD h) 0).nextLine h
      else (c.modHead h fun x => { x with held := x.held + 1 }).setFld (HEAD_STATUS.TE_HOLD h) 1
    else c.nextLine h

/-- R214. -/
def execLineStart (h : Fin 4) (s : State) : Host.Outcome State Fault Refusal := s.run fun c => c.lineStart h

/-- A qualified edge on TEh is latched when it is the edge in use. -/
def Chip.teEdge (c : Chip) (h : Nat) (rising : Bool) : Chip :=
  if c.scanning h && c.panelTimed h && rising != c.on (HEAD_CTRL.TE_POL h) then c.modHead h fun x => { x with edge := true } else c

/-- R227. -/
def execTeEdge (h : Fin 4) (rising : Bool) (s : State) : Host.Outcome State Fault Refusal := s.run fun c => c.teEdge h rising

/-- TE_TO lines held without an edge: the head goes on as if one had arrived, with EV135. -/
def Chip.teTimeout (c : Chip) (h : Nat) : Chip :=
  let x := c.head h
  if c.on (HEAD_STATUS.TE_HOLD h) && !x.edge && decide (max 1 (c.fld (HEAD_OPT.TE_TO h)) ≤ x.held) then
    (c.modHead h fun x => { x with edge := true }).raise 135 h
  else c

/-- R228. -/
def execTeTimeout (h : Fin 4) (s : State) : Host.Outcome State Fault Refusal := s.run fun c => c.teTimeout h

end Sys2Proof.Machine
end

