-- ==== Sys2Proof/Machine/Supply.lean ====
section
/-! DEFINITION. Ramps one at a time, wake latching, and the downstream ports' switches (R55, R249, R325, R327). -/

namespace Sys2Proof.Machine

/-! ## Ramps (R55, R328) -/

/-- A supply's ramp is in progress or waits, or its enable is still due. -/
def Chip.rampDue (c : Chip) (x : Supply) : Bool :=
  c.boot.rampNow == some x || c.boot.rampWait.contains x || c.boot.stagger.contains x

/-- A ramp begins, or waits until the ramps before it have ended. -/
def Chip.askRamp (c : Chip) (x : Supply) : Chip :=
  let b := c.boot
  if c.rampDue x then c
  else if b.rampNow.isNone then { c with boot := { b with rampNow := some x } }
  else { c with boot := { b with rampWait := b.rampWait ++ [x] } }

/-- The ramp in progress has ended, or is given up; the next begins. -/
def Chip.nextRamp (c : Chip) : Chip :=
  let b := c.boot
  { c with boot := { b with rampNow := b.rampWait.head?, rampWait := b.rampWait.tail } }

/-- A supply is switched off: its ramp, and any enable of it still due, are given up. -/
def Chip.dropRamp (c : Chip) (x : Supply) : Chip :=
  let c := if c.boot.rampNow == some x then c.nextRamp else c
  { c with
      boot := { c.boot with
      rampWait := c.boot.rampWait.filter (· != x)
      stagger := c.boot.stagger.filter (· != x) } }

/-! ## Wake sources (R325, R327) -/

/-- A source that cannot arise in a state (R325). -/
def cannotArise (state b : Nat) : Bool :=
  (state == 1 && (b == 6 || b == 9)) || (state == 3 && (b == 1 || b == 3 || b == 4 || b == 5 || b == 6))

/-- Whether a source can start an exit in a state: armed by PS_WAKE_EN, always, or by the timer. -/
def Chip.wakesFrom (c : Chip) (state b : Nat) : Bool :=
  let en := decide (b < 10) && (c.fld PS_WAKE_EN.EN).testBit b
  match state with
  | 0 => false
  | 1 => decide (b ≤ 5) || ((b == 7 || b == 8) && en) || b == 10
  | 2 => en || b == 10
  | _ => (en && !cannotArise 3 b) || b == 10

/-- A source that is enabled or armed in a state: one that fires while the state is entered, or is latched before, ends the stay at once
(R325, R327). -/
def Chip.endsEntry (c : Chip) (state b : Nat) : Bool := c.wakesFrom state b || (decide (b < 10) && (c.fld PS_WAKE_EN.EN).testBit b)

/-- A source fires: its bit is latched when enabled or armed, in every state in which it can arise. In S1–S3 an armed source, and while
one is being entered any enabled one, is remembered for the exit (R327). -/
def Chip.latchWake (c : Chip) (b : Nat) : Chip :=
  if c.seq.target = 0 && cannotArise c.sstate b then c
  else
  let en := decide (b < 10) && (c.fld PS_WAKE_EN.EN).testBit b
  let wakes := if c.seq.target != 0 then c.endsEntry c.seq.target b else c.wakesFrom c.sstate b
  let c := if (en || wakes) && b < 10 then c.setFld WAKE_CAUSE.CAUSE (c.fld WAKE_CAUSE.CAUSE ||| 2 ^ b) else c
  if wakes then { c with seq := { c.seq with woke := true } } else c

/-- A power domain is powered (PS_DOMAIN.PWR). -/
def Chip.domainOn (c : Chip) (d : Nat) : Bool := (c.fld PS_DOMAIN.PWR).testBit d

/-- A domain that is off, or in retention or self-refresh: its channels are clamped (R319, R320). -/
def Chip.resting (c : Chip) (d : Nat) : Bool := !c.domainOn d || c.on ⟨PS_DOMAIN, 16 + d, 1⟩

/-! ## Switch segments (R375, R380; log entry 92) -/

/-- Good segments of a switch, of the 14 needed: 0 UL, 1 CS, 2 PI, 3 and 4 the M.2 sockets. -/
def Chip.goodSegments (c : Chip) (sw : Nat) : Nat := 14 - (c.copp.lostSegments.filter fun e => e.1 == sw).length

/-- A switch with fewer than 10 good segments stays open until power-on reset. -/
def Chip.switchWorks (c : Chip) (sw : Nat) : Bool := decide (10 ≤ c.goodSegments sw)

/-- The rating of a VBUS switch in mA, scaled with its good segments (R303, R380). -/
def Chip.ratedMa (c : Chip) (sw : Nat) : Nat := (if sw = 1 then 3000 else 5000) * c.goodSegments sw / 14

/-! ## Downstream ports (R243–R253) -/

def Chip.port (c : Chip) (p : Nat) : PortSt := cellsGet (fun _ => PortSt.init) c.hub.ports p
def Chip.setPort (c : Chip) (p : Nat) (x : PortSt) : Chip :=
  { c with hub := { c.hub with ports := cellsSet (fun _ => PortSt.init) c.hub.ports p x } }
def Chip.modPort (c : Chip) (p : Nat) (f : PortSt → PortSt) : Chip := c.setPort p (f (c.port p))

/-- Items of the allocator, numbered in rank order (R306): 0 base, 1–4 heads, 5 UL floor, 6 cascade, 7–12 ports, 13 Ethernet, 14–15
sockets. -/
def itHead (h : Nat) : Nat := 1 + h
def itUl : Nat := 5
def itCasc : Nat := 6
def itPort (p : Nat) : Nat := 7 + p
def itEth : Nat := 13
def itSock (p : Nat) : Nat := 14 + p

/-- An item's grant is in force. -/
def Chip.granted (c : Chip) (i : Nat) : Bool := c.budget.granted.contains i

/-- The hub runs: step 8 has begun, its domain is on, and safe state is not in force (R54, R446). -/
def Chip.hubRuns (c : Chip) : Bool := decide (8 ≤ c.boot.step) && c.domainOn 8 && !c.safe && c.pageOn 0x29

/-- The ILIM code of a powered port. -/
def Chip.ilim (c : Chip) (p : Nat) : Nat :=
  match p with
  | 0 => 1 + c.fld PP_LEVEL.DS0_I
  | 1 => 1 + c.fld PP_LEVEL.DS1_I
  | 2 | 3 => 4
  | _ => 5

/-- The VBUS switch of a port closes. -/
def Chip.closePort (c : Chip) (p : Nat) : Chip :=
  ((c.setFld (PORT_STATUS.VBUS_ON p) 1).setFld (PORT_STATUS.ILIM p) (c.ilim p)).emit (.vbusDs p true)

/-- What the adapter and a Transaction Translator hold for a port is dropped without response (R258). -/
def Chip.dropTxns (c : Chip) (p : Nat) : Chip :=
  { c with hub := { c.hub with
      txns := c.hub.txns.filter fun t => t.port != p
      tts := c.hub.tts.filter fun t => t.1 != p } }

/-- The VBUS switch of a port opens: nothing is connected, and what the adapter holds for the port is dropped. -/
def Chip.openPort (c : Chip) (p : Nat) : Chip :=
  let was := c.on (PORT_STATUS.VBUS_ON p)
  let c := ((c.dropRamp (.ds p)).modPort p fun x => { x with waiting := false, disabled := false })
  let c := (((c.setFld (PORT_STATUS.VBUS_ON p) 0).setFld (PORT_STATUS.CONNECTED p) 0).setFld (PORT_STATUS.SPEED p) 0).setFld
    (PORT_STATUS.ILIM p) 0
  let c := c.dropTxns p
  if was then c.emit (.vbusDs p false) else c

/-- VBUS is to be on: the port is powered and granted, not disabled, cut off or held off, and attached if it is Type-C. The attachment of a
Type-C port outlives its VBUS (DESIGN CHOICE, log entry 90). -/
def Chip.wantsVbus (c : Chip) (p : Nat) : Bool :=
  let x := c.port p
  x.asked && c.granted (itPort p) && !c.on (PORT_CTRL.DISABLE p) && !c.on (PORT_STATUS.CUTOFF p) && !x.holdoff &&
    (2 ≤ p || x.attached) && c.hubRuns

/-- The current granted to a port with VBUS has fallen: a port status change, and never a wake (R253). -/
def Chip.noteFall (c : Chip) (p : Nat) (fell : Bool) : Chip := if fell then c.emit (.portChange p .current) else c

/-- Current of an ILIM code, in mA. -/
def ilimMa (code : Nat) : Nat := [0, 500, 1500, 3000, 900, 500].getD code 0

/-- The switch of a port follows what it is to be: a ramp waits its turn, or the switch opens. -/
def Chip.syncPort (c : Chip) (p : Nat) : Chip :=
  let on := c.on (PORT_STATUS.VBUS_ON p)
  let due := (c.port p).waiting || c.rampDue (.ds p)
  let c := c.noteFall p (on && (c.port p).asked &&
    (!c.granted (itPort p) || decide (ilimMa (c.ilim p) < ilimMa (c.fld (PORT_STATUS.ILIM p)))))
  if c.wantsVbus p then
    if on then c.setFld (PORT_STATUS.ILIM p) (c.ilim p)
    else if due then c else c.modPort p fun x => { x with waiting := true }
  else if on || due then c.openPort p
  else c

/-- The six external ports. -/
def Chip.syncDsPorts (c : Chip) : Chip := (List.range 6).foldl (fun c p => c.syncPort p) c

/-- HUB_STATUS.UP in each uplink mode (R242). -/
def Chip.upstream (c : Chip) : Nat :=
  if !(decide (8 ≤ c.boot.step) && c.domainOn 8 && !c.safe && c.pageOn 0x28) then 0
  else match c.fld (PD_STATUS.MODE 0) with
    | 1 => 2
    | 2 => 1
    | 3 => 4
    | 4 => 3
    | _ => 0

/-- A data stage held for a status stage that will not come is discarded (R257), and a peer's answer is no longer awaited. -/
def Chip.discardSvcf (c : Chip) : Chip :=
  let c := c.unasked .svcf
  let c := { c with svcf := { c.svcf with busy := false } }
  match c.svcf.write with
  | some w =>
    let c := { c with svcf := { c.svcf with write := none, lastAddr := w.addr } }
    (c.setFld SVCF_STATUS.LAST_REQ w.req).setFld SVCF_STATUS.RESULT 0x0A
  | none => c

/-- A bus reset reaches the service function: a write that waits for its status stage is discarded, and its address, configuration
and interface setting are at their defaults (R257). -/
def Chip.resetFunction (c : Chip) : Chip :=
  let c := c.forgetReady.discardSvcf.setFld SVCF_STATUS.CONFIGURED 0
  { c with svcf := { c.svcf with address := 0, setting := 0 } }

/-- What the hub has in flight is dropped with what waits for the NCM function, whose packet filter is at its default, and no resume is
signalled. -/
def Chip.clearHub (c : Chip) : Chip :=
  { c with
    hub := { c.hub with txns := [], tts := [], resumeNs := none, rsmHost := false, rsmPort := none }
    eth := { c.eth with rxQ := [], filter := Eth.init.filter } }

/-- The largest frame with FCS: MAX_LEN between 64 and 7,676 (R276). -/
def Chip.maxLen (c : Chip) : Nat := max 64 (min 7676 (c.fld ENET_CTRL.MAX_LEN))

/-- The MAC address: ENET_MAC_HI:ENET_MAC_LO, or the fused one when that is zero (R276). -/
def Chip.macAddr (c : Chip) : Nat :=
  let a := (c.reg ENET_MAC_HI).toNat % 65536 * 2 ^ 32 + (c.reg ENET_MAC_LO).toNat
  if a = 0 then Config.fusedMac.toNat else a

/-- Its six bytes as a frame carries them, bits 47:40 first (DEDUCED, log entry 91). -/
def Chip.macBytes (c : Chip) : List Byte := (toBytes 6 c.macAddr).reverse

/-- What the NCM function reports (R278). -/
def Chip.ncmFormOf (c : Chip) : NcmForm :=
  { ntb16Only := true, maxNtb := 32768, maxDatagrams := 32, crc := false, segment := c.maxLen - 4, multicastFilters := 0, mac := c.macBytes }

/-- What the hub reports over an upstream connection (R243): the NCM function, port 8, reports no connection in native mode. -/
def hubFormOf (up : Nat) : HubForm :=
  { ports := 8, portPower := true, portOvercurrent := true, multiTt := true, fixed := [7, 8], internal := if up = 1 then [7] else [7, 8],
    superSpeed := up != 4 }

/-- The hub's upstream connection follows the uplink mode; a new connection is not suspended, and its functions are not
configured. -/
def Chip.syncUpstream (c : Chip) : Chip :=
  let up := c.upstream
  if c.fld HUB_STATUS.UP = up then c
  else
    let c := c.forgetReady
    let c := ((((c.setFld HUB_STATUS.UP up).setFld HUB_STATUS.SUSPENDED 0).resetFunction).clearHub).emit (.hubUp up)
    if up = 0 then c
    else
      let c := c.emit (.hubForm (hubFormOf up))
      if 2 ≤ up then c.emit (.ncmForm c.ncmFormOf) else c

end Sys2Proof.Machine
end

