-- ==== Sys2Proof/Machine/Tlp.lean ====
section
/-! DEFINITION. TLPs of the PCIe tunnel and the configuration space of its switch: the form of a TLP, sending one upstream, configuration
requests, and what the ports report (R263–R267). -/

namespace Sys2Proof.Machine

def Chip.pep (c : Chip) (p : Nat) : Pep := cellsGet (fun _ => Pep.init) c.pcie.ports p
def Chip.setPep (c : Chip) (p : Nat) (x : Pep) : Chip :=
  { c with pcie := { c.pcie with ports := cellsSet (fun _ => Pep.init) c.pcie.ports p x } }
def Chip.modPep (c : Chip) (p : Nat) (f : Pep → Pep) : Chip := c.setPep p (f (c.pep p))

/-- Downstream ports the part has (R2, R263). -/
def Chip.pepList (c : Chip) : List Nat := (List.range 2).filter fun p => pagePresent c.part (0x2C + p)

/-! ## The form of a TLP (R266; the header layout is PCI Express Base 5.0's, log entry 11) -/

def tlpFmt (t : List Byte) : Nat := (t.getD 0 0).toNat / 32
def tlpType (t : List Byte) : Nat := (t.getD 0 0).toNat % 32
def tlpLen (t : List Byte) : Nat :=
  let n := (t.getD 2 0).toNat % 4 * 256 + (t.getD 3 0).toNat
  if n = 0 then 1024 else n
def tlpHeader (t : List Byte) : Nat := if (tlpFmt t).testBit 0 then 16 else 12
def tlpHasData (t : List Byte) : Bool := (tlpFmt t).testBit 1
def tlpTd (t : List Byte) : Nat := (t.getD 2 0).toNat / 128

/-- Bytes of a TLP by its own Length and TD. -/
def tlpBytes (t : List Byte) : Nat := tlpHeader t + (if tlpHasData t then 4 * tlpLen t else 0) + 4 * tlpTd t

/-- The class of a TLP's category; none for a type that the switch does not forward. -/
def tlpClass (t : List Byte) : Option Nat :=
  let f := tlpFmt t
  let y := tlpType t
  if 4 ≤ f then none
  else if y = 0 then some (if f < 2 then clsNp else clsP)
  else if y = 1 then if f < 2 then some clsNp else none
  else if y = 2 || y = 4 || y = 5 then if f = 0 || f = 2 then some clsNp else none
  else if y = 10 || y = 11 then if f = 0 || f = 2 then some clsCpl else none
  else if y = 12 || y = 13 || y = 14 then if 2 ≤ f then some clsNp else none
  else if 16 ≤ y && y < 24 then if f = 1 || f = 3 then some clsP else none
  else none

def tlpIsConfig (t : List Byte) : Bool := tlpType t == 4 || tlpType t == 5
def tlpIsRead (t : List Byte) : Bool := tlpType t == 0 && tlpFmt t < 2
def tlpIsWrite (t : List Byte) : Bool := tlpType t == 0 && 2 ≤ tlpFmt t && tlpFmt t < 4
def tlpIsCompletion (t : List Byte) : Bool := tlpType t == 10 || tlpType t == 11

/-- A big-endian number of `n` bytes at an offset. -/
def tlpNat (t : List Byte) (a n : Nat) : Nat := ofBytes ((t.drop a).take n).reverse

/-- Requester ID and tag of a request, tag bits 8 and 9 from the first doubleword. -/
def tlpTagHigh (t : List Byte) : Nat :=
  let b := (t.getD 1 0).toNat
  b / 128 % 2 * 512 + b / 8 % 2 * 256
def tlpRequest (t : List Byte) : Nat × Nat := (tlpNat t 4 2, tlpTagHigh t + tlpNat t 6 1)
/-- The same of a completion. -/
def tlpCompleted (t : List Byte) : Nat × Nat := (tlpNat t 8 2, tlpTagHigh t + tlpNat t 10 1)

/-- The address of a memory request. -/
def tlpAddr (t : List Byte) : Nat := (if (tlpFmt t).testBit 0 then tlpNat t 8 8 else tlpNat t 8 4) / 4 * 4

/-! ## Sending upstream (R265, R266, R275) -/

/-- The flows of the tunnel. -/
def Chip.pepFlow (c : Chip) (p : Nat) : Nat := c.fld (PEP_CTRL.FLOW p)
def Chip.cfgFlow (c : Chip) : Nat := c.fld PCIE_TUN.CFG_FLOW

/-- The tunnel carries TLPs: it is enabled, in native mode (R279). -/
def Chip.tlpsOn (c : Chip) : Bool := c.on PCIE_TUN.EN && c.native .ul

/-- A TLP leaves on a flow: the 8-byte header, then its bytes. -/
def Chip.sendTlp (c : Chip) (f src : Nat) (t : List Byte) : Chip :=
  if !c.tlpsOn || f = 0 then c
  else match tlpClass t with
    | none => c
    | some cls => c.queueMsg (c.sideLink f) f cls ([0x40#8] ++ toBytes 1 src ++ toBytes 2 t.length ++ toBytes 4 0 ++ t)

/-- Bytes of TLPs held in the upstream buffer: those queued on the tunnel's flows. -/
def Chip.tlpHeld (c : Chip) : Nat :=
  (((c.cfgFlow :: c.pepList.map c.pepFlow).eraseDups.filter (· != 0)).map fun f =>
    ((c.outQ (c.sideLink f) f).map fun q => 8 * q.len).sum).sum

/-- A completion of a request: its status, and data. -/
def completionTlp (completer : Nat) (req : Nat × Nat) (status : Nat) (count lower : Nat) (data : List Byte) : List Byte :=
  let n := data.length / 4
  let b1 := req.2 / 512 % 2 * 128 + req.2 / 256 % 2 * 8
  toBytes 1 (if data.isEmpty then 0x0A else 0x4A) ++ toBytes 1 b1 ++ (toBytes 2 (n % 1024)).reverse ++ (toBytes 2 completer).reverse ++
    toBytes 1 (status * 32 + count / 256 % 16) ++ toBytes 1 count ++ (toBytes 2 req.1).reverse ++ toBytes 1 req.2 ++ toBytes 1 lower ++ data

/-- Unsupported Request from a switch port, whose ID the host assigned: a free value (log entry 11). -/
def Chip.unsupportedRequest (c : Chip) (req : Nat × Nat) : Chip :=
  let (n, c) := c.fresh
  c.sendTlp c.cfgFlow 0 (completionTlp (Config.freeWord n).toNat req 1 4 0 [])

/-- A message of a port, whose requester ID is a free value (log entry 11): `lead` is its first byte. -/
def msgTlp (lead : Byte) (requester code : Nat) : List Byte :=
  [lead, 0, 0, 0] ++ (toBytes 2 requester).reverse ++ [0] ++ toBytes 1 code ++ List.replicate 8 0

/-- A PM_PME message of a port, whose requester ID is a free value (log entry 11). -/
def pmeTlp (requester : Nat) : List Byte :=
  msgTlp 0x30 requester 0x18

/-! ## The configuration space (R263, R264; log entry 90) -/

/-- What a port of the switch declares (R263): function 0 is the upstream port. -/
def Chip.portCaps (c : Chip) (fn : Nat) : Config.PortCaps :=
  let big := c.part == .mh4160
  if fn = 0 then
    { device := if big then 0x4160 else 0x4142, upstream := true, maxPayload := 512, aspm := 0, l1Substates := false, speed := 320,
      lanes := 4, dlActive := c.on PCIE_TUN.EN, pm := true, msi := true, aer := true, secondary := false, physical16 := false,
      physical32 := false, acs := false, hotPlug := false, surprise := false, powerController := false,
      attention := false, mrl := false, indicators := false, interlock := false }
  else
    { device := if big then 0x4161 else 0x4143, upstream := false, maxPayload := 512, aspm := 3, l1Substates := true, speed := 320,
      lanes := 4, dlActive := c.on (PEP_STATUS.LINK_UP (fn - 1)), pm := true, msi := true, aer := true, secondary := true, physical16 := true,
      physical32 := true, acs := true, hotPlug := true, surprise := true,
      powerController := true, attention := false, mrl := false, indicators := false, interlock := false }

/-- What a register holds before the host writes it: of the prefetchable window, base above limit. -/
def cfgDefault (key : Nat) : Word := if key % 1024 = 9 then 0x0001FFF1 else 0

def Chip.cfgHeld (c : Chip) (fn r : Nat) : Word := cellsGet cfgDefault c.pcie.cfg (1024 * fn + r)

/-- The status bits of a port: Malformed TLP of the upstream port; Data Link Layer State Changed, Surprise Down and Power Fault
Detected of a downstream port. -/
def Chip.portStatus (c : Chip) (fn : Nat) : Nat :=
  if fn = 0 then c.pcie.malformed.toNat
  else
    let x := c.pep (fn - 1)
    x.dllsc.toNat + 2 * x.down.toNat + 4 * x.fault.toNat

/-- The register at which a function's PCI Express capability begins, and its ACS capability: places the spec leaves open (log
entry 90). -/
def pcieCapAt (fn : Nat) : Nat := 16 + Config.capAt fn 0 % 32
def acsCapAt (fn : Nat) : Nat := 64 + Config.capAt fn 1 % 896

/-- The bits of a PCI Express capability register that R263 states, and their values: the capability and port type, Max Payload Size
Supported, Link Capabilities, Link Control and Status, Slot Capabilities (places PRESUMED, log entry 90). -/
def Chip.statedBits (c : Chip) (fn i : Nat) : Nat × Nat :=
  let up := fn == 0
  let x := c.portCaps fn
  let speed := if up then 5 else c.fld (PEP_STATUS.SPEED (fn - 1)) + 1
  let width := if up then 4 else c.fld (PEP_STATUS.WIDTH (fn - 1))
  match i with
  | 0 => (0x01F000FF, 0x10 + (if up then 5 else 6) * 2 ^ 20 + (if up then 0 else 2 ^ 24))
  | 1 => (0x7, 2)
  | 3 => (0x00100FFF, 2 ^ 20 + x.aspm * 2 ^ 10 + x.lanes * 2 ^ 4 + 5)
  | 4 => (if up then 0x23FFFFFF else 0x23FF0000, x.dlActive.toNat * 2 ^ 29 + width % 64 * 2 ^ 20 + speed % 16 * 2 ^ 16)
  | 5 => if up then (0, 0) else
      (0x0002007F, x.attention.toNat + 2 * x.powerController.toNat + 4 * x.mrl.toNat + 24 * x.indicators.toNat + 32 * x.surprise.toNat +
        64 * x.hotPlug.toNat + 2 ^ 17 * x.interlock.toNat)
  | _ => (0, 0)

/-- What a configuration register reads: the IDs, the prefetchable window, what R263 states, or what the standard's layout gives. -/
def Chip.switchWord (c : Chip) (fn r : Nat) : Word :=
  let held := c.cfgHeld fn r
  if r = 0 then BitVec.ofNat 32 ((c.portCaps fn).device * 65536 + 0x1F4E)
  else if r = 9 then (held &&& 0xFFF0FFF0) ||| 0x00010001
  else if r = 10 || r = 11 then held
  else
    let fixed := if pcieCapAt fn ≤ r then c.statedBits fn (r - pcieCapAt fn) else (0, 0)
    (Config.cfgWord (c.portCaps fn) r held (c.portStatus fn) &&& ~~~BitVec.ofNat 32 fixed.1) ||| BitVec.ofNat 32 fixed.2

/-- Status bits of a port clear as a write of a register says. -/
def Chip.clearStatus (c : Chip) (fn mask : Nat) : Chip :=
  if fn = 0 then { c with pcie := { c.pcie with malformed := c.pcie.malformed && !mask.testBit 0 } }
  else c.modPep (fn - 1) fun x => { x with
    dllsc := x.dllsc && !mask.testBit 0
    down := x.down && !mask.testBit 1
    fault := x.fault && !mask.testBit 2 }

/-- The register a configuration request names, and the device. -/
def tlpReg (t : List Byte) : Nat := (t.getD 10 0).toNat % 16 * 64 + (t.getD 11 0).toNat / 4
def tlpDevice (t : List Byte) : Nat := (t.getD 9 0).toNat / 8

/-- The function of the switch a configuration request is for: Type 0 the upstream port, Type 1 the downstream port of that device
number. -/
def Chip.cfgTarget (c : Chip) (t : List Byte) : Option Nat :=
  if (t.getD 9 0).toNat % 8 != 0 then none
  else if tlpType t = 4 then if tlpDevice t = 0 then some 0 else none
  else if c.pepList.contains (tlpDevice t) then some (tlpDevice t + 1) else none

/-- The bytes of a word that a write enables. -/
def mergeBytes (be : Nat) (old new : Word) : Word :=
  BitVec.ofNat 32 (ofBytes ((List.range 4).map fun i => byteOf (if be.testBit i then new.toNat else old.toNat) i))

/-- A write of a configuration register. The upstream port ignores Link Control (R263). -/
def Chip.writeConfig (c : Chip) (fn : Nat) (t : List Byte) : Chip :=
  let r := tlpReg t
  let v := mergeBytes ((t.getD 7 0).toNat % 16) (c.cfgHeld fn r) (BitVec.ofNat 32 (ofBytes ((t.drop 12).take 4)))
  let v := if fn = 0 && r == pcieCapAt 0 + 4 then (v &&& 0xFFFF0000) ||| (c.cfgHeld fn r &&& 0x0000FFFF) else v
  let c := c.clearStatus fn (Config.cfgClears fn r v)
  { c with pcie := { c.pcie with cfg := cellsSet cfgDefault c.pcie.cfg (1024 * fn + r) v } }

/-- A request to the switch itself: a configuration request is performed and completed, any other request completed with Unsupported
Request. -/
def Chip.toSwitch (c : Chip) (t : List Byte) : Chip :=
  if tlpClass t != some clsNp then c.emit (.tlp 0 t)
  else match if tlpIsConfig t then c.cfgTarget t else none with
    | none => c.unsupportedRequest (tlpRequest t)
    | some fn =>
      let reply (c : Chip) (data : List Byte) : Chip := c.sendTlp c.cfgFlow 0 (completionTlp (tlpNat t 8 2) (tlpRequest t) 0 4 0 data)
      if tlpHasData t then reply (c.writeConfig fn t) []
      else reply c (toBytes 4 (c.switchWord fn (tlpReg t)).toNat)

/-! ## What a port reports (R263, R265) -/

/-- An error of a port, ERR_FATAL on CFG_FLOW, if the host's configuration lets it be reported. -/
def Chip.reportError (c : Chip) (fn : Nat) : Chip :=
  if Config.cfgReports fn 0 c.pcie.cfg then
    let (n, c) := c.fresh
    c.sendTlp c.cfgFlow 0 (msgTlp 0x30 (Config.freeWord n).toNat 0x33)
  else c

/-- The MSI of a port: a memory write of one doubleword. -/
def msiTlp (requester : Nat) (addr data : Word) : List Byte :=
  [0x40#8, 0, 0, 1] ++ (toBytes 2 requester).reverse ++ [0, 0x0F#8] ++ (toBytes 4 (addr.toNat / 4 * 4)).reverse ++ toBytes 4 data.toNat

/-- A change of a port's slot, by its MSI on CFG_FLOW, if the host's configuration lets it be reported. -/
def Chip.reportSlot (c : Chip) (fn : Nat) : Chip :=
  if Config.cfgReports fn 1 c.pcie.cfg then
    let (n, c) := c.fresh
    let m := Config.msiOf fn c.pcie.cfg
    c.sendTlp c.cfgFlow 0 (msiTlp (Config.freeWord n).toNat m.1 m.2)
  else c

end Sys2Proof.Machine
end

