-- ==== Sys2Proof/Machine/StoreOps.lean ====
section
/-! DEFINITION. The sockets, the switch and the Ethernet block as other units see them: powering off and shedding a socket, the tunnel's
end, and the PHY going down (R264, R270, R271, R276, R309). -/

namespace Sys2Proof.Machine

/-! ## Read-ahead (R269) -/

/-- Read-ahead data are discarded, and the doublewords no MemRd has used are counted. -/
def Chip.discardAhead (c : Chip) (p : PepAhead → Bool) : Chip :=
  let n := ((c.pcie.ahead.filter p).map fun b => dwords b.addr b.data.length - b.used.length).sum
  let c := if n = 0 then c else c.count PCIE_PF_DISCARD.COUNT n
  { c with pcie := { c.pcie with ahead := c.pcie.ahead.filter fun b => !p b } }

/-! ## Sockets (R270, R271) -/

/-- PERST_N is asserted: the port's link is down. -/
def Chip.assertPerst (c : Chip) (p : Nat) : Chip :=
  if c.on (PEP_STATUS.PERST p) then c
  else
    let c := ((c.setFld (PEP_STATUS.PERST p) 1).setFld (PEP_STATUS.LINK_UP p) 0).modPep p fun x => { x with reqs := [] }
    let c := { c with pcie := { c.pcie with upReqs := c.pcie.upReqs.filter fun r => r.port != p } }
    c.emit (.perst p true)

/-- A socket is powered off: PERST_N, REFCLK, then the switch. -/
def Chip.pepOff (c : Chip) (p : Nat) : Chip :=
  let was := c.on (PEP_STATUS.PWR_ON p)
  let ran := (c.pep p).refclk
  let c := ((c.assertPerst p).dropRamp (.m2 p)).modPep p fun x => { x with waiting := false, ready := false, refclk := false }
  let c := c.discardAhead fun b => b.port == p
  let c := if was || ran then c.emit (.refclk p false) else c
  if was then (c.setFld (PEP_STATUS.PWR_ON p) 0).emit (.m2 p false) else c

/-- A shed or tripped socket: Power Fault Detected, PWR_FAULT, EV167, and off until the host cycles Power Controller Control. -/
def Chip.pepFault (c : Chip) (p : Nat) : Chip :=
  let c := (c.pepOff p).modPep p fun x => { x with cycled := true, fault := true }
  ((c.setFld (PEP_STATUS.PWR_FAULT p) 1).raise 167 (p + 1)).reportSlot (p + 1)

/-- The ramp of a socket is asked for, with REFCLK running (R270). -/
def Chip.rampSocket (c : Chip) (p : Nat) : Chip :=
  ((c.modPep p fun x => { x with refclk := true }).emit (.refclk p true)).askRamp (.m2 p)

/-- A socket that is to be powered waits for its ramp. -/
def Chip.syncPep (c : Chip) (p : Nat) : Chip :=
  let x := c.pep p
  let on := c.on (PEP_STATUS.PWR_ON p) || x.waiting || c.rampDue (.m2 p)
  let wants := x.asked && c.granted (itSock p) && !x.cycled && decide (10 ≤ c.boot.step) && c.domainOn 10 && !c.safe &&
    c.pageOn (0x2C + p) && c.switchWorks (3 + p)
  if wants then if on then c else c.modPep p fun y => { y with waiting := true }
  else if on then c.pepOff p
  else c

/-- Native mode ends: the tunnel closes, the switch's configuration is back at its defaults, and PERST_N of every powered port is
asserted until the mode is entered again or OFF_DELAY expires (R264, R271). -/
def Chip.endTunnel (c : Chip) : Chip :=
  let c := ((c.setFld PCIE_TUN.EN 0).setFld PCIE_STATUS.UP 0).discardAhead fun _ => true
  let c := c.pepList.foldl (fun c p =>
    ((c.assertPerst p).modPep p fun x => { x with ready := false, dllsc := false, down := false, fault := false })) c
  { c with pcie := { c.pcie with malformed := false, offDelay := true, upReqs := [], cfg := [] } }

/-! ## Ethernet (R276, R309) -/

/-- Bits of the speeds the part has (R2). -/
def Chip.ethSpeeds (c : Chip) : Nat := if c.part == .mh4160 then 0x1F else 0x07

/-- Megabits per second of a speed code of ENET_STATUS. -/
def ethMbps (code : Nat) : Nat := [0, 100, 1000, 2500, 5000, 10000].getD code 0

/-- NetworkConnection and ConnectionSpeedChange of the NCM function (R278). -/
def Chip.ncmNote (c : Chip) : Chip :=
  if 2 ≤ c.fld HUB_STATUS.UP then c.emit (.ncmNote (c.on ENET_STATUS.LINK) (ethMbps (c.fld ENET_STATUS.SPEED))) else c

/-- The Ethernet link is down: what waits for transmission is lost. -/
def Chip.ethDown (c : Chip) : Chip :=
  let was := c.on ENET_STATUS.LINK
  let c := (((c.setFld ENET_STATUS.LINK 0).setFld ENET_STATUS.SPEED 0).setFld ENET_STATUS.EEE 0).setFld EPHY_STATUS.AN_DONE 0
  let c := { c with lpi := false, eth := { c.eth with pausedNs := 0, txQ := [] } }
  if was then (c.raise 169 0).ncmNote else c

/-- The MAC and PHY run: step 11, the grant, the domain (R54, R309, R319). -/
def Chip.ethRuns (c : Chip) : Bool :=
  decide (11 ≤ c.boot.step) && c.granted itEth && c.domainOn 11 && !c.safe && c.pageOn 0x2F

end Sys2Proof.Machine
end

