-- ==== Sys2Proof/Machine/PdOps.lean ====
section
/-! DEFINITION. The PD ports as the allocator and the mode logic see them: contracts, the feed of VSYS, the levels a port may offer, the
source switches and the cable (R285, R289, R291, R292, R302, R305). -/

namespace Sys2Proof.Machine

/-- Ports: 0 UL, 1 CS, 2 PI (R313). -/
def Chip.pdPort (c : Chip) (p : Nat) : PdPort := cellsGet (fun _ => PdPort.init) c.pd.ports p
def Chip.setPd (c : Chip) (p : Nat) (x : PdPort) : Chip :=
  { c with pd := { c.pd with ports := cellsSet (fun _ => PdPort.init) c.pd.ports p x } }
def Chip.modPd (c : Chip) (p : Nat) (f : PdPort → PdPort) : Chip := c.setPd p (f (c.pdPort p))

/-- The port is on the part and enabled. -/
def Chip.pdOn (c : Chip) (p : Nat) : Bool := c.pageOn (0x30 + p) && c.on (PD_CTRL.EN p)

def Chip.attached (c : Chip) (p : Nat) : Bool := c.on (PD_STATUS.ATTACHED p)
def Chip.isSource (c : Chip) (p : Nat) : Bool := c.on (PD_STATUS.SOURCE p)

/-! ## Contracts (R302, R305) -/

/-- Power of a port's contract in units of 10 mW; VOLT counts 20 mV and CURR 50 mA. -/
def Chip.contractPower (c : Chip) (p : Nat) : Nat := c.fld (PD_CONTRACT.VOLT p) * c.fld (PD_CONTRACT.CURR p) / 10

/-- The word of PD_CONTRACT for a contract. -/
def contractWord (r : PdReq) : Word :=
  BitVec.ofNat 32 (r.typ % 16 * 2 ^ 28 + r.mv / 20 % 4096 * 2 ^ 16 + r.ma / 50 % 256 * 2 ^ 8 + r.pos % 16)

/-- A contract begins or changes: EV196, and a wake source. -/
def Chip.setContract (c : Chip) (p : Nat) (r : PdReq) : Chip :=
  let old := c.reg (PD_CONTRACT p)
  let c := (c.setReg (PD_CONTRACT p) (contractWord r)).setFld (PD_STATUS.EXPLICIT p) (if r.typ = 1 then 0 else 1)
  if old = contractWord r then c else (c.latchWake 7).raise 196 p

/-- What a Sink port declares in its Sink Capabilities (R286), in mV and mA, and for UL the Fast Role Swap current by its code. No row
of the table asks for them (log entry 12). -/
def Chip.sinkCapabilities (c : Chip) (p : Nat) : List Pdo × Nat :=
  let ma := if p = 0 then 3000 else 5000
  let fixed := [5000, 9000, 15000, 20000].map fun mv => ({ kind := .fixed, mv := mv, ma := ma, epr := false } : Pdo)
  let epr := [28000, 36000, 48000].map fun mv => ({ kind := .fixed, mv := mv, ma := 5000, epr := true } : Pdo)
  let avs : Pdo := { kind := .avs, mv := 48000, ma := 5000, epr := true }
  if p = 0 then (fixed, c.fld (PD_CTRL.FRS_CUR 0))
  else (fixed ++ (if c.on (PD_STATUS.EPR p) then epr ++ [avs] else []), 0)

/-- The contract is no longer in force. -/
def Chip.dropContract (c : Chip) (p : Nat) : Chip :=
  let c := ((c.setReg (PD_CONTRACT p) 0).setFld (PD_STATUS.EXPLICIT p) 0).setFld (PD_STATUS.EPR p) 0
  c.modPd p fun x => { x with caps := [], asked := none, waited := false, tries := 0, levelMoving := false, overLevel := false }

/-- The contract in force as a Request. -/
def Chip.contractReq (c : Chip) (p : Nat) : PdReq :=
  { pos := c.fld (PD_CONTRACT.POS p), mv := 20 * c.fld (PD_CONTRACT.VOLT p), ma := 50 * c.fld (PD_CONTRACT.CURR p),
    typ := c.fld (PD_CONTRACT.TYPE p), mismatch := false }

/-! ## The feed and P_IN (R44, R285, R291, R305) -/

/-- A source is attached to a port: PI, or UL while Sink. -/
def Chip.sourceOn (c : Chip) (p : Nat) : Bool := c.attached p && !c.isSource p

/-- A PI contract is in force. -/
def Chip.piContract (c : Chip) : Bool := c.attached 2 && !(c.pdPort 2).off && c.switchWorks 2 && (c.on (PD_STATUS.EXPLICIT 2) || !c.sourceOn 0)

/-- What feeds VSYS: 0 the hold-up, 1 PI, 2 UL. During a Fast Role Swap nothing does until the host's VBUS is there. -/
def Chip.feedNow (c : Chip) : Nat :=
  if c.piContract then 1
  else if c.pd.frs == .signal || c.pd.frs == .waiting then 0
  else if c.pd.frs == .fed || (c.sourceOn 0 && !(c.pdPort 0).off && c.switchWorks 0) then 2
  else 0

/-- P_IN in units of 10 mW. -/
def Chip.pIn (c : Chip) : Nat :=
  match c.pd.loss with
  | some b => b
  | none =>
    match c.fld PP_STATUS.FEED with
    | 1 => c.contractPower 2
    | 2 => c.contractPower 0
    | _ => 0

/-- Input power is present. A switch with too few segments takes none (R380). -/
def Chip.inputPresent (c : Chip) : Bool :=
  c.on (PD_STATUS.EXPLICIT 2) && c.switchWorks 2 && decide (100 * c.fld (PD_SNK_CFG.SRC_MIN 2) ≤ c.contractPower 2)

/-- FEED and INPUT_PWR follow the ports; a change from one input to the other raises EV199. -/
def Chip.syncFeed (c : Chip) : Chip :=
  let old := c.fld PP_STATUS.FEED
  let new := c.feedNow
  let c := (c.setFld PP_STATUS.FEED new).setFld PP_STATUS.INPUT_PWR (if c.inputPresent then 1 else 0)
  if old != 0 && new != 0 && old != new then c.raise 199 (if new = 1 then 2 else 0) else c

/-! ## Levels (R289) -/

def ulLevels : List Nat := [15, 27, 45, 60, 100, 140]
def csLevels : List Nat := [15, 27, 45, 60]

/-- The highest level a port's cable carries, in W. -/
def Chip.cableWatts (c : Chip) (p : Nat) : Nat :=
  if c.fld (PD_STATUS.CBL_CUR p) != 2 then 60 else if c.on (PD_STATUS.CBL_EPR p) then 140 else 100

/-- The current of a level at its highest voltage, in mA. -/
def levelMa (w : Nat) : Nat := if w ≤ 60 then 3000 else 5000

/-- A level within the rating of a port's switch, and 15 W for a port without a current sensor (R380). -/
def Chip.levelWithin (c : Chip) (p w : Nat) : Bool := decide (levelMa w ≤ c.ratedMa p) && (!c.copp.ganged.contains (2, p) || decide (w ≤ 15))

/-- The levels a port may have, lowest first; 140 W needs EPR of the port and of the partner. -/
def Chip.levelsOf (c : Chip) (p : Nat) : List Nat :=
  let most := min (c.fld (PD_SRC_CFG.MAX_W p)) (c.cableWatts p)
  if p = 0 then
    ulLevels.filter fun w => w ≤ most && c.levelWithin 0 w && (w < 140 || (c.on (PD_SRC_CFG.EPR 0) && c.on (PD_STATUS.EPR 0)))
  else csLevels.filter fun w => w ≤ most && c.levelWithin 1 w

/-- The level in force, in W. -/
def Chip.levelOf (c : Chip) (p : Nat) : Nat := if p = 0 then c.fld PP_LEVEL.UL_W else c.fld PP_LEVEL.CS_W

/-- The Fixed PDOs of a level in mV and mA, by the Power Rules (PRESUMED, log entry 10). -/
def fixedOffers (w : Nat) : List (Nat × Nat) :=
  ([(15, 5000), (27, 9000), (45, 15000), (60, 20000)].filter fun x => x.1 ≤ w).map fun x =>
    (x.2, if x.2 = 20000 && 100 ≤ w then 5000 else 3000)

/-- A port's offers at its level, by object position. -/
def Chip.offers (c : Chip) (p : Nat) : List (Nat × Pdo) :=
  let w := c.levelOf p
  let fixed := fixedOffers w
  let n := fixed.length
  let base := (fixed.zip (List.range n)).map fun (x, i) => (i + 1, ({ kind := .fixed, mv := x.1, ma := x.2, epr := false } : Pdo))
  let top := (fixed.find? fun x => x.1 == 20000).map (·.2)
  let pps := match top with
    | some ma => if p = 0 && c.on (PD_SRC_CFG.PPS 0) then [(n + 1, ({ kind := .pps, mv := 21000, ma := ma, epr := false } : Pdo))] else []
    | none => []
  let epr : List (Nat × Pdo) := if p = 0 && 140 ≤ w && c.on (PD_SRC_CFG.EPR 0) then
      [(8, { kind := .fixed, mv := 28000, ma := 5000, epr := true }), (9, { kind := .avs, mv := 28000, ma := 5000, epr := true })]
    else []
  base ++ pps ++ epr

/-- A Request lies within the offers: the current of its PDO, and for an APDO its range, its steps and its power (R289, R290; the AVS steps,
100 mV and 50 mA, are the standard's: PRESUMED, log entry 10). -/
def Chip.inOffers (c : Chip) (p : Nat) (r : PdReq) : Bool :=
  decide (r.ma ≤ c.ratedMa p) && (c.offers p).any fun (pos, o) => pos == r.pos && r.ma ≤ o.ma && match o.kind with
    | .fixed => r.typ == 2 && r.mv == o.mv
    | .pps => r.typ == 3 && 3300 ≤ r.mv && r.mv ≤ o.mv && r.mv % 20 == 0 && r.ma % 50 == 0
    | .avs => r.typ == 4 && 15000 ≤ r.mv && r.mv ≤ o.mv && r.mv % 100 == 0 && r.ma % 50 == 0 && r.mv * r.ma ≤ 140000000

/-! ## Sustained trip (R303, R310, R380) -/

/-- The sustained trip of a source switch in mA: 1.1 times the current it follows, scaled with the segments that are good now. -/
def Chip.tripMa (c : Chip) (p : Nat) : Nat := 11 * (c.pdPort p).limitMa * c.goodSegments p / 140

/-- The trip of a source switch follows a current. -/
def Chip.setTrip (c : Chip) (p ma : Nat) : Chip := c.modPd p fun x => { x with limitMa := ma }

/-! ## What a port sends -/

def Chip.sendPd (c : Chip) (p : Nat) (m : PdMsg) : Chip := c.emit (.pd p m)

/-- Source_Capabilities of the level in force. -/
def Chip.sendCaps (c : Chip) (p : Nat) : Chip :=
  let w := c.levelOf p
  c.sendPd p (.sourceCaps w (p = 0 && c.on (PD_SRC_CFG.PPS 0)) (p = 0 && 140 ≤ w))

/-- The message that asks for a swap. -/
def swapMsg : PdSwap → PdMsg
  | .vconn => .vconnSwap
  | _ => .prSwap

/-- A swap the dock asks for is begun, or follows the one in progress (DESIGN CHOICE, log entry 56). -/
def Chip.askSwap (c : Chip) (x : PdSwap) : Chip :=
  match (c.pdPort 0).swap with
  | none => (c.modPd 0 fun y => { y with swap := some x, swapTries := 0, swapWaited := false }).sendPd 0 (swapMsg x)
  | some y => if y == x || (c.pdPort 0).swapsDue.contains x then c else c.modPd 0 fun z => { z with swapsDue := z.swapsDue ++ [x] }

/-- What a swap that was due is still wanted for. -/
def Chip.swapWanted (c : Chip) (x : PdSwap) : Bool :=
  c.attached 0 && match x with
  | .toSource => !c.isSource 0 && c.on PP_STATUS.INPUT_PWR && c.on (PD_CTRL.PRS_AUTO 0)
  | .toSink => c.isSource 0 && !c.granted itUl
  | .vconn => !c.on (PD_STATUS.VCONN 0) && !c.on (PD_STATUS.CBL_DONE 0)

/-- The swap in progress has ended: the first of those due that is still wanted begins. -/
def Chip.endSwap (c : Chip) : Chip :=
  let due := (c.pdPort 0).swapsDue.filter c.swapWanted
  let c := c.modPd 0 fun x => { x with swap := none, swapTries := 0, swapWaited := false, swapsDue := due.drop 1 }
  match due with
  | [] => c
  | x :: _ => c.askSwap x

/-- Every swap in progress or due is gone. -/
def PdPort.noSwap (x : PdPort) : PdPort := { x with swap := none, swapTries := 0, swapWaited := false, swapsDue := [] }

/-! ## Source switches and discharge (R289, R303, R309) -/

/-- The source switch of UL or CS opens, and VBUS is discharged. -/
def Chip.openSource (c : Chip) (p : Nat) : Chip :=
  if (c.pdPort p).switch then
    (c.modPd p fun x => { x with switch := false, discharge := some c.timeNs }).emit (.vbus p false)
  else c

/-- The source switch of UL or CS closes on an attached sink at vSafe5V and the level is offered, unless the port is shut off, is still
discharging, or is not yet allowed to source (R57, R303, R304). -/
def Chip.closeSource (c : Chip) (p : Nat) : Chip :=
  let x := c.pdPort p
  if x.switch || x.off || x.tripped || !c.switchWorks p || x.discharge.isSome || c.safe || !c.attached p || !c.isSource p || !c.pdOn p ||
      (if p = 0 then !c.granted itUl else c.boot.step < 12 || !c.granted itCasc) then c
  else
    let c := (c.modPd p fun x => { x with switch := true }).emit (.vbus p true)
    let c := (c.setContract p { pos := 0, mv := 5000, ma := 3000, typ := 1, mismatch := false }).setTrip p 3000
    if c.levelOf p = 0 then c else c.sendCaps p

/-! ## Discovery of the peer on CS (R297) -/

/-- The conditions of R297 for discovery hold: a CS contract, native mode on UL and PD_ALT_CFG.CARAX. -/
def Chip.mayDiscover (c : Chip) : Bool :=
  c.pdOn 1 && !c.paired && c.on (PD_STATUS.EXPLICIT 1) && c.native .ul && c.on (PD_ALT_CFG.CARAX 1) && !c.native .cs

/-- Whether training has failed in the Caraxline mode, for the partner's Exit Mode (R125). -/
def Chip.noteFailed (c : Chip) (b : Bool) : Chip := { c with pd := { c.pd with failed := b } }

/-- An effect after which the conditions of R297 may have come to hold: the dock then begins to discover the peer. -/
def Chip.thenDiscover (c : Chip) (f : Chip → Chip) : Chip :=
  let d := f c
  if d.mayDiscover && !c.mayDiscover then d.sendPd 1 (.discover false) else d

/-! ## The cable (R292) -/

/-- The words of an unknown cable, or of the traces of a paired board. -/
def Chip.noCableWords (c : Chip) (p : Nat) : Word := if p = 1 && c.paired then 0xFFFFFFFF else 0

/-- TURN_MEDIA of every lane of a port; 1 on the traces of a paired board (R50). -/
def Chip.setTurnMedia (c : Chip) (p : Nat) (b : Bool) : Chip :=
  let k := if p = 0 then Lnk.ul else Lnk.cs
  let v := if b || (p = 1 && c.paired) then 1 else 0
  (pairs k).foldl (fun c l => if pagePresent c.part (0x10 + l) then c.setFld (LANE_STATUS.TURN_MEDIA l) v else c) c

/-- The cable fields, the identity words and TURN_MEDIA clear at detach and at Hard Reset. -/
def Chip.clearCable (c : Chip) (p : Nat) : Chip :=
  if 2 ≤ p then c
  else
    let c := (((c.setFld (PD_STATUS.CBL_DONE p) 0).setFld (PD_STATUS.CBL_EMARK p) 0).setFld (PD_STATUS.CBL_PASSIVE p) 0)
    let c := (c.setFld (PD_STATUS.CBL_CUR p) 0).setFld (PD_STATUS.CBL_EPR p) 0
    let c := (List.range 4).foldl (fun c i => c.setReg (PD_CBL p i) (c.noCableWords p)) c
    c.setTurnMedia p false

end Sys2Proof.Machine
end

