-- ==== Sys2Proof/Machine/Budget.lean ====
section
/-! DEFINITION. The budget allocator: what is requested, the walk under power and dissipation, and what a grant that falls or rises does
(R305–R312). Powers are in units of 10 mW. -/

namespace Sys2Proof.Machine

/-! ## Items (R306, R308) -/

/-- Claim of an item that is not graded. -/
def claimOf (i : Nat) : Nat :=
  if i = 0 then 950
  else if i ≤ 4 then 330
  else if i = 5 then 1575
  else if i = 6 then 1825
  else if i ≤ 10 then 500
  else if i ≤ 12 then 280
  else if i = 13 then 350
  else if i = 14 then 1150
  else 900

/-- Its loss. -/
def lossOf (i : Nat) : Nat :=
  if i = 0 then 950
  else if i ≤ 4 then 165
  else if i = 5 then 75
  else if i = 6 then 325
  else if i ≤ 10 then 50
  else if i ≤ 12 then 30
  else if i = 13 then 350
  else if i = 14 then 325
  else 75

/-- Claim and loss of a level above its floor. -/
def levelClaim (w : Nat) : Nat := 105 * w - 1575
def levelLoss (w : Nat) : Nat := 5 * w - 75

/-- The dissipation limit of the package. -/
def heatLimit : Nat := 3500

/-- An item that is not graded takes part in the walk. -/
def Chip.requested (c : Chip) (i : Nat) : Bool :=
  if i = 0 then true
  else if i ≤ 4 then c.headList.contains (i - 1) && c.on (HEAD_CTRL.EN (i - 1))
  else if i = 5 then c.isSource 0
  else if i = 6 then c.attached 1 && c.isSource 1
  else if i ≤ 12 then (c.port (i - 7)).asked && !c.on (PORT_CTRL.DISABLE (i - 7))
  else if i = 13 then true
  else c.pepList.contains (i - 14) && (c.pep (i - 14)).asked

/-! ## The walk (R307) -/

/-- A walk in progress: power and dissipation, whether it has stopped, the items granted, the levels, the currents of DS0 and DS1 as
PP_LEVEL codes them, and whether a requested item was held. -/
structure Walk where
  left : Nat
  heat : Nat
  stop : Bool
  got : List Nat
  ul : Nat
  cs : Nat
  ds0 : Nat
  ds1 : Nat
  short : Bool
  deriving DecidableEq, Repr

/-- One item that is not graded. Socket 1 takes part only with socket 0 granted; the base is never held. -/
def Chip.walkItem (c : Chip) (w : Walk) (i : Nat) : Walk :=
  if !c.requested i || (i = 15 && !w.got.contains 14) then w
  else if i = 0 || (!w.stop && claimOf i ≤ w.left && w.heat + lossOf i ≤ heatLimit) then
    { w with left := w.left - claimOf i, heat := w.heat + lossOf i, got := w.got ++ [i] }
  else { w with stop := true, short := true }

/-- The level a graded port takes: the highest that fits. -/
def takeLevel (levels : List Nat) (w : Walk) : Nat :=
  ((levels.filter fun x => levelClaim x ≤ w.left && w.heat + levelLoss x ≤ heatLimit).getLast?).getD 0

/-- The level a walk gives a port. -/
def Walk.withLevel (w : Walk) (p x : Nat) : Walk := if p = 0 then { w with ul := x } else { w with cs := x }

/-- Rank 8 or 9. A port whose floor is granted has the floor's level when the rank is held, and so has a UL that sources until its swap
to Sink is made (R291). -/
def Chip.walkLevel (c : Chip) (p : Nat) (w : Walk) : Walk :=
  let levels := c.levelsOf p
  let floor := levels.head?.getD 0
  if !w.got.contains (if p = 0 then itUl else itCasc) then if p = 0 && (c.pdPort 0).switch then w.withLevel 0 floor else w
  else if w.stop then { w with short := true }.withLevel p floor
  else
    let x := takeLevel levels w
    { w with left := w.left - levelClaim x, heat := w.heat + levelLoss x, stop := decide (x < levels.getLast?.getD 0) }.withLevel p x

/-- Output limits of the powered ports, in units of 100 mW. -/
def outputs (w : Walk) : Nat :=
  let at' (p n : Nat) : Nat := if w.got.contains (itPort p) then n else 0
  let typec (x : Nat) : Nat := [45, 75, 150].getD x 150
  at' 0 (typec w.ds0) + at' 1 (typec w.ds1) + at' 2 45 + at' 3 45 + at' 4 25 + at' 5 25

/-- One raise of rank 10: port `p` to 1.5 A (1) or 3.0 A (2). -/
def Chip.walkRaise (c : Chip) (w : Walk) (x : Nat × Nat) : Walk :=
  let (p, n) := x
  if !w.got.contains (itPort p) || !(c.port p).attached then w
  else if w.stop then { w with short := true }
  else
    let raised := if p = 0 then { w with ds0 := n } else { w with ds1 := n }
    let claim := if n = 1 then 340 else 830
    let loss := if n = 1 then 40 else 80
    if claim ≤ w.left && w.heat + loss ≤ heatLimit && outputs raised ≤ 400 then
      { raised with left := w.left - claim, heat := w.heat + loss }
    else { w with stop := true }

/-- The whole walk under a P_IN. -/
def Chip.runWalk (c : Chip) (pin : Nat) : Walk :=
  let w : Walk := { left := pin, heat := 0, stop := false, got := [], ul := 0, cs := 0, ds0 := 0, ds1 := 0, short := false }
  let w := (List.range 16).foldl c.walkItem w
  let w := c.walkLevel 1 (c.walkLevel 0 w)
  [(0, 1), (1, 1), (0, 2), (1, 2)].foldl c.walkRaise w

/-! ## Grants that fall (R309) -/

/-- The DP_PWR of a held head opens, unless another head in force drives the same output. -/
def Chip.headPowerOff (c : Chip) (h : Nat) : Chip :=
  let o := c.fld (HEAD_CTRL.OUT h)
  if (c.others h).any fun g => c.granted (itHead g) && c.fld (HEAD_CTRL.OUT g) == o then c
  else (c.dropRamp (.dp o)).dpPower o false

/-- The cascade's SerDes and switch go off: the CS link is down. -/
def Chip.dropCascade (c : Chip) : Chip := ((c.openSource 1).dropContract 1).linkDown .cs 0

/-- UL as Source asks for the Sink role (R291). -/
def Chip.leaveSource (c : Chip) : Chip :=
  if c.attached 0 && c.isSource 0 && c.pd.frs == .idle && c.pdOn 0 && !c.safe then c.askSwap .toSink else c

/-- An item in force that is still requested loses its grant. A UL floor that no longer fits asks for the Sink role (R291). -/
def Chip.fallItem (c : Chip) (i : Nat) : Chip :=
  if 1 ≤ i && i ≤ 4 then (c.haltHead (i - 1)).headPowerOff (i - 1)
  else if i = 5 then c.leaveSource
  else if i = 6 then c.dropCascade
  else if 7 ≤ i && i ≤ 12 then c.syncPort (i - 7)
  else if i = 13 then c.ethDown
  else if 14 ≤ i then c.pepFault (i - 14)
  else c

/-! ## Grants that rise (R309) -/

/-- DP_PWR of an output is wanted and comes back through its ramp (R237). -/
def Chip.headPowerOn (c : Chip) (h : Nat) : Chip :=
  let o := c.fld (HEAD_CTRL.OUT h)
  if c.on (DPTX_CTRL.PWR_EN o) && !(c.dp o).tripped && !c.on (DPTX_STATUS.PWR_ON o) && c.hasOut o && decide (9 ≤ c.boot.step) && !c.safe then
    c.askRamp (.dp o)
  else c

/-- A head of the allocator starts as under R216. -/
def Chip.riseHead (c : Chip) (h : Nat) : Chip :=
  let c := c.headPowerOn h
  if c.scanning h || c.safe || !c.domainOn 9 || c.boot.step < 9 || !c.pageOn (0x20 + h) then c else c.startHead h

/-- An item comes into force. -/
def Chip.riseItem (c : Chip) (i : Nat) : Chip :=
  if 1 ≤ i && i ≤ 4 then c.riseHead (i - 1)
  else if i = 5 then c.closeSource 0
  else if i = 6 then c.closeSource 1
  else if 7 ≤ i && i ≤ 12 then c.syncPort (i - 7)
  else if i = 13 then if c.ethRuns then c.emit .autoneg else c
  else if 14 ≤ i then c.syncPep (i - 14)
  else c

/-! ## Levels (R310, R311) -/

/-- The voltage of a port's contract, in mV. -/
def Chip.contractMv (c : Chip) (p : Nat) : Nat := 20 * c.fld (PD_CONTRACT.VOLT p)

/-- A port's level changes: new Source_Capabilities at once; a fall takes the sustained trip of the new level at the contract voltage, and
one whose offers no longer hold the contract waits for a contract within it. -/
def Chip.setLevel (c : Chip) (p w : Nat) : Chip :=
  let old := c.levelOf p
  if old = w then c
  else
    let c := c.setFld (if p = 0 then PP_LEVEL.UL_W else PP_LEVEL.CS_W) w
    if !(c.pdPort p).switch then c
    else
      let past := decide (w < old) && c.on (PD_STATUS.EXPLICIT p) && !c.inOffers p (c.contractReq p)
      let c := if w < old && c.contractMv p != 0 then c.setTrip p (1000000 * w / c.contractMv p) else c
      (c.modPd p fun x => { x with levelMoving := true, overLevel := past }).sendCaps p

/-- The current of DS0 or DS1 as Rp advertises it. -/
def Chip.setCurrent (c : Chip) (p n : Nat) : Chip :=
  (c.setFld (if p = 0 then PP_LEVEL.DS0_I else PP_LEVEL.DS1_I) n).syncPort p

/-- The level of a source floor that rises is in force before its switch closes, so that the first offers are those of a level. -/
def Chip.riseLevel (c : Chip) (w : Walk) (i : Nat) : Chip :=
  if i = 5 then c.setLevel 0 w.ul else if i = 6 then c.setLevel 1 w.cs else c

/-! ## Putting a walk in force (R307, R309) -/

/-- PP_HELD: items requested and not in force. Socket 1 is requested with socket 0 granted (R306). -/
def Chip.syncHeld (c : Chip) : Chip :=
  let held (i : Nat) : Nat := if c.requested i && !c.granted i then 1 else 0
  let heads := ((List.range 4).map fun h => 2 ^ h * held (itHead h)).sum
  let ports := ((List.range 6).map fun p => 2 ^ p * held (itPort p)).sum
  let c := ((c.setFld PP_HELD.HEAD heads).setFld PP_HELD.DS ports).setFld PP_HELD.ETH (held itEth)
  let second := if c.granted (itSock 0) then held (itSock 1) else 0
  ((c.setFld PP_HELD.SOCK0 (held (itSock 0))).setFld PP_HELD.SOCK1 second).setFld PP_HELD.CASC (held itCasc)

/-- What a walk records: P_IN, LEFT, LOW_INPUT with EV203, and EV202 when an item was held. -/
def Chip.noteWalk (c : Chip) (pin : Nat) (w : Walk) : Chip :=
  let low := decide (pin < 950)
  let was := c.on PP_STATUS.LOW_INPUT
  let c := (c.setFld PP_STATUS.P_IN (pin / 10)).setFld PP_STATUS.LEFT (w.left / 10)
  let c := c.setFld PP_STATUS.LOW_INPUT (if low then 1 else 0)
  let c := if low && !was then c.raise 203 0 else c
  if w.short then (c.count PP_CNT.SHEDS).raise 202 0 else c

/-- The allocator walks. Grants that fall, and items no longer requested, take effect at once; grants that rise wait while P_IN has
fallen less than RESTORE ago. -/
def Chip.walk (c : Chip) : Chip :=
  let pin := c.pIn
  let w := c.runWalk pin
  let prev := c.budget.granted
  let hold := c.budget.hold
  let now := if hold then w.got.filter fun i => i = 0 || prev.contains i else w.got
  let c := (c.noteWalk pin w)
  let c := { c with budget := { c.budget with granted := now } }
  let falls := (prev.filter fun i => !w.got.contains i).reverse
  let c := falls.foldl (fun c i => if c.requested i then c.fallItem i else c) c
  let denied := c.pepList.filter fun p => c.requested (itSock p) && !w.got.contains (itSock p) && !(c.pep p).cycled
  let c := denied.foldl (fun c p => c.pepFault p) c
  let c := (now.filter fun i => !prev.contains i).foldl (fun c i => (c.riseLevel w i).riseItem i) c
  let lower (old new : Nat) : Nat := if hold then min old new else new
  let c := c.setLevel 0 (lower (c.levelOf 0) w.ul)
  let c := c.setLevel 1 (lower (c.levelOf 1) w.cs)
  let c := c.setCurrent 0 (lower (c.fld PP_LEVEL.DS0_I) w.ds0)
  let c := c.setCurrent 1 (lower (c.fld PP_LEVEL.DS1_I) w.ds1)
  c.syncHeld

/-- A Sink UL asks for the Source role when input power has become present (R291). -/
def Chip.offerSource (c : Chip) (was : Bool) : Chip :=
  if !was && c.on PP_STATUS.INPUT_PWR && c.sourceOn 0 && c.on (PD_CTRL.PRS_AUTO 0) && c.pdOn 0 && !c.safe then c.askSwap .toSource else c

/-- The feed and P_IN may have changed: a P_IN that falls holds rises back for RESTORE. -/
def Chip.refeed (c : Chip) : Chip :=
  let old := c.pIn
  let was := c.on PP_STATUS.INPUT_PWR
  let c := c.syncFeed
  let c := if c.pIn < old then { c with budget := { c.budget with hold := true } } else c
  c.walk.offerSource was

/-- RESTORE has passed without a fall of P_IN: rises take effect. -/
def execRestoreTimer (s : State) : Host.Outcome State Fault Refusal :=
  s.run fun c => ({ c with budget := { c.budget with hold := false } }).walk

/-- The lowest-ranked item in force, the raises and levels first (R312). -/
def Chip.shedLowest (c : Chip) : Chip :=
  if c.fld PP_LEVEL.DS1_I = 2 then c.setCurrent 1 1
  else if c.fld PP_LEVEL.DS0_I = 2 then c.setCurrent 0 1
  else if c.fld PP_LEVEL.DS1_I = 1 then c.setCurrent 1 0
  else if c.fld PP_LEVEL.DS0_I = 1 then c.setCurrent 0 0
  else if 15 < c.levelOf 1 then c.setLevel 1 15
  else if 15 < c.levelOf 0 then c.setLevel 0 15
  else match c.budget.granted.getLast? with
    | none => c
    | some i =>
      if i = 0 then c
      else
        let c := { c with budget := { c.budget with granted := c.budget.granted.filter (· != i) } }
        (c.fallItem i).syncHeld

/-- Input draw above the contract current for 1 ms: the lowest-ranked granted item is held, and grants rise again only under R309. -/
def Chip.overload (c : Chip) : Chip :=
  let c := { c with budget := { c.budget with hold := true } }
  let c := (c.count PP_CNT.OVERLOADS).raise 204 (if c.fld PP_STATUS.FEED = 1 then 2 else 0)
  ((c.shedLowest).count PP_CNT.SHEDS).raise 202 0

/-- R312. -/
def execInputOverload (s : State) : Host.Outcome State Fault Refusal := s.run fun c => c.overload

/-- A write of PP_CTRL: RESTORE, and CNT_CLR. -/
def Chip.writePpCtrl (c : Chip) (v : Word) : Chip :=
  let c := c.writeMasked PP_CTRL v
  if bit v 0 then c.clearRegs [PP_CNT] else c

/-- R314. -/
def execPpCntClr (v : Word) (s : State) : Host.Outcome State Fault Refusal := s.run fun c => c.writePpCtrl v

end Sys2Proof.Machine
end

