-- ==== Sys2Proof/Machine/FolioOps.lean ====
section
/-! DEFINITION. The Folio copies as images: sections, validity, choice of target, and the start of a write (R62–R71). -/

namespace Sys2Proof.Machine

/-! ## Images (R62–R65) -/

def imgByte (m : Cells Byte) (a : Nat) : Byte := cellsGet (fun _ => 0#8) m a
def imgBytes (m : Cells Byte) (a n : Nat) : List Byte := (List.range n).map fun i => imgByte m (a + i)
def imgNat (m : Cells Byte) (a n : Nat) : Nat := ofBytes (imgBytes m a n)

/-- Bytes placed at an offset, as a sparse image. -/
def imgOf (a : Nat) (bs : List Byte) : Cells Byte :=
  ((bs.zip (List.range bs.length)).filter fun p => p.1 != 0).map fun p => (a + p.2, p.1)

/-- The part of an image from one offset to another. -/
def imgPart (m : Cells Byte) (lo hi : Nat) : Cells Byte := m.filter fun p => decide (lo ≤ p.1) && decide (p.1 < hi)

/-- Header fields (R63). -/
def imgMagic : Nat := 0x4D48464F
def imgAccession (m : Cells Byte) : Nat := imgNat m 8 4
def imgWriter (m : Cells Byte) : Nat := imgNat m 12 4

/-- Whether a copy carries MAGIC; a copy without it is blank. -/
def imgMarked (m : Cells Byte) : Bool := imgNat m 0 4 == imgMagic

/-- A valid copy (R64). -/
def imgValid (m : Cells Byte) : Bool :=
  imgMarked m && imgNat m 4 2 == 1 && imgNat m 0xFFFC 4 == crc32 (imgBytes m 0 0xFFFC) &&
    imgBytes m 0x10 48 == Config.sha384 (imgBytes m 0x100 0xFEFC)

/-- A torn copy (R64). R64 leaves open what a copy is whose MAGIC and both checks are good and whose FORMAT is another value; that it is
torn is a DESIGN CHOICE (log entry 87). -/
def imgTorn (m : Cells Byte) : Bool := imgMarked m && !imgValid m

/-- Whether accession `a` is newer than `b` (R65). -/
def newerAcc (a b : Nat) : Bool :=
  let d := (a + 2 ^ 32 - b % 2 ^ 32) % 2 ^ 32
  decide (1 ≤ d) && decide (d < 2 ^ 31)

/-- The image of a write: the body's sections with the header, DIGEST and CRC-32 over them (R62, R63). -/
def imgBuild (accession writer : Nat) (body : Cells Byte) : Cells Byte :=
  let b := imgPart body 0x100 0xFFFC
  let head := imgOf 0 (toBytes 4 imgMagic ++ toBytes 2 1 ++ [0, 0] ++ toBytes 4 accession ++ toBytes 4 writer)
  let dig := imgOf 0x10 (Config.sha384 (imgBytes b 0x100 0xFEFC))
  let m := head ++ dig ++ b
  m ++ imgOf 0xFFFC (toBytes 4 (crc32 (imgBytes m 0 0xFFFC)))

/-! ## The two copies -/

def Chip.copyOf (c : Chip) (t : Nat) : Cells Byte := if t = 0 then c.folio.copyA else c.folio.copyB
def Chip.setCopy (c : Chip) (t : Nat) (m : Cells Byte) : Chip :=
  if t = 0 then { c with folio := { c.folio with copyA := m } } else { c with folio := { c.folio with copyB := m } }

def validFld (t : Nat) : Fld := if t = 0 then FOLIO_STATUS.VALID_A else FOLIO_STATUS.VALID_B
def accReg (t : Nat) : Nat := if t = 0 then FOLIO_ACC_A else FOLIO_ACC_B

/-- Whether any copy is valid now, and the newest valid one (R65). -/
def Chip.newestValid (c : Chip) : Option Nat :=
  match c.on FOLIO_STATUS.VALID_A, c.on FOLIO_STATUS.VALID_B with
  | true, true => some (c.fld FOLIO_STATUS.NEWEST)
  | true, false => some 0
  | false, true => some 1
  | false, false => none

/-- The copy a write goes to (R69). -/
def Chip.writeTarget (c : Chip) : Nat := match c.newestValid with
  | some t => 1 - t
  | none => 0

/-- The sections a write copies, and the accession it takes (R69). -/
def Chip.newestBody (c : Chip) : Cells Byte × Nat := match c.newestValid with
  | some t => (c.copyOf t, (imgAccession (c.copyOf t) + 1) % 2 ^ 32)
  | none => ([], 1)

/-- Replace a section of a body. -/
def withSection (m : Cells Byte) (lo hi : Nat) (s : Cells Byte) : Cells Byte :=
  imgPart m 0 lo ++ s ++ imgPart m hi 0x10000

/-! ## Starting a write (R69–R71) -/

/-- A write is in progress; a verify is none (R60). -/
def Chip.folioWrites (c : Chip) : Bool := c.folio.job.any (!·.verify)

/-- A write that has its locks: the image is built and the target erased, so VALID and the accession clear (R70, steps 2
and 3). -/
def Chip.beginFolioWrite (c : Chip) (writer : Nat) (body : Cells Byte) : Chip :=
  let t := c.writeTarget
  let m := imgBuild c.newestBody.2 writer body
  let j : FolioJob := { target := t, writer := writer, image := m, before := c.copyOf t, wasValid := c.on (validFld t),
                        retried := false, verify := false }
  (((c.setCopy t []).setFld (validFld t) 0).setReg (accReg t) 0).setFld FOLIO_STATUS.BUSY 1 |> fun c =>
    { c with folio := { c.folio with job := some j } }

/-- Writer codes of R63. -/
def writerHost : Nat := 0
def writerCoppice : Nat := 1
def writerMuniment : Nat := 2
def writerTaps : Nat := 3
def writerClear : Nat := 5

/-- An owner's request to write its section: locks and unit are taken, or it is refused (R70 step 1, R71). -/
def Chip.ownerWrite (c : Chip) (writer lo hi : Nat) (sect : Cells Byte) : MaintAnswer × Chip :=
  match c.maintRequest 0x30 [.folio c.writeTarget] with
  | (.granted, c) => (.granted, c.beginFolioWrite writer (withSection c.newestBody.1 lo hi sect))
  | r => r

end Sys2Proof.Machine
end

