-- ==== Sys2Proof/Machine/CoppiceOps.lean ====
section
/-! DEFINITION. The repair map: pools of spares, what a repair leaves, exhaustion, and the map's Folio section (R375, R380,
R382–R385). -/

namespace Sys2Proof.Machine

/-- Kinds of R375. -/
def kPlane : Nat := 1
def kFlow : Nat := 2
def kRow : Nat := 3
def kBank : Nat := 4
def kSram : Nat := 5
def kSlot : Nat := 6
def kSector : Nat := 7
def kSlice : Nat := 8
def kSegment : Nat := 9
def kSensor : Nat := 10
def kRouter : Nat := 11

/-- Spares of one pool (R375). -/
def poolSpares (kind unit : Nat) : Nat :=
  match kind with
  | 1 => 1
  | 2 => 16
  | 3 => 16
  | 4 => 1
  | 5 => 4
  | 6 => 8
  | 7 => 2
  | 8 => 2
  | 9 => 2
  | 10 => if unit = 0 then 2 else 1
  | 11 => 1
  | _ => 0

/-- Pools of a kind (R375); the MH4142 has four slice pools. -/
def poolCount (part : Part) (kind : Nat) : Nat :=
  match kind with
  | 3 => 264
  | 4 => 8
  | 5 => 184
  | 7 => 2
  | 8 => if part = .mh4142 then 4 else 8
  | 9 => 5
  | 10 => 3
  | k => if 1 ≤ k ∧ k ≤ 11 then 1 else 0

/-- The first SPARE number of a kind's pools (R383). -/
def spareBase : Nat → Nat
  | 1 => 8
  | 2 => 256
  | 4 => 32
  | 6 => 64
  | 7 => 16
  | 8 => 28
  | 9 => 14
  | _ => 0

/-- Spares of a pool in use or retired. -/
def Chip.poolUsed (c : Chip) (kind unit : Nat) : Nat :=
  (c.copp.map.filter fun e => e.kind == kind && e.unitNo == unit).length

/-- The next spare of a pool: neither in the map nor meant for a repair that waits or runs. -/
def Chip.nextSpare (c : Chip) (kind unit : Nat) : Option Nat :=
  ((List.range (poolSpares kind unit)).map (spareBase kind + ·)).find? fun s =>
    !(c.copp.map.any fun e => e.kind == kind && e.unitNo == unit && e.spare == s) &&
      !((c.copp.waiting ++ c.copp.running).any fun r => r.kind == kind && r.unitNo == unit && r.spare == s)

def Chip.modCopp (c : Chip) (f : Copp → Copp) : Chip := { c with copp := f c.copp }

/-- Detail of EV236–EV238 (R375). -/
def repairDetail (kind unit orig : Nat) : Nat := kind * 2 ^ 24 + unit % 2 ^ 16 * 2 ^ 8 + orig % 256

/-! ## The map's section (R382–R385) -/

/-- An entry's eight bytes; `flag7` marks a fuse entry in the measurement (R384). -/
def RepEntry.bytes (e : RepEntry) (flag7 : Bool) : List Byte :=
  toBytes 1 e.kind ++ toBytes 1 (e.retired.toNat + (if flag7 then 128 else 0)) ++ toBytes 2 e.unitNo ++ toBytes 2 e.orig ++
    toBytes 2 e.spare

/-- The in-service entries that the section records. -/
def Chip.inService? (c : Chip) : List RepEntry := c.copp.map.filter fun e => !e.fuse && e.kept

/-- Whether a copy holds a repair map (R383). -/
def holdsMap (m : Cells Byte) : Bool := imgValid m && imgNat m 0x5000 4 == 0x434F5050

/-- A baseline moved towards the hour's mean: by at most 1 % of the fused value, within 5 % of it in all (R382). -/
def moveBaseline (fused base mean : Nat) : Nat :=
  let step := fused / 100
  let b := if base < mean then min mean (base + step) else max mean (base - step)
  max (fused - fused / 20) (min (fused + fused / 20) b)

/-- The mean measurement of a monitor over the past hour. -/
def Chip.hourMean (c : Chip) (i : Nat) : Option Nat :=
  let xs := (c.copp.samples.filter fun s => s.2.1 == i && decide (c.timeNs ≤ s.1 + 3600000000000)).map (·.2.2)
  if xs.isEmpty then none else some (xs.sum / xs.length)

/-- The baselines a write stores: the fused values while no copy holds a map, then moved (R382). -/
def Chip.newBaselines (c : Chip) : List Nat :=
  let known := holdsMap c.folio.copyA || holdsMap c.folio.copyB
  (List.range 9).map fun i =>
    let f := Config.fusedBaseline i
    if !known then f
    else match c.hourMean i with
      | some m => moveBaseline f (c.copp.base.getD i f) m
      | none => c.copp.base.getD i f

/-- The section as a write carries it: the whole map in force with BAR and baselines (R383, R384). -/
def Chip.mapSection (c : Chip) : Cells Byte :=
  let es := c.inService?
  imgOf 0x5000 (toBytes 4 0x434F5050 ++ toBytes 2 es.length ++ [0, 0] ++ toBytes 4 (c.fld MON_STATUS.BAR)) ++
    imgOf 0x5100 (c.copp.base.flatMap (toBytes 4)) ++ imgOf 0x5800 (es.flatMap fun e => e.bytes false)

/-- Coppice requests a write of its section; a refused request is made again at an epoch boundary (R71, R385). -/
def Chip.requestMapWrite (c : Chip) : Chip :=
  if !c.on COPP_CTRL.RECORD then c
  else
    let b := c.newBaselines
    let d := c.modCopp fun x => { x with base := b }
    match d.ownerWrite writerCoppice 0x5000 0x7000 d.mapSection with
    | (.granted, d) => { d with folio := { d.folio with retryCoppice := false } }
    | (_, d) => { d with copp := c.copp, folio := { d.folio with retryCoppice := true } }

/-! ## What a repair leaves (R375, R380, R385) -/

/-- The map takes an entry: recorded if the section has room, in force either way (R385). -/
def Chip.addEntry (c : Chip) (e : RepEntry) : Chip :=
  let full := !e.fuse && decide (768 ≤ c.inService?.length)
  let c := c.modCopp fun x => { x with map := x.map ++ [{ e with kept := !e.fuse && !full }] }
  if full then ((c.setFld COPP_STATUS.MAP_FULL 1).count COPP_CNT.NOT_RECORDED).raiseOpen 241
  else if e.fuse then c
  else c.requestMapWrite

/-- The last spare of a pool has been taken, or a spare retired: EV237, and EXH shows the kind (R380, R390). -/
def Chip.noteLast (c : Chip) (kind unit orig : Nat) : Chip :=
  (c.setFld ⟨COPP_STATUS, 11 + kind, 1⟩ 1).raise 237 (repairDetail kind unit orig)

/-- A repair brings in a spare: EV236, the counts, the map, and EV237 for the last spare of the pool. -/
def Chip.noteRepair (c : Chip) (kind unit orig spare : Nat) : Chip :=
  let c := ((c.raise 236 (repairDetail kind unit orig)).count COPP_CNT.REPAIRS).setFld COPP_STATUS.LAST_KIND kind
  let e : RepEntry := { kind := kind, retired := false, unitNo := unit, orig := orig, spare := spare,
                        fuse := kind == kSector, kept := false }
  let c := c.addEntry e
  c.when (poolSpares kind unit ≤ c.poolUsed kind unit) fun c => c.noteLast kind unit orig

/-- A failure needs a spare of an exhausted pool: EV238 once per pool after each reset (R380). -/
def Chip.noteExhausted (c : Chip) (kind unit orig : Nat) : Chip :=
  if c.copp.told.contains (kind, unit) then c
  else (c.modCopp fun x => { x with told := x.told ++ [(kind, unit)] }).raise 238 (repairDetail kind unit orig)

/-- Whether automatic repair is on (R375); in safe state Coppice makes no repair (R405), and with its page disabled it does nothing
(R419). -/
def Chip.repairOn (c : Chip) : Bool := c.on COPP_CTRL.EN && c.pageOn 0x07 && !c.safe

/-- A spare that failed is marked retired in the map. -/
def Chip.retireSpare (c : Chip) (kind unit spare : Nat) : Chip :=
  c.modCopp fun x =>
    { x with map := x.map.map fun e => if e.kind == kind && e.unitNo == unit && e.spare == spare then { e with retired := true } else e }

/-! ## Slices of a lane receiver (R379, R380) -/

/-- The slices of a lane that wait for a spare are swapped: before step 5 of a training, or when the lane has left its group.
A pool without a spare disables the slice. While automatic repair is off they wait on (R375). -/
def Chip.swapSlices (c : Chip) (l : Nat) : Chip :=
  if !c.repairOn then c
  else (c.copp.slices.filter fun e => e.1 == l).foldl (fun c e =>
    let c := c.modCopp fun x => { x with slices := x.slices.filter fun y => y != e }
    match c.nextSpare kSlice l with
    | some s => c.noteRepair kSlice l e.2 s
    | none => (c.noteExhausted kSlice l e.2).modCopp fun x => { x with badSlices := x.badSlices ++ [e] }) c

/-! ## Recoveries in progress (R391) -/

/-- Whether a recovery is in progress: a fail-over, a lane repair or a Stacks bank repair. Entry into safe state abandons it (R407). -/
def Chip.recovering (c : Chip) : Bool :=
  !c.safe && (c.fld ROUT_STATUS.STATE == 1 || c.router.phase != 0 || !c.copp.repairLanes.isEmpty ||
    c.copp.running.any fun r => r.kind == kBank)

/-- A source with reaction REPAIR lets Coppice act on the trigger it reports (R394). -/
def Chip.repairs (c : Chip) (src : Nat) : Bool := c.repairOn && c.react src == 3

end Sys2Proof.Machine
end

