-- ==== Sys2Proof/Machine/Hub.lean ====
section
/-! DEFINITION. The USB hub: the tunnel, the downstream ports, babble and over-current, suspend and resume (R242–R262). -/

namespace Sys2Proof.Machine

/-! ## Tunnel messages (R244–R246) -/

def tunKind (m : List MsgCell) : Nat := hdrNat m 0 1
def tunDlen (m : List MsgCell) : Nat := hdrNat m 2 2

/-- The header from byte 4 and the data of a message. -/
def tunBytes (m : List MsgCell) : List Byte := ((m.flatMap fun x => fitBytes 120 x.payload).drop 4).take (16 + tunDlen m)

/-- A message of the tunnel breaks R246; `iso` says whether it carries isochronous data. U2_RES, which only the adapter sends (R245), counts
as no valid KIND when it comes from the host (DESIGN CHOICE, log entry 51). -/
def Chip.tunBad (c : Chip) (f : Nat) (m : List MsgCell) (iso : Bool) : Bool :=
  !([0x01, 0x02, 0x10, 0x20].contains (tunKind m)) || 1024 < tunDlen m || m.length != 1 + (tunDlen m - 100 + 119) / 120 ||
    iso != (f == c.fld HUB_TUN.ISO_FLOW)

/-- A flow of the tunnel, with ENDPOINT USB, while it is enabled and the hub's upstream is the tunnel. -/
def Chip.tunFlow (c : Chip) (f : Nat) : Bool :=
  c.on HUB_TUN.EN && c.fld HUB_STATUS.UP == 1 && f != 0 && (f == c.fld HUB_TUN.BULK_FLOW || f == c.fld HUB_TUN.ISO_FLOW) &&
    c.fld (FLOW_CFG.ENDPOINT f) == 9

/-- A message is taken, or discarded, counted and raises EV165. One with a cell of another TYPE than P is no message of the tunnel
(R244; DEDUCED, log entry 89). -/
def Chip.tunnel (c : Chip) (f : Nat) (m : List MsgCell) (iso : Bool) (g : Chip → Chip) : Chip :=
  if !c.tunFlow f || !(m.all fun x => x.typ % 8 == clsP) then c
  else if c.tunBad f m iso then (c.count HUB_STATUS.TUN_REJ).raise 165 0
  else g c

/-- The link a flow runs on. -/
def Chip.sideOf (c : Chip) (f : Nat) : Lnk := if c.on (FLOW_CFG.SIDE f) then .cs else .ul

/-- A message upstream: KIND, its second byte, the 16 header bytes, data. -/
def Chip.tunnelUp (c : Chip) (iso : Bool) (kind sub : Nat) (hdr data : List Byte) : Chip :=
  let f := if iso then c.fld HUB_TUN.ISO_FLOW else c.fld HUB_TUN.BULK_FLOW
  if !c.on HUB_TUN.EN || f = 0 then c
  else c.queueMsg (c.sideOf f) f clsP (toBytes 1 kind ++ toBytes 1 sub ++ toBytes 2 data.length ++ fitBytes 16 hdr ++ data)

/-- A packet that a SuperSpeed device sends: with its data, isochronous data on ISO_FLOW, or a header alone. -/
def Chip.ssUp (c : Chip) (x : SsPacket) : Chip := match x.data with
  | some d => c.tunnelUp x.iso 0x02 0 x.header d
  | none => c.tunnelUp false 0x01 0 x.header []

/-- A packet reaches a SuperSpeed device, and what devices send is sent upstream (log entry 89). -/
def Chip.ssPacket (c : Chip) (m : List MsgCell) (port : Nat) (answers : List SsPacket) : Chip :=
  answers.foldl (fun c x => c.ssUp x) (c.emit (.usb port (tunBytes m)))

/-- R245. -/
def execSsHdr (f : Fin 256) (cells : List MsgCell) (d : SsDelivery) (s : State) : Host.Outcome State Fault Refusal :=
  s.run fun c => c.tunnel f cells false fun c => c.ssPacket cells d.port d.answers

/-- R245. Isochronous data with a lost cell fails the cell count and never reaches the device (R260). -/
def execSsData (f : Fin 256) (cells : List MsgCell) (d : SsDelivery) (iso : Bool) (s : State) :
    Host.Outcome State Fault Refusal :=
  s.run fun c => c.tunnel f cells iso fun c => c.ssPacket cells d.port d.answers

/-- The low half of a token PID: 1 OUT, which carries data downstream, and 9 IN, which asks for data (PRESUMED, log entry 89). -/
def tokenOf (bytes : List Byte) : Nat := (bytes.getD 0 0).toNat % 16

/-- A USB 2.0 transaction is run on the local bus and answered by U2_RES with the microframe used, on ISO_FLOW when it carries
isochronous data. A full- or low-speed port's Transaction Translator holds it. -/
def Chip.runU2 (c : Chip) (port : Nat) (bytes : List Byte) (pid : Nat) (reply : List Byte) (iso : Bool) : Chip :=
  let c := if port < 6 && c.fld (PORT_STATUS.SPEED port) = 1 then { c with hub := { c.hub with tts := c.hub.tts ++ [(port, bytes)] } } else c
  (c.emit (.usb port bytes)).tunnelUp (iso && tokenOf bytes == 9 && pid != 0) 0x11 0 (toBytes 4 pid ++ toBytes 2 c.hub.uframe) reply

/-- A U2_TXN: run now, held for its microframe, or answered with PID 0 when that has passed. -/
def Chip.u2Txn (c : Chip) (m : List MsgCell) (port : Nat) (pid : Nat) (reply : List Byte) (iso : Bool) : Chip :=
  let frame := hdrNat m 8 2 % 16384
  let late := (c.hub.uframe + 16384 - frame) % 16384
  if frame = 0x3FFF || late = 0 then c.runU2 port (tunBytes m) pid reply iso
  else if late < 8192 then
    (c.count HUB_STATUS.TUN_REJ).tunnelUp false 0x11 0 (toBytes 4 0 ++ toBytes 2 c.hub.uframe) []
  else
    let t : U2Held := { port := port, frame := frame, bytes := tunBytes m, pid := pid, reply := reply, iso := iso }
    { c with hub := { c.hub with txns := c.hub.txns ++ [t] } }

/-- R246. `iso` says that the endpoint is isochronous: an OUT transaction to it carries isochronous data. -/
def execU2Txn (f : Fin 256) (cells : List MsgCell) (port : Fin 8) (iso : Bool) (pid : BitVec 8) (reply : List Byte) (s : State) :
    Host.Outcome State Fault Refusal :=
  s.run fun c => c.tunnel f cells (iso && tokenOf (tunBytes cells) == 1) fun c => c.u2Txn cells port pid.toNat reply iso

/-- Every 125 µs the adapter sends a start-of-frame, and transactions held for this microframe run. What a Transaction Translator
held is done (DESIGN CHOICE, log entry 89). -/
def Chip.startOfFrame (c : Chip) : Chip :=
  if c.fld HUB_STATUS.UP != 1 then c
  else
    let u := (c.hub.uframe + 1) % 16384
    let due := c.hub.txns.filter fun t => t.frame == u
    let c := { c with hub := { c.hub with uframe := u, txns := c.hub.txns.filter fun t => t.frame != u, tts := [] } }
    due.foldl (fun c t => c.runU2 t.port t.bytes t.pid t.reply t.iso) (c.emit (.sof u))

/-- R244. -/
def execStartOfFrame (s : State) : Host.Outcome State Fault Refusal := s.run fun c => c.startOfFrame

/-! ## Resume and remote wake (R253, R254) -/

/-- The length of a resume, 21 ms (R248). -/
def resumeLen : Nat := 21 * 10 ^ 6

/-- A resume is still being signalled downstream: 21 ms from its beginning (R248). -/
def Chip.resuming (c : Chip) : Bool := c.hub.resumeNs.any fun t => decide (c.timeNs < t + resumeLen)

/-- Ports with a device. -/
def Chip.connected (c : Chip) : List Nat := (List.range 6).filter fun p => c.on (PORT_STATUS.CONNECTED p)

/-- A resume begins. -/
def Chip.beginResume (c : Chip) (host : Bool) (port : Option Nat) : Chip :=
  { c with hub := { c.hub with resumeNs := some c.timeNs, rsmHost := host, rsmPort := port } }

/-- The remote wake goes upstream: in the tunnel, or as resume signalling. -/
def Chip.wakeUp (c : Chip) : Chip :=
  if c.fld HUB_STATUS.UP = 1 then (c.latchWake 1).tunnelUp false 0x20 0x03 [] [] else c.emit .resumeUp

/-- A resume mark of one of ports 1–6. -/
def Chip.markPort (c : Chip) (f : Nat → Fld) (p : Nat) : Chip := if p < 6 then c.setFld (f p) 1 else c

/-- A host resume is signalled on ports. -/
def Chip.signalResume (c : Chip) (ps : List Nat) : Chip :=
  ps.foldl (fun c p => (c.setFld (PORT_STATUS.RSM_HOST p) 1).emit (.resume p)) (c.setFld HUB_STATUS.SUSPENDED 0)

/-- A host resume: signalled downstream once; one that overlaps a device's remote wake is one resume with it, signalled on the
ports that have not had it. -/
def Chip.hostResume (c : Chip) : Chip :=
  let c := c.latchWake 4
  if c.resuming then
    let rest := if c.hub.rsmHost then [] else c.connected.filter fun p => c.hub.rsmPort != some p
    let c := ({ c with hub := { c.hub with rsmHost := true } }).signalResume rest
    match c.hub.rsmPort with
    | some p => c.markPort PORT_STATUS.RSM_HOST p
    | none => c
  else if !c.on HUB_STATUS.SUSPENDED then c
  else (c.beginResume true none).signalResume c.connected

/-- A device's remote wake on a suspended hub: it joins a resume being signalled, or is forwarded upstream when permitted. -/
def Chip.remoteWake (c : Chip) (p : Nat) (permitted : Bool) : Chip :=
  if c.resuming && c.hub.rsmHost then (((c.markPort PORT_STATUS.RSM_DEV p).latchWake 5).latchWake 4).markPort PORT_STATUS.RSM_HOST p
  else if !c.on HUB_STATUS.SUSPENDED || !permitted || c.resuming then c
  else
    let c := (c.markPort PORT_STATUS.RSM_DEV p).latchWake 5
    (((c.beginResume false (some p)).emit (.resume p)).raise 163 (p + 1)).wakeUp

/-- R253. -/
def execRemoteWake (p : Fin 8) (permitted : Bool) (s : State) : Host.Outcome State Fault Refusal :=
  s.run fun c => c.remoteWake p permitted

/-- A change on a suspended SuperSpeed port wakes the hub as its remote wake mask allows. -/
def Chip.portWakes (c : Chip) (p : Nat) (wakes : Bool) : Chip :=
  if wakes && c.on HUB_STATUS.SUSPENDED then c.remoteWake p true else c

/-! ## The upstream port (R246, R249, R254, R257) -/

/-- A reset of the upstream port: ports 1–6 are powered off, and the service function is at its defaults. -/
def Chip.upstreamReset (c : Chip) : Chip :=
  let c := (List.range 6).foldl (fun c p => c.modPort p fun x => { x with asked := false, heldReq := false, disabled := false }) c
  ((((c.setFld HUB_STATUS.SUSPENDED 0).resetFunction).clearHub).walk).syncDsPorts

/-- R249. -/
def execUportReset (f : Fin 256) (cells : List MsgCell) (s : State) : Host.Outcome State Fault Refusal :=
  s.run fun c => c.tunnel f cells false fun c => c.upstreamReset

/-- R246. A UPORT message that is none of RESET, SUSPEND and RESUME is discarded. -/
def execUportSuspend (f : Fin 256) (cells : List MsgCell) (s : State) : Host.Outcome State Fault Refusal :=
  s.run fun c => c.tunnel f cells false fun c =>
    if hdrNat cells 1 1 = 1 then c.setFld HUB_STATUS.SUSPENDED 1 else (c.count HUB_STATUS.TUN_REJ).raise 165 0

/-- R254. -/
def execUportResume (f : Fin 256) (cells : List MsgCell) (s : State) : Host.Outcome State Fault Refusal :=
  s.run fun c => c.tunnel f cells false fun c => c.hostResume

/-- The host resets the hub's upstream port on the UL pairs or D_P/_M. -/
def execUsbBusReset (s : State) : Host.Outcome State Fault Refusal :=
  s.run fun c => if 2 ≤ c.fld HUB_STATUS.UP then c.upstreamReset else c

/-- The host suspends the upstream port in the fallback and USB-only modes (R316). -/
def execUpstreamSuspend (s : State) : Host.Outcome State Fault Refusal :=
  s.run fun c => if 2 ≤ c.fld HUB_STATUS.UP then c.setFld HUB_STATUS.SUSPENDED 1 else c

/-- R254. -/
def execResumeSignalling (s : State) : Host.Outcome State Fault Refusal :=
  s.run fun c => if 2 ≤ c.fld HUB_STATUS.UP then c.hostResume else c

/-! ## Connect and attach (R248) -/

/-- A device appears on a powered port. -/
def Chip.connect (c : Chip) (p speed : Nat) : Chip :=
  if c.on (PORT_STATUS.VBUS_ON p) && c.hubRuns then
    (c.setFld (PORT_STATUS.CONNECTED p) 1).setFld (PORT_STATUS.SPEED p) speed
  else c

/-- R248. -/
def execPortConnect (p : Fin 6) (high wakes : Bool) (s : State) : Host.Outcome State Fault Refusal :=
  s.run fun c => (c.connect p (if high then 2 else 1)).portWakes p wakes

/-- R248. -/
def execPortDisconnect (p : Fin 6) (wakes : Bool) (s : State) : Host.Outcome State Fault Refusal :=
  s.run fun c =>
    if c.on (PORT_STATUS.CONNECTED p) then
      let c := c.dropTxns p
      ((c.setFld (PORT_STATUS.CONNECTED p) 0).setFld (PORT_STATUS.SPEED p) 0).portWakes p wakes
    else c

/-- Receiver detection on DS0–DS3 finds a SuperSpeed partner, or is repeated. -/
def execReceiverDetection (p : Fin 4) (r : Detection) (s : State) : Host.Outcome State Fault Refusal :=
  s.run fun c => if r.found && c.fld (PORT_STATUS.SPEED p) != 3 then (c.connect p 3).portWakes p r.wakes else c

/-- R248. Without its domain a port presents no Rp and sees no attach (R320). -/
def execTypecAttachDs (p : Fin 2) (s : State) : Host.Outcome State Fault Refusal :=
  s.run fun c =>
    if (c.port p).asked && !(c.port p).attached && c.domainOn 8 then ((c.modPort p fun x => { x with attached := true }).walk).syncPort p else c

/-- R248. -/
def execTypecDetachDs (p : Fin 2) (s : State) : Host.Outcome State Fault Refusal :=
  s.run fun c => ((c.modPort p fun x => { x with attached := false }).walk).syncPort p

/-! ## Port power (R249–R252) -/

/-- A PORT_POWER request: without effect while CUTOFF is 1, held within 100 ms of a trip. -/
def Chip.portPower (c : Chip) (p : Nat) (on : Bool) : Chip :=
  let x := c.port p
  if on && c.on (PORT_STATUS.CUTOFF p) then c
  else if on && x.holdoff then c.modPort p fun x => { x with heldReq := true }
  else ((c.modPort p fun x => { x with asked := on, heldReq := false }).walk).syncPort p

/-- R249. -/
def execPortPower (p : Fin 6) (on : Bool) (s : State) : Host.Outcome State Fault Refusal := s.run fun c => c.portPower p on

/-- The waiting ramp of the lowest port begins. -/
def Chip.vbusRampStart (c : Chip) : Chip :=
  match (List.range 6).find? fun p => (c.port p).waiting with
  | some p => (c.modPort p fun x => { x with waiting := false }).askRamp (.ds p)
  | none => c

/-- R249. -/
def execVbusRampStart (s : State) : Host.Outcome State Fault Refusal :=
  s.run fun c => if c.hubRuns then c.vbusRampStart else c

/-- A host's reset of a port: transactions in flight for it are discarded with its Transaction Translator's buffers, and it is
enabled. Port 7 is the service function, which sees a bus reset (R257). -/
def Chip.portReset (c : Chip) (p : Nat) : Chip :=
  let c := c.dropTxns p
  (if p < 6 then c.modPort p fun x => { x with disabled := false } else if p = 6 then c.resetFunction else c).emit (.usbReset p)

/-- R258. -/
def execPortReset (p : Fin 8) (s : State) : Host.Outcome State Fault Refusal := s.run fun c => c.portReset p

/-- The span BABBLE_LIM counts over, 10 s (R252). -/
def babbleSpan : Nat := 10 ^ 10

/-- Babble disables a port; as many disables within 10 s as BABBLE_LIM cut it off. -/
def Chip.babble (c : Chip) (p : Nat) : Chip :=
  let x := c.port p
  if !c.on (PORT_STATUS.CONNECTED p) || x.disabled then c
  else
    let recent := (x.babbles.filter fun t => decide (c.timeNs < t + babbleSpan)) ++ [c.timeNs]
    let lim := c.fld HUB_CTRL.BABBLE_LIM
    let c := c.modPort p fun x => { x with disabled := true, babbles := recent }
    let c := (c.count (PORT_STATUS.BABBLE_CNT p)).raise 161 (p + 1)
    if lim = 0 || recent.length < lim then c
    else
      let c := (c.setFld (PORT_STATUS.CUTOFF p) 1).modPort p fun x => { x with asked := false, babbles := [] }
      ((c.raise 161 (0x100 + p + 1)).walk).syncPort p

/-- R250. -/
def execBabble (p : Fin 6) (s : State) : Host.Outcome State Fault Refusal := s.run fun c => c.babble p

/-- A trip's effect: the switch opens, over-current is reported, PORT_POWER clears. -/
def Chip.tripPort (c : Chip) (p : Nat) : Chip :=
  let c := (c.openPort p).emit (.portChange p .overCurrent)
  let c := (c.setFld (PORT_STATUS.OC p) 1).modPort p fun x => { x with asked := false, holdoff := true }
  ((c.count (PORT_STATUS.OC_CNT p)).raise 160 (p + 1)).walk

/-- A port's own sensor trips, with VBUS on or ramping. -/
def Chip.portTrip (c : Chip) (p : Nat) : Chip :=
  if !c.on (PORT_STATUS.VBUS_ON p) && c.boot.rampNow != some (.ds p) then c else c.tripPort p

/-- R251. -/
def execPortOvercurrent (p : Fin 6) (wakes : Bool) (s : State) : Host.Outcome State Fault Refusal :=
  s.run fun c => (c.portTrip p).portWakes p wakes

/-- 100 ms after the opening a held request is served, and a port that a restart of the hub powers takes its turn (R249, R251). -/
def execOvercurrentHoldoffEnd (p : Fin 6) (s : State) : Host.Outcome State Fault Refusal :=
  s.run fun c =>
    let held := (c.port p).heldReq
    let c := c.modPort p fun x => { x with holdoff := false }
    if held then c.portPower p true else c.syncPort p

/-- The V5DS rail sensor trips: every port of the ganged group (R252). -/
def execV5dsRailTrip (s : State) : Host.Outcome State Fault Refusal :=
  s.run fun c => ((List.range 6).filter fun p => c.on (PORT_STATUS.GANGED p)).foldl (fun c p => c.tripPort p) c

/-- A write of PORT_CTRL. -/
def Chip.writePortCtrl (c : Chip) (p : Nat) (v : Word) : Chip := ((c.writeMasked (PORT_CTRL p) v).walk).syncPort p

/-- A write of HUB_CTRL: BABBLE_LIM, and CNT_CLR (R262). -/
def Chip.writeHubCtrl (c : Chip) (v : Word) : Chip :=
  let c := c.writeMasked HUB_CTRL v
  if bit v 12 then
    (List.range 6).foldl (fun c p => (c.setFld (PORT_STATUS.BABBLE_CNT p) 0).setFld (PORT_STATUS.OC_CNT p) 0)
      (c.setFld HUB_STATUS.TUN_REJ 0)
  else c

/-- R262. -/
def execHubCntClr (v : Word) (s : State) : Host.Outcome State Fault Refusal := s.run fun c => c.writeHubCtrl v

end Sys2Proof.Machine
end

