-- ==== Sys2Proof/Machine/DpTx.lean ====
section
/-! DEFINITION. Enabling heads, and the DisplayPort outputs: HPD, training, AUX, slots and DP_PWR (R216, R231–R237). -/

namespace Sys2Proof.Machine

/-! ## Enabling a head (R216) -/

/-- EN is set: the enable is refused with its cause, or the live planes and slots are taken and the head starts as soon as the allocator
grants it. -/
def Chip.enableHead (c : Chip) (h : Nat) : Chip :=
  match c.enableRefusal h with
  | 0 => ((((c.stopHead h).takePlane h).takeMarg h).applySlots h).walk
  | r + 1 => (c.setFld (HEAD_CTRL.EN h) 0).setFld (HEAD_STATUS.CREF h) (r + 1)

/-- A write of HEAD_CTRL: while EN is 1 only EN is taken. -/
def Chip.writeHeadCtrl (c : Chip) (h : Nat) (v : Word) : Chip :=
  if !c.headList.contains h then c
  else if c.on (HEAD_CTRL.EN h) then
    if bit v 31 then c else ((c.setFld (HEAD_CTRL.EN h) 0).haltHead h).walk
  else
    let c := c.writeMasked (HEAD_CTRL h) v
    if bit v 31 then c.enableHead h else c

/-- R216. -/
def execHeadEnable (h : Fin 4) (v : Word) (s : State) : Host.Outcome State Fault Refusal := s.run fun c => c.writeHeadCtrl h v
/-- R216. -/
def execHeadDisable (h : Fin 4) (v : Word) (s : State) : Host.Outcome State Fault Refusal := s.run fun c => c.writeHeadCtrl h v

/-! ## Training (R232) -/

/-- The output runs: step 9, its domain, no safe state. -/
def Chip.dpRuns (c : Chip) (o : Nat) : Bool :=
  c.hasOut o && decide (9 ≤ c.boot.step) && c.domainOn 9 && !c.safe && c.pageOn (0x24 + o)

/-- AUX_BUSY: a transaction of the host's, or the output's own training. -/
def Chip.syncAux (c : Chip) (o : Nat) : Chip :=
  c.setFld (DPTX_STATUS.AUX_BUSY o) (if (c.dp o).training || (c.dp o).aux.isSome then 1 else 0)

/-- The link is no longer trained: no stream is sent. -/
def Chip.untrain (c : Chip) (o : Nat) : Chip :=
  let c := ((c.setFld (DPTX_STATUS.TRAINED o) 0).setFld (DPTX_STATUS.RATE o) 0).setFld (DPTX_STATUS.LANES o) 0
  c.restreams o

/-- Training begins on a plugged output. -/
def Chip.dpTrain (c : Chip) (o : Nat) : Chip :=
  if !c.dpRuns o || !c.on (DPTX_STATUS.HPD o) then c
  else ((c.modDp o fun x => { x with training := true }).untrain o).syncAux o

/-- An AUX transaction goes to the sink. -/
def Chip.sendAux (c : Chip) (o : Nat) (v : Word) : Chip :=
  let data := (List.range 4).flatMap fun i => toBytes 4 (c.reg (AUXBUF o i)).toNat
  let n := (DPTX_AUX.LEN o).get v + 1
  c.emit (.aux o v (if v.getLsbD 28 then [] else data.take n))

/-- An AUX transaction ends with a result. -/
def Chip.endAux (c : Chip) (o res : Nat) : Chip :=
  if (c.dp o).aux.isNone then c
  else
    let c := (c.modDp o fun x => { x with aux := none, defers := 0, retries := 0 }).setFld (DPTX_STATUS.AUX_RES o) res
    (c.setFld (DPTX_AUX.GO o) 0).syncAux o

/-- Results of AUX_RES. -/
def auxAck : Nat := 1
def auxNack : Nat := 2
def auxDefer : Nat := 3
def auxTimeout : Nat := 4
def auxBadCmd : Nat := 5

/-- Training is over: RETRAIN reads 0, and a transaction that waited is sent. -/
def Chip.endDpTraining (c : Chip) (o : Nat) : Chip :=
  let c := ((c.modDp o fun x => { x with training := false }).setFld (DPTX_CTRL.RETRAIN o) 0).syncAux o
  match (c.dp o).aux with
  | some v => c.sendAux o v
  | none => c

/-- HPD high for 2 ms. -/
def Chip.hpdPlug (c : Chip) (o : Nat) : Chip :=
  if !c.hasOut o || c.on (DPTX_STATUS.HPD o) then c
  else
    let c := ((c.setFld (DPTX_STATUS.HPD o) 1).raise 139 o).latchWake 8
    if c.on (DPTX_CTRL.EN o) then c.dpTrain o else c

/-- R232. -/
def execHpdPlug (o : Fin 4) (s : State) : Host.Outcome State Fault Refusal := s.run fun c => c.hpdPlug o

/-- HPD low for 2 ms: a training or transaction in progress ends. -/
def Chip.hpdUnplug (c : Chip) (o : Nat) : Chip :=
  if !c.hasOut o || !c.on (DPTX_STATUS.HPD o) then c
  else
    let c := ((c.setFld (DPTX_STATUS.HPD o) 0).raise 139 o).latchWake 8
    let c := (c.modDp o fun x => { x with training := false }).setFld (DPTX_CTRL.RETRAIN o) 0
    ((c.untrain o).endAux o auxTimeout).syncAux o

/-- R232. -/
def execHpdUnplug (o : Fin 4) (s : State) : Host.Outcome State Fault Refusal := s.run fun c => c.hpdUnplug o

/-- A low pulse of 0.25–2 ms while plugged; `linkLost` is what the sink's link status says. -/
def Chip.irqHpd (c : Chip) (o : Nat) (linkLost : Bool) : Chip :=
  if !c.hasOut o || !c.on (DPTX_STATUS.HPD o) then c
  else
    let c := ((c.count (DPTX_STATUS.IRQ_CNT o)).raise 139 o).latchWake 8
    if linkLost && c.on (DPTX_STATUS.TRAINED o) then c.dpTrain o else c

/-- R232. -/
def execIrqHpd (o : Fin 4) (linkLost : Bool) (s : State) : Host.Outcome State Fault Refusal := s.run fun c => c.irqHpd o linkLost

/-- The highest rate and lane codes the registers allow. -/
def Chip.dpLimit (c : Chip) (o : Nat) : Nat × Nat := (min 6 (c.fld (DPTX_CTRL.MAX_RATE o)), min 2 (c.fld (DPTX_CTRL.MAX_LANES o)))

/-- Training ends at a rate and a width both ends support, or has failed at every rate. A result above the limits is none that
training can have. VISL was raised within the training (R330). -/
def Chip.dpTrained (c : Chip) (o : Nat) (result : Option (Nat × Nat)) : Chip :=
  if !(c.dp o).training then c
  else match result with
    | none => (c.endDpTraining o).raise 140 o
    | some (rate, lanes) =>
      if (c.dpLimit o).1 < rate || (c.dpLimit o).2 < lanes then c
      else
        let c := ((c.setFld (DPTX_STATUS.TRAINED o) 1).setFld (DPTX_STATUS.RATE o) rate).setFld (DPTX_STATUS.LANES o) lanes
        ((c.raiseVisl (vislOfOutput rate)).restreams o).endDpTraining o

/-- R232. -/
def execDpTrainingComplete (o : Fin 4) (result : Option (Fin 7 × Fin 3)) (s : State) : Host.Outcome State Fault Refusal :=
  s.run fun c => c.dpTrained o (result.map fun r => (r.1.val, r.2.val))

/-! ## AUX (R233) -/

/-- A GO: refused for a command the table does not list, ignored while an earlier one has not ended; during training it waits. In
safe state, and on an output that does not run, it ends with TIMEOUT. -/
def Chip.auxGo (c : Chip) (o : Nat) (v : Word) : Chip :=
  let x := c.dp o
  let cmd := (DPTX_AUX.CMD o).get v
  if x.aux.isSome then c
  else if cmd = 2 || cmd = 3 then c.setFld (DPTX_STATUS.AUX_RES o) auxBadCmd
  else
    let c := ((c.modDp o fun x => { x with aux := some v, defers := 0, retries := 0 }).setFld (DPTX_AUX.GO o) 1).syncAux o
    if !c.dpRuns o then c.endAux o auxTimeout
    else if x.training then c
    else c.sendAux o v

/-- A write of DPTX_AUX. -/
def Chip.writeDptxAux (c : Chip) (o : Nat) (v : Word) : Chip :=
  if !c.hasOut o then c
  else
    let c := c.writeMasked (DPTX_AUX o) v
    if bit v 31 then c.auxGo o v else c

/-- R233. -/
def execNativeWrite (o : Fin 4) (v : Word) (s : State) : Host.Outcome State Fault Refusal := s.run fun c => c.writeDptxAux o v
/-- R233. -/
def execNativeRead (o : Fin 4) (v : Word) (s : State) : Host.Outcome State Fault Refusal := s.run fun c => c.writeDptxAux o v
/-- R233. -/
def execI2cWrite (o : Fin 4) (v : Word) (s : State) : Host.Outcome State Fault Refusal := s.run fun c => c.writeDptxAux o v
/-- R233. -/
def execI2cRead (o : Fin 4) (v : Word) (s : State) : Host.Outcome State Fault Refusal := s.run fun c => c.writeDptxAux o v
/-- R233. -/
def execI2cWriteMot (o : Fin 4) (v : Word) (s : State) : Host.Outcome State Fault Refusal := s.run fun c => c.writeDptxAux o v
/-- R233. -/
def execI2cReadMot (o : Fin 4) (v : Word) (s : State) : Host.Outcome State Fault Refusal := s.run fun c => c.writeDptxAux o v

/-- Bytes put into the data buffer of an output, from its first byte on. -/
def Chip.putAuxBuf (c : Chip) (o : Nat) (bs : List Byte) : Chip :=
  let old := (List.range 4).flatMap fun i => toBytes 4 (c.reg (AUXBUF o i)).toNat
  let new := bs.take 16 ++ old.drop (bs.take 16).length
  (List.range 4).foldl (fun c i => c.setReg (AUXBUF o i) (BitVec.ofNat 32 (ofBytes ((new.drop (4 * i)).take 4)))) c

/-- The sink's reply to the transaction in progress: a DEFER is retried up to 7 times. -/
def Chip.auxReply (c : Chip) (o : Nat) (r : AuxReply) : Chip :=
  let x := c.dp o
  match x.aux with
  | none => c
  | some v =>
    if x.training then c
    else match r with
      | .ack data =>
        let c := if v.getLsbD 28 then c.putAuxBuf o (data.take ((DPTX_AUX.LEN o).get v + 1)) else c
        c.endAux o auxAck
      | .nack => c.endAux o auxNack
      | .defer =>
        if 7 ≤ x.defers then c.endAux o auxDefer
        else (c.modDp o fun x => { x with defers := x.defers + 1, retries := 0 }).sendAux o v

/-- R233. -/
def execAuxReply (o : Fin 4) (r : AuxReply) (s : State) : Host.Outcome State Fault Refusal := s.run fun c => c.auxReply o r

/-- 400 µs without a reply: three retries, then TIMEOUT. -/
def Chip.auxSilence (c : Chip) (o : Nat) : Chip :=
  let x := c.dp o
  match x.aux with
  | none => c
  | some v =>
    if x.training then c
    else if 3 ≤ x.retries then c.endAux o auxTimeout
    else (c.modDp o fun x => { x with retries := x.retries + 1 }).sendAux o v

/-- R233. -/
def execAuxTimeout (o : Fin 4) (s : State) : Host.Outcome State Fault Refusal := s.run fun c => c.auxSilence o

/-! ## Slots (R234) -/

/-- A write of DPTX_SLOTS: ignored when its counts sum to more than 63. -/
def Chip.writeDptxSlots (c : Chip) (o : Nat) (v : Word) : Chip :=
  let sum := (DPTX_SLOTS.S0 o).get v + (DPTX_SLOTS.S1 o).get v + (DPTX_SLOTS.S2 o).get v + (DPTX_SLOTS.S3 o).get v
  if 63 < sum then c else c.writeMasked (DPTX_SLOTS o) v

/-- R234. -/
def execDptxSlotsWrite (o : Fin 4) (v : Word) (s : State) : Host.Outcome State Fault Refusal := s.run fun c => c.writeDptxSlots o v

/-! ## DP_PWR and DPTX_CTRL (R237) -/

/-- The time for which re-enabling is refused after an over-current opening, 100 ms. -/
def dpHoldoff : Nat := 10 ^ 8

/-- An over-current opening is less than 100 ms ago. -/
def Chip.dpHeldOff (c : Chip) (o : Nat) : Bool := (c.dp o).openedNs.any fun t => decide (c.timeNs < t + dpHoldoff)

/-- The switch opens on over-current, also while it ramps on. -/
def Chip.dpOvercurrent (c : Chip) (o : Nat) : Chip :=
  if !c.on (DPTX_STATUS.PWR_ON o) && c.boot.rampNow != some (.dp o) then c
  else
    let c := ((c.dropRamp (.dp o)).dpPower o false).modDp o fun x => { x with openedNs := some c.timeNs, tripped := true }
    (c.setFld (DPTX_STATUS.PWR_OC o) 1).raise 141 o

/-- R237. -/
def execDpPwrOvercurrent (o : Fin 4) (s : State) : Host.Outcome State Fault Refusal := s.run fun c => c.dpOvercurrent o

/-- Every enabled head on an output is held by the allocator: its DP_PWR stays open (R309). -/
def Chip.outHeld (c : Chip) (o : Nat) : Bool :=
  let hs := c.headList.filter fun h => c.on (HEAD_CTRL.EN h) && c.fld (HEAD_CTRL.OUT h) == o
  !hs.isEmpty && !hs.any fun h => c.granted (itHead h)

/-- PWR_EN goes to 1: refused within 100 ms of an over-current opening, otherwise the switch is ramped on. -/
def Chip.dpPowerOn (c : Chip) (o : Nat) : Chip :=
  if c.dpHeldOff o then c.setFld (DPTX_CTRL.PWR_EN o) 0
  else if c.outHeld o || !c.dpRuns o || c.on (DPTX_STATUS.PWR_ON o) then c
  else c.askRamp (.dp o)

/-- A write of DPTX_CTRL: PWR_EN switches DP_PWR, RETRAIN retrains. -/
def Chip.writeDptxCtrl (c : Chip) (o : Nat) (v : Word) : Chip :=
  if !c.hasOut o then c
  else
    let was := c.on (DPTX_CTRL.PWR_EN o)
    let c := c.writeMasked (DPTX_CTRL o) v
    let c := if bit v 29 then if was then c else c.dpPowerOn o
      else ((c.modDp o fun x => { x with tripped := false }).dropRamp (.dp o)).dpPower o false
    if bit v 22 && c.dpRuns o && c.on (DPTX_STATUS.HPD o) then (c.setFld (DPTX_CTRL.RETRAIN o) 1).dpTrain o else c

/-- R237. -/
def execPwrEn (o : Fin 4) (v : Word) (s : State) : Host.Outcome State Fault Refusal := s.run fun c => c.writeDptxCtrl o v
/-- R232. -/
def execDptxRetrain (o : Fin 4) (v : Word) (s : State) : Host.Outcome State Fault Refusal := s.run fun c => c.writeDptxCtrl o v

/-- The outputs stop: links idle, AUX transactions end with TIMEOUT, switches open (R239, R319). -/
def Chip.dpStop (c : Chip) (o : Nat) : Chip :=
  let c := (c.modDp o fun x => { x with training := false }).setFld (DPTX_CTRL.RETRAIN o) 0
  (((c.untrain o).endAux o auxTimeout).syncAux o).dropRamp (.dp o) |>.dpPower o false

/-- An output starts again: a sink already plugged is trained. -/
def Chip.dpStart (c : Chip) (o : Nat) : Chip :=
  if c.on (DPTX_CTRL.EN o) && !c.on (DPTX_STATUS.TRAINED o) && !(c.dp o).training then c.dpTrain o else c

end Sys2Proof.Machine
end

