-- ==== Sys2Proof/Machine/Storage.lean ====
section
/-! DEFINITION. The PCIe tunnel and its sockets, and the Ethernet block (R263–R281). -/

namespace Sys2Proof.Machine

/-! ## TLPs from the host (R265–R267) -/

/-- The flow R265 gives a TLP to a destination: 0 the switch, 1 and 2 the ports. -/
def Chip.tlpFlow (c : Chip) (dest : Nat) (t : List Byte) : Nat :=
  if dest = 0 || tlpIsConfig t then c.cfgFlow else c.pepFlow (dest - 1)

def tunnelledTlp (m : List MsgCell) : List Byte := ((m.flatMap fun x => fitBytes 120 x.payload).drop 8).take (hdrNat m 2 2)

/-- A TLP message breaks R267: OP, TLEN, the cell count, the cells' TYPE, or the flow. -/
def Chip.tlpBad (c : Chip) (f : Nat) (m : List MsgCell) (dest : Nat) : Bool :=
  let t := tunnelledTlp m
  let n := hdrNat m 2 2
  hdrNat m 0 1 != 0x40 || n != tlpBytes t || m.length != (8 + n + 119) / 120 ||
    !(m.all fun x => some (x.typ % 8) == tlpClass t) || f != c.tlpFlow dest t

/-- A discarded TLP: Malformed TLP at the upstream port, counted, EV166. -/
def Chip.rejectTlp (c : Chip) : Chip :=
  ((({ c with pcie := { c.pcie with malformed := true } }).count PCIE_STATUS.TLP_REJ).raise 166 0).reportError 0

/-- Bytes of the first and last enabled byte of a read: offset of the first, and the count to the last. -/
def readSpan (t : List Byte) : Nat × Nat :=
  let be := (t.getD 7 0).toNat
  let first := ((List.range 4).find? fun i => be.testBit i).getD 0
  let ends (b : Nat) : Nat := (((List.range 4).filter fun i => b.testBit i).getLast?).getD 0 + 1
  let last := if tlpLen t = 1 then ends (be % 16) else 4 * (tlpLen t - 1) + ends (be / 16)
  (first, max 1 (last - first))

/-- A read wholly inside held data is completed from it, in completions that end at 128-byte boundaries. -/
def completePieces (completer : Nat) (req : Nat × Nat) : Nat → Nat → Nat → Nat → List Byte → List (List Byte)
  | 0, _, _, _, _ => []
  | fuel + 1, a, first, count, data =>
    if data.isEmpty then []
    else
      let n := 128 - a % 128
      completionTlp completer req 0 count ((a + first) % 128) (data.take n) ::
        completePieces completer req fuel (a + n) 0 (count - (n - first)) (data.drop n)

/-- Read-ahead data, not two epoch boundaries old, that holds a read. -/
def Chip.aheadFor (c : Chip) (f : Nat) (t : List Byte) : Option PepAhead :=
  c.pcie.ahead.find? fun b => b.flow == f && decide (c.epoch < b.epoch + 2) && decide (b.addr ≤ tlpAddr t) &&
    decide (tlpAddr t + 4 * tlpLen t ≤ b.addr + b.data.length)

/-- A MemRd is completed from held data. -/
def Chip.readFromAhead (c : Chip) (f : Nat) (b : PepAhead) (t : List Byte) : Chip :=
  let a := tlpAddr t
  let n := 4 * tlpLen t
  let words := (List.range (dwords a n)).map (a / 8 + ·)
  let c := { c with
      pcie := { c.pcie with ahead := c.pcie.ahead.map fun x => if x == b then { x with used := (x.used ++ words).eraseDups } else x } }
  let (first, count) := readSpan t
  let pieces := completePieces b.completer (tlpRequest t) 64 a first count ((b.data.drop (a - b.addr)).take n)
  pieces.foldl (fun c x => c.sendTlp f (b.port + 1) x) c

/-- Bytes read ahead of a MemRd: 256, to the end of the 4 KiB block of its last byte. -/
def aheadLength (t : List Byte) : Nat :=
  let e := tlpAddr t + 4 * tlpLen t
  min 256 (((e - 1) / 4096 + 1) * 4096 - e)

/-- The Prefetchable Memory Base/Limit window of a downstream port: its first address, and the first beyond it. -/
def Chip.prefetchWindow (c : Chip) (p : Nat) : Nat × Nat :=
  let r := (c.cfgHeld (p + 1) 9).toNat
  let base := (c.cfgHeld (p + 1) 10).toNat * 2 ^ 32 + r / 16 % 4096 * 2 ^ 20
  let limit := (c.cfgHeld (p + 1) 11).toNat * 2 ^ 32 + r / 2 ^ 20 * 2 ^ 20
  (base, limit + 2 ^ 20)

/-- Bytes of a read-ahead that lie in the port's prefetchable window. -/
def Chip.aheadInside (c : Chip) (p : Nat) (t : List Byte) : Nat :=
  let w := c.prefetchWindow p
  let e := tlpAddr t + 4 * tlpLen t
  if e < w.1 then 0 else min (aheadLength t) (w.2 - e)

/-- The adapter's own MemRd of `n` bytes at an address, whose requester ID and tag the spec does not give. -/
def aheadTlp (requester a n : Nat) : List Byte :=
  let len := n / 4 % 1024
  [0x20#8, 0] ++ (toBytes 2 len).reverse ++ (toBytes 2 requester).reverse ++ [0, 0xFF#8] ++ (toBytes 8 a).reverse

/-- What is read ahead of a MemRd, inside the window: the endpoint is asked for it, and it replaces what the port held. -/
def Chip.readAhead (c : Chip) (p f : Nat) (t : List Byte) (ahead : Option (Nat × List Byte)) : Chip :=
  match ahead with
  | none => c
  | some (completer, bs) =>
    let bs := bs.take (c.aheadInside p t)
    if !c.on PCIE_CTRL.PF_EN || bs.isEmpty then c
    else
      let b : PepAhead :=
        { port := p, addr := tlpAddr t + 4 * tlpLen t, data := bs, epoch := c.epoch, used := [], flow := f, completer := completer }
      let (n, c) := c.fresh
      let c := c.emit (.tlp (p + 1) (aheadTlp (Config.freeWord n).toNat b.addr bs.length))
      { c with pcie := { c.pcie with ahead := (c.pcie.ahead.filter fun x => x.port != p) ++ [b] } }

/-- A downstream port whose link is up. -/
def Chip.portLinked (c : Chip) (p : Nat) : Bool := c.pepList.contains p && c.on (PEP_STATUS.LINK_UP p)

/-- A write to a port discards the read-ahead it overlaps. -/
def Chip.dropOverlap (c : Chip) (p : Nat) (t : List Byte) : Chip :=
  let a := tlpAddr t
  if tlpIsWrite t then
    c.discardAhead fun b => b.port == p && decide (a < b.addr + b.data.length) && decide (b.addr < a + 4 * tlpLen t)
  else c

/-- A TLP goes to the endpoint of a port; a non-posted request is noted until it is completed. -/
def Chip.deliverTlp (c : Chip) (p : Nat) (peer : Bool) (t : List Byte) : Chip :=
  let r : PepReq := { req := tlpRequest t, cfg := tlpIsConfig t, peer := peer }
  let c := if tlpClass t = some clsNp then c.modPep p fun x => { x with reqs := x.reqs ++ [r] } else c
  c.emit (.tlp (p + 1) t)

/-- A completion from the host reaches an endpoint: the space reserved for it is free when it is the last (R121). A completion with
data is the last when its Byte Count is no more than it carries. -/
def Chip.noteCompletion (c : Chip) (p : Nat) (t : List Byte) : Chip :=
  let count := tlpNat t 6 2 % 4096
  let left := if count = 0 then 4096 else count
  let last := !tlpHasData t || decide (left ≤ 4 * tlpLen t - (t.getD 11 0).toNat % 4)
  if tlpIsCompletion t && last then
    { c with pcie := { c.pcie with upReqs := c.pcie.upReqs.filter fun r => !(r.port == p && r.req == tlpCompleted t) } }
  else c

/-- A TLP for a downstream port: a request is answered with Unsupported Request while the port's link is down. Every MemRd is followed by a
read-ahead (R269). -/
def Chip.toPort (c : Chip) (p f : Nat) (t : List Byte) (ahead : Option (Nat × List Byte)) : Chip :=
  if !c.portLinked p then if tlpClass t = some clsNp then c.unsupportedRequest (tlpRequest t) else c
  else
    let c := (c.dropOverlap p t).noteCompletion p t
    match if tlpIsRead t then c.aheadFor f t else none with
    | some b => (c.readFromAhead f b t).readAhead p f t ahead
    | none =>
      let c := c.deliverTlp p false t
      if tlpIsRead t then c.readAhead p f t ahead else c

/-- A TLP message from the host; `dest` is where the switch routes it, the switch itself or a port, and `ahead` what the adapter can
read beyond a MemRd whose BAR the endpoint has marked prefetchable, with the completer's ID (log entry 11). -/
def Chip.tlp (c : Chip) (f : Nat) (m : List MsgCell) (dest : Nat) (ahead : Option (Nat × List Byte)) : Chip :=
  if !c.tlpsOn || c.safe then c
  else if c.tlpBad f m dest then c.rejectTlp
  else if dest = 0 then c.toSwitch (tunnelledTlp m)
  else c.toPort (dest - 1) f (tunnelledTlp m) ahead

/-- R266. -/
def execTlp (f : Fin 256) (cells : List MsgCell) (dest : Fin 3) (ahead : Option (BitVec 16 × List Byte)) (s : State) :
    Host.Outcome State Fault Refusal :=
  s.run fun c => c.tlp f cells dest (ahead.map fun x => (x.1.toNat, x.2))

/-! ## TLPs from the endpoints (R265, R275) -/

/-- A completion that an endpoint sends takes its request off the port's. -/
def Chip.completeReq (c : Chip) (p : Nat) (t : List Byte) : Chip :=
  if tlpIsCompletion t then c.modPep p fun x => { x with reqs := x.reqs.filter fun y => y.req != tlpCompleted t } else c

/-- A TLP that the switch routes from the endpoint of port `p` to the other port, as its configuration and ACS let it (R263). -/
def Chip.peerTlp (c : Chip) (p : Nat) (t : List Byte) : Chip :=
  let q := 1 - p
  let c := c.completeReq p t
  if c.portLinked q then (c.dropOverlap q t).deliverTlp q true t
  else if tlpClass t = some clsNp then
    let (n, c) := c.fresh
    c.emit (.tlp (p + 1) (completionTlp (Config.freeWord n).toNat (tlpRequest t) 1 4 0 []))
  else c

/-- Cells reserved for the completion of an endpoint's request: one for each 64 bytes it touches, the finest cut the standard allows
(DESIGN CHOICE, log entry 90). -/
def tlpCplCells (t : List Byte) : Nat := if tlpIsRead t then (tlpAddr t % 64 + 4 * tlpLen t + 63) / 64 else 1

/-- A non-posted request finds space for its whole completion in the CPL pool of its link (R121). -/
def Chip.upSpace (c : Chip) (f : Nat) (t : List Byte) : Bool :=
  let k := c.sideLink f
  tlpClass t != some clsNp || decide (tlpCplCells t + c.reserved k false + (c.link k).held clsCpl ≤ poolSizes.cpl)

/-- A TLP of the endpoint on port `p` for the host. With FLOW 0, no tunnel, a full upstream buffer or no space for its completion it
stays under PCIe flow control. -/
def Chip.hostTlp (c : Chip) (p : Nat) (t : List Byte) : Chip :=
  let f := c.pepFlow p
  if !c.tlpsOn || f = 0 || 131072 < c.tlpHeld + 8 + t.length || !c.upSpace f t then c
  else
    let cfg := tlpIsCompletion t && (c.pep p).reqs.any fun x => x.req == tlpCompleted t && x.cfg
    let c := c.completeReq p t
    let r : PepUp := { port := p, lnk := c.sideLink f, req := tlpRequest t, cells := tlpCplCells t }
    let c := if tlpClass t = some clsNp then { c with pcie := { c.pcie with upReqs := c.pcie.upReqs ++ [r] } } else c
    c.sendTlp (if cfg then c.cfgFlow else f) (p + 1) t

/-- ACS of port `p` sends a TLP to the host instead of the other port: P2P Request Redirect, or P2P Completion Redirect, is enabled
(R263; places PRESUMED, log entry 90). -/
def Chip.acsRedirects (c : Chip) (p : Nat) (t : List Byte) : Bool :=
  bit (c.cfgHeld (p + 1) (acsCapAt (p + 1) + 1)) (if tlpIsCompletion t then 19 else 18)

/-- A TLP of the endpoint on port `p`; `peer` says that it is addressed to the other port. -/
def Chip.endpointTlp (c : Chip) (p : Nat) (t : List Byte) (peer : Bool) : Chip :=
  if !c.on (PEP_STATUS.LINK_UP p) || t.length != tlpBytes t || (tlpClass t).isNone then c
  else if peer && !c.acsRedirects p t then c.peerTlp p t
  else c.hostTlp p t

/-- R268. -/
def execEndpointTlp (p : Fin 2) (t : SentTlp) (s : State) : Host.Outcome State Fault Refusal :=
  s.run fun c => c.endpointTlp p t.bytes t.peer

/-- R269. -/
def execPciePrefetchExpiry (s : State) : Host.Outcome State Fault Refusal :=
  s.run fun c => c.discardAhead fun b => decide (b.epoch + 2 ≤ c.epoch)

/-! ## The PCIE and PEP registers (R265, R281) -/

/-- A flow that may carry TLPs: ACTIVE, BULK, ENDPOINT PCI. -/
def Chip.pciFlow (c : Chip) (f : Nat) : Bool := c.flowState f == 1 && c.flowClass f == 4 && c.fld (FLOW_CFG.ENDPOINT f) == 7

/-- A write of PCIE_TUN: one that sets EN is ignored when a named flow is unusable or the flow of a port is named twice. Under LOCK
the CFG_FLOW kept counts. -/
def Chip.writePcieTun (c : Chip) (v : Word) : Chip :=
  let d := c.writeMasked PCIE_TUN v
  let named := d.cfgFlow :: (c.pepList.map c.pepFlow).filter (· != 0)
  if bit v 31 then if named.all c.pciFlow && named.eraseDups.length == named.length then d.setFld PCIE_STATUS.UP 1 else c
  else
    let d := (d.setFld PCIE_STATUS.UP 0).discardAhead fun _ => true
    { d with pcie := { d.pcie with upReqs := [] } }

/-- R265. -/
def execPcieTunEnable (v : Word) (s : State) : Host.Outcome State Fault Refusal := s.run fun c => c.writePcieTun v

/-- A write of PCIE_CTRL: CNT_CLR clears the counts. -/
def Chip.writePcieCtrl (c : Chip) (v : Word) : Chip :=
  let c := c.writeMasked PCIE_CTRL v
  if bit v 2 then
    c.pepList.foldl (fun c p => (c.setFld (PEP_STATUS.DOWN_CNT p) 0).setFld (PEP_STATUS.OC_CNT p) 0)
      ((c.setFld PCIE_STATUS.TLP_REJ 0).clearRegs [PCIE_PF_DISCARD])
  else c

/-- R281. -/
def execPcieCntClr (v : Word) (s : State) : Host.Outcome State Fault Refusal := s.run fun c => c.writePcieCtrl v

/-! ## Socket power (R270–R273) -/

/-- Power Controller Control is written on, at start-up or by the host. -/
def Chip.socketOn (c : Chip) (p : Nat) : Chip :=
  if !c.pepList.contains p || (c.pep p).asked then c
  else (((c.modPep p fun x => { x with asked := true }).walk)).syncPep p

/-- R270. -/
def execPowerControllerOn (p : Fin 2) (s : State) : Host.Outcome State Fault Refusal :=
  s.run fun c => if c.tlpsOn then c.socketOn p else c

/-- Power Controller Control is written off: the port may be powered again. -/
def Chip.socketOff (c : Chip) (p : Nat) : Chip :=
  if !c.pepList.contains p then c
  else ((c.modPep p fun x => { x with asked := false, cycled := false }).pepOff p).walk

/-- R271. -/
def execPowerControllerOff (p : Fin 2) (s : State) : Host.Outcome State Fault Refusal :=
  s.run fun c => if c.tlpsOn then c.socketOff p else c

/-- The waits of R270 are over: REFCLK runs, and M2_3V3 ramps. -/
def Chip.socketRamp (c : Chip) (p : Nat) : Chip :=
  if !(c.pep p).waiting || c.boot.rampNow.isSome then c
  else (c.modPep p fun x => { x with waiting := false }).rampSocket p

/-- R270. -/
def execSocketRampStart (p : Fin 2) (s : State) : Host.Outcome State Fault Refusal := s.run fun c => c.socketRamp p

/-- M2_3V3 has reached 3.135 V: the switch is closed. -/
def Chip.socketUp (c : Chip) (p : Nat) : Chip :=
  ((c.modPep p fun x => { x with ready := true }).setFld (PEP_STATUS.PWR_ON p) 1).emit (.m2 p true)

/-- 100 ms after 3.135 V, or after Enter Mode for a socket that kept its power: PERST_N is released. -/
def Chip.perstOff (c : Chip) (p : Nat) : Chip :=
  if !c.on (PEP_STATUS.PWR_ON p) || !(c.pep p).ready || !c.on (PEP_STATUS.PERST p) || c.safe then c
  else ((c.setFld (PEP_STATUS.PERST p) 0).modPep p fun x => { x with ready := false }).emit (.perst p false)

/-- R270. -/
def execPerstRelease (p : Fin 2) (s : State) : Host.Outcome State Fault Refusal := s.run fun c => c.perstOff p

/-- OFF_DELAY after native mode ended: every socket is powered off. One that has tripped still waits for off and then on (R273). -/
def Chip.offDelayEnds (c : Chip) : Chip :=
  if !c.pcie.offDelay || c.native .ul then c
  else
    let c := { c with pcie := { c.pcie with offDelay := false } }
    c.pepList.foldl (fun c p => ((c.modPep p fun x => { x with asked := false }).pepOff p).walk) c

/-- R271. -/
def execOffDelayExpiry (s : State) : Host.Outcome State Fault Refusal := s.run fun c => c.offDelayEnds

/-- CLKREQ_N of a powered port changes: under L1.2 REFCLK stops while it is high. -/
def Chip.clkreq (c : Chip) (p : Nat) (level l12 : Bool) : Chip :=
  let run := !(level && l12)
  if !c.on (PEP_STATUS.PWR_ON p) || (c.pep p).refclk == run then c
  else (c.modPep p fun x => { x with refclk := run }).emit (.refclk p run)

/-- R272. -/
def execClkreq (p : Fin 2) (level l12 : Bool) (s : State) : Host.Outcome State Fault Refusal := s.run fun c => c.clkreq p level l12

/-- PEWAKE_N low for 1 µs on a powered port. -/
def Chip.pewake (c : Chip) (p : Nat) : Chip :=
  if !c.on (PEP_STATUS.PWR_ON p) then c
  else
    let (n, c) := c.fresh
    (c.latchWake 6).sendTlp c.cfgFlow 0 (pmeTlp (Config.freeWord n).toNat)

/-- R272. -/
def execPewake (p : Fin 2) (s : State) : Host.Outcome State Fault Refusal := s.run fun c => c.pewake p

/-- The switch of a socket trips. -/
def Chip.socketTrip (c : Chip) (p : Nat) : Chip :=
  if !(c.on (PEP_STATUS.PWR_ON p) || c.boot.rampNow == some (.m2 p)) then c
  else (c.count (PEP_STATUS.OC_CNT p)).pepFault p

/-- R273. -/
def execSocketOvercurrent (p : Fin 2) (s : State) : Host.Outcome State Fault Refusal := s.run fun c => c.socketTrip p

/-! ## Downstream links (R270, R274) -/

/-- A request held in the switch for port `p` is completed with Unsupported Request, to the host or to the other endpoint. -/
def Chip.refuseHeld (c : Chip) (p : Nat) (r : PepReq) : Chip :=
  if r.peer then
    let (n, c) := c.fresh
    c.emit (.tlp (2 - p) (completionTlp (Config.freeWord n).toNat r.req 1 4 0 []))
  else c.unsupportedRequest r.req

/-- A powered port's link goes down unprompted: requests held are completed with Unsupported Request. -/
def Chip.surpriseDown (c : Chip) (p : Nat) : Chip :=
  if !c.on (PEP_STATUS.PWR_ON p) || !c.on (PEP_STATUS.LINK_UP p) then c
  else
    let reqs := (c.pep p).reqs
    let c := (c.setFld (PEP_STATUS.LINK_UP p) 0).modPep p fun x => { x with reqs := [], dllsc := true, down := true }
    let c := { c with pcie := { c.pcie with upReqs := c.pcie.upReqs.filter fun r => r.port != p } }
    let c := ((c.count (PEP_STATUS.DOWN_CNT p)).setFld (PEP_STATUS.SURPRISE p) 1).raise 168 (p + 1)
    reqs.foldl (fun c r => c.refuseHeld p r) ((c.reportError (p + 1)).reportSlot (p + 1))

/-- R274. -/
def execSurpriseDown (p : Fin 2) (s : State) : Host.Outcome State Fault Refusal := s.run fun c => c.surpriseDown p

/-- The highest speed code of a port. -/
def Chip.maxSpeed (c : Chip) (p : Nat) : Nat := min 4 (c.fld (PEP_CTRL.MAX_SPEED p))

/-- The link of a port out of reset trains, at no more than MAX_SPEED, on 1, 2 or 4 lanes. -/
def Chip.downstreamUp (c : Chip) (p speed width : Nat) : Chip :=
  if !c.on (PEP_STATUS.PWR_ON p) || c.on (PEP_STATUS.PERST p) || c.on (PEP_STATUS.LINK_UP p) || c.maxSpeed p < speed then c
  else
    let c := ((c.setFld (PEP_STATUS.LINK_UP p) 1).setFld (PEP_STATUS.SPEED p) speed).setFld (PEP_STATUS.WIDTH p) (2 ^ width)
    ((c.raiseVisl (vislOfPort speed)).modPep p fun x => { x with dllsc := true }).reportSlot (p + 1)

/-- R274. -/
def execDownstreamLinkUp (p : Fin 2) (speed : Fin 5) (width : Fin 3) (s : State) : Host.Outcome State Fault Refusal :=
  s.run fun c => c.downstreamUp p speed width

/-! ## Ethernet frames (R276–R278) -/

/-- A frame as it goes on the jack: padded to 60 bytes, with its FCS. -/
def onJack (bs : List Byte) : List Byte :=
  let bs := bs ++ List.replicate (60 - bs.length) 0
  bs ++ toBytes 4 (crc32 bs)

/-- The MAC and its link run. -/
def Chip.ethOn (c : Chip) : Bool := c.on ENET_STATUS.LINK && c.ethRuns

/-- The MAC sends a frame, or holds it while the partner's PAUSE lasts. -/
def Chip.sendFrame (c : Chip) (bs : List Byte) : Chip :=
  if !c.ethOn then c
  else if c.timeNs < c.eth.pausedNs then { c with lpi := false, eth := { c.eth with txQ := c.eth.txQ ++ [bs] } }
  else ({ c with lpi := false }).emit (.ethTx (onJack bs))

/-- Frames held by a PAUSE that has ended are sent. -/
def Chip.drainTx (c : Chip) : Chip :=
  if c.timeNs < c.eth.pausedNs then c
  else c.eth.txQ.foldl (fun c f => c.sendFrame f) { c with eth := { c.eth with txQ := [] } }

/-- A FRAME message breaks the header or length rules. -/
def Chip.frameBad (c : Chip) (f : Nat) (m : List MsgCell) : Bool :=
  let n := hdrNat m 2 2
  hdrNat m 0 1 != 0x30 || hdrNat m 1 1 != 0 || hdrNat m 4 4 != 0 || n < 14 || c.maxLen - 4 < n ||
    m.length != (8 + n + 119) / 120 || !(m.all fun x => x.typ % 8 == clsP) || !(c.flowClass f == 2 || c.flowClass f == 4)

/-- A FRAME message from the host. -/
def Chip.frame (c : Chip) (f : Nat) (m : List MsgCell) : Chip :=
  if !c.native .ul || !c.on ENET_TUN.EN || c.flowState f != 1 || c.fld (FLOW_CFG.ENDPOINT f) != 8 || c.safe then c
  else if c.frameBad f m then c.count ENET_CNT.TX_REJ
  else c.sendFrame (((m.flatMap fun x => fitBytes 120 x.payload).drop 8).take (hdrNat m 2 2))

/-- R277. -/
def execFrame (f : Fin 256) (cells : List MsgCell) (s : State) : Host.Outcome State Fault Refusal := s.run fun c => c.frame f cells

/-- The priority of a frame: its VLAN PCP, or DEF_PCP. -/
def Chip.framePcp (c : Chip) (bs : List Byte) : Nat :=
  if bs.getD 12 0 = 0x81#8 && bs.getD 13 0 = 0x00#8 then (bs.getD 14 0).toNat / 32 else c.fld ENET_CTRL.DEF_PCP

/-- The flow of a priority. -/
def Chip.pcpFlow (c : Chip) (p : Nat) : Nat :=
  (c.reg (if p < 4 then ENET_MAP0 else ENET_MAP1)).toNat / 256 ^ (p % 4) % 256

/-- Bytes in the 256 KiB receive buffer: the frames queued on ETH flows, and those that wait for the NCM function. -/
def Chip.rxHeld (c : Chip) : Nat :=
  ((((List.range 8).map c.pcpFlow).eraseDups.filter (· != 0)).map fun f => ((c.outQ (c.sideLink f) f).map fun q => 8 * q.len).sum).sum +
    (c.eth.rxQ.map List.length).sum

/-- The address of MAC control frames, 01-80-C2-00-00-01 (IEEE 802.3; PRESUMED, log entry 91). -/
def pauseAddr : List Byte := [0x01, 0x80, 0xC2, 0x00, 0x00, 0x01]

/-- A PAUSE frame of this device, with the longest pause (DESIGN CHOICE, log entry 91). -/
def Chip.pauseFrame (c : Chip) : List Byte := pauseAddr ++ c.macBytes ++ [0x88, 0x08, 0x00, 0x01, 0xFF, 0xFF]

/-- With PAUSE enabled, the MAC sends PAUSE while the buffer is more than 75 % full: on each frame, and at each epoch (log entry
91). -/
def Chip.sendPause (c : Chip) : Chip :=
  if c.on ENET_CTRL.PAUSE && c.ethOn && 196608 < c.rxHeld then c.emit (.ethTx (onJack c.pauseFrame)) else c

/-- A frame is PAUSE for this device. -/
def Chip.isPause (c : Chip) (bs : List Byte) : Bool :=
  (bs.take 6 == pauseAddr || bs.take 6 == c.macBytes) && (bs.drop 12).take 4 == [0x88, 0x08, 0x00, 0x01]

/-- The partner's PAUSE: transmission stops for its number of quanta of 512 bit times, 0 ends the pause. -/
def Chip.takePause (c : Chip) (bs : List Byte) : Chip :=
  let quanta := (bs.getD 16 0).toNat * 256 + (bs.getD 17 0).toNat
  ({ c with eth := { c.eth with pausedNs := c.timeNs + quanta * 512000 / ethMbps (c.fld ENET_STATUS.SPEED) } }).drainTx

/-- A received frame in native mode: sent on the flow of its priority, or dropped. A flow whose ENDPOINT is not ETH carries none
(DEDUCED, log entry 91). -/
def Chip.frameUp (c : Chip) (bs : List Byte) : Chip :=
  let p := c.framePcp bs
  let f := c.pcpFlow p
  if f = 0 || c.flowState f != 1 || c.fld (FLOW_CFG.ENDPOINT f) != 8 || !c.on ENET_TUN.EN || 262144 < c.rxHeld + 8 + bs.length then
    c.count ENET_CNT.RX_DROP
  else (c.queueMsg (c.sideLink f) f clsP ([0x30#8] ++ toBytes 1 p ++ toBytes 2 bs.length ++ toBytes 4 0 ++ bs)).sendPause

/-- The host's packet filter passes a frame: to this device, broadcast, another group address, or any. -/
def Chip.filterPasses (c : Chip) (bs : List Byte) : Bool :=
  let dest := bs.take 6
  let broad := dest == List.replicate 6 0xFF#8
  let f := c.eth.filter
  f.testBit 3 || (f.testBit 0 && dest == c.macBytes) || (f.testBit 1 && broad) ||
    (f.testBit 2 && !broad && (bs.getD 0 0).getLsbD 0)

/-- The NCM function can hand frames to its host: a router is active (R259), and the hub is not suspended. -/
def Chip.ncmReady (c : Chip) : Bool := decide (2 ≤ c.fld HUB_STATUS.UP) && !c.noRouter && !c.on HUB_STATUS.SUSPENDED

/-- A received frame outside native mode: to the NCM function as its filter says, or into the buffer while it cannot take frames. -/
def Chip.frameNcm (c : Chip) (bs : List Byte) : Chip :=
  if !c.filterPasses bs then c
  else if c.ncmReady then c.emit (.ncm bs)
  else if 262144 < c.rxHeld + bs.length then c.count ENET_CNT.RX_DROP
  else ({ c with eth := { c.eth with rxQ := c.eth.rxQ ++ [bs] } }).sendPause

/-- Frames that waited for the NCM function go to its host. -/
def Chip.drainNcm (c : Chip) : Chip :=
  if c.ncmReady then c.eth.rxQ.foldl (fun c f => c.emit (.ncm f)) { c with eth := { c.eth with rxQ := [] } } else c

/-- What the Ethernet block does as an epoch begins (log entry 91). -/
def Chip.ethStrobe (c : Chip) : Chip := c.drainTx.drainNcm.sendPause

/-- A frame arrives on the jack, with its FCS: one that is too long or too short is not accepted, one with a bad FCS is counted. -/
def Chip.frameReceived (c : Chip) (bs : List Byte) : Chip :=
  let n := bs.length
  let body := bs.take (n - 4)
  if !c.ethOn || n < 64 || c.maxLen < n then c
  else if ofBytes (bs.drop (n - 4)) != crc32 body then c.count ENET_RXERR.FCS_ERR
  else if c.on ENET_CTRL.PAUSE && c.isPause body then c.takePause body
  else if c.native .ul then c.frameUp body
  else if 2 ≤ c.fld HUB_STATUS.UP then c.frameNcm body
  else c

/-- R277. -/
def execFrameReceived (bytes : List Byte) (s : State) : Host.Outcome State Fault Refusal := s.run fun c => c.frameReceived bytes

/-- The least bytes of an NTB-16 with these datagrams: a 12-byte header, the datagram table, the datagrams (PRESUMED, log entry 91). -/
def ntbBytes (frames : List (List Byte)) : Nat := 12 + 8 + 4 * (frames.length + 1) + (frames.map List.length).sum

/-- An NTB within the function's limits. -/
def ntbFits (frames : List (List Byte)) : Bool := decide (frames.length ≤ 32) && decide (ntbBytes frames ≤ 32768)

/-- An NTB of the CDC-NCM function carries frames of at most wMaxSegmentSize to the MAC; NAK while no router is active (R259). `filter`
is the packet filter that the host has set before it, if it has. -/
def Chip.ntb (c : Chip) (frames : List (List Byte)) (filter : Option Nat) : Chip :=
  if c.fld HUB_STATUS.UP < 2 || c.on HUB_STATUS.SUSPENDED then c
  else if c.noRouter then c.notReady .network
  else
    let c := { c with eth := { c.eth with filter := filter.getD c.eth.filter } }
    if !ntbFits frames then c
    else (frames.filter fun f => 14 ≤ f.length && f.length ≤ c.maxLen - 4).foldl (fun c f => c.sendFrame f) c

/-- R278. -/
def execNtb (n : NtbIn) (s : State) : Host.Outcome State Fault Refusal :=
  s.run fun c => c.ntb n.frames (n.filter.map BitVec.toNat)

/-! ## The PHY (R276) -/

/-- Auto-negotiation with a partner that advertises `adv` ends at the fastest speed both enable. -/
def Chip.ethLinkUp (c : Chip) (adv : Nat) (eee : Bool) : Chip :=
  let both := c.fld EPHY_CTRL.ADV &&& adv &&& c.ethSpeeds
  let best := ((List.range 5).filter fun i => both.testBit i).getLast?
  let c := ((c.setFld EPHY_STATUS.LP_ADV adv).setFld EPHY_STATUS.LP_EEE (if eee then 1 else 0))
  match best with
  | none => c
  | some i =>
    let c := ((c.setFld EPHY_STATUS.AN_DONE 1).setFld ENET_STATUS.LINK 1).setFld ENET_STATUS.SPEED (i + 1)
    ((c.setFld ENET_STATUS.EEE (if eee && c.on EPHY_CTRL.EEE then 1 else 0)).raise 169 (i + 1)).ncmNote

/-- The link comes up with a partner, or goes down. -/
def Chip.ethLinkChange (c : Chip) (lp : Option (Nat × Bool)) : Chip :=
  match lp with
  | none => c.ethDown
  | some (adv, eee) => if !c.ethRuns || c.on ENET_STATUS.LINK then c else c.ethLinkUp adv eee

/-- R276. -/
def execEthLinkChange (lp : Option (BitVec 5 × Bool)) (s : State) : Host.Outcome State Fault Refusal :=
  s.run fun c => c.ethLinkChange (lp.map fun x => (x.1.toNat, x.2))

/-- What an LED ball does: off, lit, or lit and blinking on activity. -/
inductive Led where
  | off | lit | blinks
  deriving DecidableEq, Repr

/-- The ball ETH_LED`i`_N by EPHY_CTRL (R281); off while the domain or the PHY is (R320). -/
def Chip.ethLed (c : Chip) (i : Nat) : Led :=
  let code := c.fld (if i = 0 then EPHY_CTRL.LED0 else if i = 1 then EPHY_CTRL.LED1 else EPHY_CTRL.LED2)
  let speed := c.fld ENET_STATUS.SPEED
  if !c.ethOn then .off
  else match code with
    | 1 => .blinks
    | 2 => if 4 ≤ speed then .lit else .off
    | 3 => if speed ≤ 3 then .lit else .off
    | _ => .off

/-- Balls of domains that are off (R320): MDI is high-impedance, ML of an output is in electrical idle, AUX is high-impedance. -/
def Chip.mdiHighZ (c : Chip) : Bool := c.resting 11
def Chip.mlIdle (c : Chip) (o : Nat) : Bool := c.resting 9 || !c.on (DPTX_STATUS.TRAINED o)
def Chip.auxHighZ (c : Chip) : Bool := c.resting 9

/-- A write of EPHY_CTRL: speeds the part lacks read 0; RENEG restarts auto-negotiation. -/
def Chip.writeEphyCtrl (c : Chip) (v : Word) : Chip :=
  let c := c.writeMasked EPHY_CTRL v
  let c := c.setFld EPHY_CTRL.ADV (c.fld EPHY_CTRL.ADV &&& c.ethSpeeds)
  if bit v 21 && c.ethRuns then c.ethDown.emit .autoneg else c

/-- R276. -/
def execReneg (v : Word) (s : State) : Host.Outcome State Fault Refusal := s.run fun c => c.writeEphyCtrl v

/-- The transmit queue has been empty for EEE_IDLE µs. -/
def Chip.lowPowerIdle (c : Chip) : Chip :=
  if c.ethOn && c.on ENET_STATUS.EEE && c.eth.txQ.isEmpty && !c.lpi then ({ c with lpi := true }).emit .lowPowerIdle else c

/-- R276. -/
def execLowPowerIdle (s : State) : Host.Outcome State Fault Refusal := s.run fun c => c.lowPowerIdle

/-- A write of ENET_CTRL: CNT_CLR clears the counts. -/
def Chip.writeEnetCtrl (c : Chip) (v : Word) : Chip :=
  let c := c.writeMasked ENET_CTRL v
  if bit v 25 then c.clearRegs [ENET_CNT, ENET_RXERR] else c

/-- R281. -/
def execEnetCntClr (v : Word) (s : State) : Host.Outcome State Fault Refusal := s.run fun c => c.writeEnetCtrl v

/-- Native mode is entered again: sockets that kept their power leave reset 100 ms later (R271). -/
def Chip.reopenSockets (c : Chip) : Chip :=
  let c := { c with pcie := { c.pcie with offDelay := false } }
  (c.pepList.filter fun p => c.on (PEP_STATUS.PWR_ON p)).foldl (fun c p => c.modPep p fun x => { x with ready := true }) c

end Sys2Proof.Machine
end

