-- ==== Sys2Proof/Machine/Modes.lean ====
section
/-! DEFINITION. The modes of UL and CS: what enters and what ends them (R24, R25, R264, R295, R297, R335). -/

namespace Sys2Proof.Machine

/-! ## Entering (R295, R297, R335) -/

/-- A link whose Caraxline mode is entered: DOWN, with every rate open again and no capacity until it comes up (R125, R144). -/
def Chip.enterLink (c : Chip) (k : Lnk) : Chip :=
  (c.linkDown k 0).modLink k fun x => { x with fails := [0, 0, 0, 0], failsStep2 := 0, excluded := 0, upSinceMode := false }

/-- The Caraxline mode is entered on CS. -/
def Chip.enterCs (c : Chip) : Chip :=
  if c.native .cs then c else ((c.setFld (PD_STATUS.MODE 1) 2).enterLink .cs).raise 208 1

/-- UL carries the Caraxline mode: training begins, and the hub and the tunnel follow. -/
def Chip.startNative (c : Chip) : Chip :=
  (((c.setFld (PD_STATUS.MODE 0) 2).enterLink .ul).syncUpstream).reopenSockets

/-- The Caraxline mode is entered on UL: the hub and the tunnel follow, discovery of the peer begins, and a paired master's CS link
follows. -/
def Chip.enterNative (c : Chip) : Chip :=
  let c := c.noteFailed false
  let c := c.thenDiscover Chip.startNative
  let c := c.raise 208 0
  if c.pairedMaster then c.enterCs else c

/-! ## Ending (R24, R264, R271, R295, R297, R343) -/

/-- The Caraxline mode on CS ends, with its link in a state: DOWN, or FAILED. -/
def Chip.endCs (c : Chip) (code : Nat) : Chip :=
  if !c.native .cs then c
  else
    let c := (if c.pairedFollower then c else c.setFld (PD_STATUS.MODE 1) 0).linkDown .cs code
    c.raise 208 1

/-- A mode is entered on UL. -/
def Chip.inMode (c : Chip) : Bool := 2 ≤ c.fld (PD_STATUS.MODE 0) || c.pd.dpMode

/-- UL leaves native mode: the tunnel closes, and CS follows. -/
def Chip.leaveNative (c : Chip) (code : Nat) : Chip :=
  let c := (c.linkDown .ul code).endTunnel
  if c.pairedFollower || !c.native .cs then c
  else
    let c := if c.paired then c else c.sendPd 1 .exitMode
    c.endCs 0

/-- The mode on UL ends and the uplink runs as in USB-only mode. Streams of the fallback end with it, and none of them counts as lost
(DESIGN CHOICE, log entry 99). -/
def Chip.endMode (c : Chip) (code : Nat) : Chip :=
  if !c.inMode then c
  else
    let was := c.fld (PD_STATUS.MODE 0)
    let c := { c with pd := { c.pd with dpMode := false } }
    let c := c.setFld (PD_STATUS.MODE 0) 1
    let c := if was = 2 then c.leaveNative code else (List.range 4).foldl (fun c k => c.endStream k) c
    c.syncUpstream.raise 208 0

/-- Training has failed: the lanes stay idle, and the mode ends; on UL an Attention says so. -/
def Chip.trainingFailed (c : Chip) (k : Lnk) : Chip :=
  let c := c.raiseOpen (evOf k 51 57)
  match k with
  | .ul =>
    let c := c.endMode 7
    (c.noteFailed true).sendPd 0 (.attention 0xC4A2 1)
  | .cs => c.endCs 7

end Sys2Proof.Machine
end

