-- ==== Sys2Proof/Machine/Training.lean ====
section
/-! DEFINITION. Bringing a link up and keeping it: version and rate choice, training steps, adaptation, lanes leaving and joining,
recovery, HOLD, sleep requests and the wake pattern (R74, R80, R88–R91, R123–R133). -/

namespace Sys2Proof.Machine

/-- R88. -/
def execEq (k : Lnk) (lanes : List EqLane) (s : State) : Host.Outcome State Fault Refusal :=
  s.run fun c => c.takeEq k lanes

/-! ## Training (R123–R126) -/

/-- A link trains in native mode with its port's SerDes powered, its page enabled and no safe state (R25, R54, R405). -/
def Chip.mayTrain (c : Chip) (k : Lnk) : Bool :=
  c.native k && (match k with | .ul => decide (7 ≤ c.boot.step) | .cs => decide (12 ≤ c.boot.step)) && !c.safe &&
    c.pageOn (0x18 + k.idx)

/-- A training attempt starts at step 1: on mode entry, on escalation, or after 100 µs of idle following a failed attempt. -/
def execTrainingAttemptStart (k : Lnk) (s : State) : Host.Outcome State Fault Refusal :=
  s.run fun c =>
    if !c.mayTrain k then c
    else if c.linkState k == 0 then c.startTraining k
    else if c.linkState k == 1 && (c.link k).step == 0 then c.startAttempt k
    else c

/-- Which link lanes take part: 0 and 3 against an AP2080, else all four (R135). -/
def Chip.usedLanes (c : Chip) (k : Lnk) : List Nat := if c.partnerAp k then [0, 3] else [0, 1, 2, 3]

/-- A lane that takes no part is in electrical idle. -/
def Chip.restLane (c : Chip) (l : Nat) : Chip :=
  ((c.setFld (LANE_STATUS.ALIGN l) 3).setFld (LANE_STATUS.EQ_STATE l) 0).modLane l fun x => { x with idle := true }

/-- Link lanes 1 and 2 of a link to an AP2080 rest (R135). -/
def Chip.restUnused (c : Chip) (k : Lnk) : Chip :=
  ((pairs k).filter fun l => !((c.usedLanes k).map (c.pairOf k)).contains l).foldl Chip.restLane c

/-- A lane at the start of step 5, at the chosen rate: a transmitter starts from the rate's default preset (R89), a receiver that
locked in step 2 begins to adapt, any other rests. -/
def Chip.relockLane (c : Chip) (l rate : Nat) (locked : Bool) (r? : Option Nat) : Chip :=
  let c := (c.setFld (LANE_STATUS.RATE l) rate).setReg (TAP_SET l 0) (presetWord (defaultPreset rate))
  if c.fld (LANE_STATUS.DIR l) = 1 then
    ((c.setFld (LANE_STATUS.EQ_STATE l) 1).setFld (LANE_STATUS.ALIGN l) 0).modLane l fun x => { x with idle := false }
  else if locked then c.startAdapt l rate r?
  else c

/-- Step 4 ends: VISL has been raised to what the rate needs (R330), every lane has been idle, and those in use begin adaptation at the chosen rate from their starting taps (R74, R89,
R90, R124). -/
def Chip.relock (c : Chip) (k : Lnk) : Chip :=
  let x := c.link k
  let ver := x.chosenTx / 16
  let rate := x.chosenTx % 16 - 1
  let r? := c.usableRecord k ver rate
  let anyUse := (pairs k).any fun l => c.on (LANE_EQ_CTRL.USE_RECORD l)
  let c := if anyUse then c.countUse k r? else c
  let used := (c.usedLanes k).map (c.pairOf k)
  let locked := used.filter c.laneLocked
  let c := (pairs k).foldl Chip.restLane c
  let c := used.foldl (fun c l => c.relockLane l rate (locked.contains l) r?) c
  let c := ((c.setFld (LINK_STATUS.VERSION k.idx) ver).setFld (LINK_STATUS.RATE k.idx) rate).raiseVisl (vislOfLane rate)
  (c.modLink k fun s => { s with step := 5, adaptDone := [], reverseDone := [] }).sendRequests k locked

/-- R124, step 4. -/
def execPllRelock (k : Lnk) (s : State) : Host.Outcome State Fault Refusal :=
  s.run fun c => if c.linkState k == 1 && (c.link k).step == 4 then (pairs k).foldl Chip.swapSlices (c.relock k) else c

/-- CHOSEN has been sent and the partner's is known: matching values lead to step 4, differing ones fail the attempt. A failed
attempt leaves every lane idle (R123, R125). -/
def Chip.failAttempt (c : Chip) (k : Lnk) : Chip :=
  let x := c.link k
  let rate := x.chosenTx % 16 - 1
  let c := c.count (LINK_CNT.TRAIN_FAIL k.idx)
  let c := c.modLink k fun s =>
    { s with
      failsStep2 := if x.step = 2 then s.failsStep2 + 1 else s.failsStep2
      fails := if x.chosenTx = 0 then s.fails else s.fails.modify rate (· + 1) }
  let c := c.modLink k fun s =>
    { s with excluded := if x.chosenTx != 0 && 3 ≤ s.fails.getD rate 0 then s.excluded ||| 2 ^ rate else s.excluded }
  let c := (pairs k).foldl (fun c l => ((c.endLaneActivity l 0x06).laneReset l 3).setFld (LANE_STATUS.EQ_STATE l) 0) c
  (c.syncMaps k).modLink k fun s => { s with step := 0, lmcs := [] }

/-- An attempt fails; after three failures at step 2, or with no rate left, training has failed (R125). -/
def Chip.attemptFails (c : Chip) (k : Lnk) (noRate : Bool) : Chip :=
  let c := c.failAttempt k
  if noRate || 3 ≤ (c.link k).failsStep2 || c.ownRates k = 0 then c.trainingFailed k else c

/-- The choice is made and sent, or no rate is left and the attempt fails. -/
def Chip.choose (c : Chip) (k : Lnk) (a : AdvMsg) : Chip :=
  match c.chooseRate k a with
  | none => c.attemptFails k true
  | some (v, r, capped) =>
    let b := chosenByte v r
    let c := (c.setFld (LINK_STATUS.CAPPED k.idx) (if capped then 1 else 0)).modLink k fun s =>
      { s with chosenTx := b, step := if a.chosen.toNat = b then 4 else 3 }
    let c := (c.queueLmc k 0x10 (c.advBody k 0)).restUnused k
    if a.chosen.toNat != 0 && a.chosen.toNat != b then c.attemptFails k false else c

/-- An ADV in training (R123, R126): step 2 needs a lane locked in each direction, at this end and by the partner's LANES; it leads to
the choice, and then to matching CHOSEN. -/
def Chip.advTraining (c : Chip) (k : Lnk) (a : AdvMsg) : Chip :=
  let x := c.link k
  let c := c.modLink k fun s =>
    { s with partner := some a, chosenRx := a.chosen.toNat, loopLanes := if a.flags.getLsbD 1 then a.loopLanes.toNat % 16 else 0 }
  match x.step with
  | 2 => if (pairs k).any c.laneLocked && a.lanes != 0 then c.choose k a else c
  | 3 =>
    if a.chosen.toNat = 0 then c
    else if a.chosen.toNat = x.chosenTx then c.modLink k fun s => { s with step := 4 }
    else c.attemptFails k false
  | _ => c

/-- A step of training exceeds its bound (R125). -/
def execTrainingStepTimeout (k : Lnk) (s : State) : Host.Outcome State Fault Refusal :=
  s.run fun c => if c.linkState k == 1 && (c.link k).step != 0 then c.attemptFails k false else c

/-- An ADV in recovery (R129, step 4): RECOVERY set and CHOSEN equal to the rate in force; entries the partner has received are
freed, the rest wait to be replayed from its NEXT_SEQ, streaming cells in flight are lost (R130); CREDIT_INIT follows and takes
the credits not yet returned with it. -/
def Chip.advRecovery (c : Chip) (k : Lnk) (a : AdvMsg) : Chip :=
  let x := c.link k
  if x.recStep != 3 || !a.flags.getLsbD 0 || a.chosen.toNat != x.chosenTx then c
  else
    let base := a.nextSeq.toNat
    let kept := (x.replay.flatMap fun e => e.cells) ++ x.again
    let want := (kept.filter fun y => c.sequenced y.1 && seqDiff y.1.seq base < 32768).mergeSort fun p q =>
      seqDiff p.1.seq base ≤ seqDiff q.1.seq base
    let want := want.map fun y => (y.1, 0)
    let c := c.modLink k fun s => { s with recStep := 5, replay := [], again := want, partner := some a }
    let c := (c.openCredits k).queueLmc k 0x10 (c.advBody k 1)
    c.queueLmc k 0x03 (c.creditBody k)

/-- A received ADV. One that follows a wake starts training: the partner has left S3 (R326). -/
def Chip.takeAdv (c : Chip) (k : Lnk) (m : AdvMsg) : Chip :=
  if c.linkState k == 1 then c.advTraining k m
  else if c.linkState k == 3 then c.advRecovery k m
  else if (c.linkAsleep k || c.linkUp k) && (c.link k).woken && c.mayTrain k then (c.startTraining k).advTraining k m
  else c

/-- R123. -/
def execAdv (k : Lnk) (m : AdvMsg) (s : State) : Host.Outcome State Fault Refusal := s.run fun c => c.takeAdv k m

/-- Step 7: CREDIT_INIT is exchanged and SEQ starts at 0 in both directions (R124). -/
def Chip.enterCreditStep (c : Chip) (k : Lnk) : Chip :=
  let c := (c.modLink k fun s => { s with step := 7, seqTx := 0, nextSeq := 0, early := [] }).openCredits k
  c.queueLmc k 0x03 (c.creditBody k)

/-- The lanes that adapt at this end in step 5: those that receive. -/
def Chip.adaptLanes (c : Chip) (k : Lnk) : List Nat :=
  ((c.usedLanes k).map (c.pairOf k)).filter fun l => c.fld (LANE_STATUS.DIR l) == 0 && c.fld (LANE_STATUS.EQ_STATE l) != 0 &&
    c.fld (LANE_STATUS.RATE l) == c.fld (LINK_STATUS.RATE k.idx)

/-- The lock and the unit of a loopback are asked for one lane, unless a lane before it was refused. -/
def Chip.loopLock (acc : List Nat × Bool × Chip) (l : Nat) : List Nat × Bool × Chip :=
  let (taken, ok, c) := acc
  if !ok then acc
  else match c.maintRequest 0x05 [.lane l] with
    | (.granted, c) => (taken ++ [l], true, c)
    | (_, c) => (taken, false, c)

/-- A requested far-end loopback (R126): LOOP takes 0b011 on the named lanes, each a mode under the lock rules (R94, R98). A refusal
gives back the locks taken, answers with LOOP clear, and training goes on. -/
def Chip.loopRequest (c : Chip) (k : Lnk) : Chip :=
  let ls := ((List.range 4).filter fun ll => (c.link k).loopLanes.testBit ll).map (c.pairOf k)
  let (taken, ok, c) := ls.foldl Chip.loopLock ([], true, c)
  if ok then
    let c := ls.foldl (fun c l => (c.setFld (LANE_CTRL.LOOP l) 3).emit (.loopMode l 3 true)) (c.setFld (LINK_STATUS.STATE k.idx) 6)
    c.queueLmc k 0x10 (c.advBody k 2)
  else
    let c := c.maintDrop fun h => h.code == 0x05 && h.locks.any fun r => taken.any fun l => r == .lane l
    (c.modLink k fun s => { s with loopLanes := 0 }).queueLmc k 0x10 (c.advBody k 0)

/-- A lane takes the other direction in training, by the physical steps of R101 without regard to epochs (R91). -/
def Chip.turnInTraining (c : Chip) (l : Nat) : Chip :=
  let c := if c.fld (LANE_STATUS.DIR l) = 1 then (c.sendQuiet l).transmitterRelease l
    else ((c.receiverRelease l).emit (.rejoin l)).modLane l fun x => { x with idle := false, txState := 3 }
  c.modLane l fun x => { x with released := false }

/-- Step 6: link lanes 1 and 2 turn, and the one that now receives adapts at this end (R91). -/
def Chip.startReverse (c : Chip) (k : Lnk) : Chip :=
  let rate := c.fld (LINK_STATUS.RATE k.idx)
  let ls := ([1, 2].map (c.pairOf k)).filter fun l => c.fld (LANE_STATUS.EQ_STATE l) != 8
  let c := (ls.foldl Chip.turnInTraining c).modLink k fun s => { s with step := 6, reverseDone := [] }
  let rx := ls.filter fun l => c.fld (LANE_STATUS.DIR l) = 0
  let r? := c.usableRecord k (c.fld (LINK_STATUS.VERSION k.idx)) rate
  let c := (rx.foldl (fun c l => c.startAdapt l rate r?) c).sendRequests k rx
  if rx.isEmpty then c.enterCreditStep k else c

/-- The lane that this end still sends on in reverse turns back when the partner has finished with it; its settings for both
directions are held when its reset direction is trained (R91). -/
def Chip.endReverse (c : Chip) (k : Lnk) : Chip :=
  ([1, 2].map (c.pairOf k)).foldl (fun c l =>
    if c.fld (LANE_STATUS.DIR l) = resetDir l then c
    else
      let c := c.turnInTraining l
      if c.fld (LANE_STATUS.EQ_STATE l) = 7 then c.setFld (LANE_STATUS.TURN_TRAINED l) 1 else c) c

/-- The step after adaptation: reverse adaptation on version 2 media that permit turnaround, else CREDIT_INIT; a loopback
request is taken first (R124, R126). -/
def Chip.afterAdapt (c : Chip) (k : Lnk) : Chip :=
  let c := if (c.link k).loopLanes = 0 then c else c.loopRequest k
  if c.linkState k == 6 then c
  else if c.fld (LINK_STATUS.VERSION k.idx) == 2 && ((pairs k).any fun l => c.on (LANE_STATUS.TURN_MEDIA l)) then c.startReverse k
  else c.enterCreditStep k

/-- A lane that cannot hold alignment enters FAILED and raises its event (R90); a repair of it has ended. -/
def Chip.adaptFailed (c : Chip) (l : Nat) : Chip :=
  ((c.setFld (LANE_STATUS.EQ_STATE l) 8).modCopp fun x => { x with repairLanes := x.repairLanes.filter (· != l) }).raiseOpen (c.evAdapt l)

/-- A retrain of one lane ends: its lock is released and LANE_IN is sent, or the lane has failed (R92, R127). -/
def Chip.retrainEnds (c : Chip) (l : Nat) (ok : Bool) : Chip :=
  let c := (c.maintDrop fun h => (h.code == 0x02 || h.code == 0x04) && h.locks.contains (.lane l)).setFld
    (LANE_EQ_CTRL.RETRAIN l) 0
  let c := c.modLane l fun x => { x with retraining := false, out := if ok then .laneInSent else .failed }
  if ok then (c.setFld (LANE_STATUS.ALIGN l) 2).queueLmc (lnkOf l) 0x24 (toBytes 1 (c.linkLane l)) else c

/-- A lane's adaptation reaches the end of its states in a retrain. A lane that transmits keeps the coefficients the partner asked
for. -/
def Chip.retrainDone (c : Chip) (l : Nat) (ok : Bool) (taps : List Word) : Chip :=
  let c := if !ok then c.adaptFailed l
    else if c.fld (LANE_STATUS.DIR l) = 0 then c.trackTaps l taps
    else c.setFld (LANE_STATUS.EQ_STATE l) 7
  (c.modLink (lnkOf l) fun s => { s with stableNs := c.timeNs }).retrainEnds l ok

/-- A lane's adaptation ends in step 5; when every lane's has, training goes on. -/
def Chip.adaptDoneAt (c : Chip) (l : Nat) (ok : Bool) (taps : List Word) : Chip :=
  let k := lnkOf l
  let c := if ok then (c.trackTaps l taps).setFld (LANE_STATUS.ALIGN l) 2 else c.adaptFailed l
  let c := c.modLink k fun s => { s with adaptDone := s.adaptDone ++ [l] }
  if (c.adaptLanes k).all fun m => (c.link k).adaptDone.contains m then c.afterAdapt k else c

/-- A lane's reverse adaptation ends: it turns back, and TURN_TRAINED says whether both directions are held (R91, R125). -/
def Chip.reverseDoneAt (c : Chip) (l : Nat) (ok : Bool) (taps : List Word) : Chip :=
  let k := lnkOf l
  let c := if ok then c.trackTaps l taps else c.adaptFailed l
  let c := (c.turnInTraining l).setFld (LANE_STATUS.TURN_TRAINED l) ok.toNat
  (c.modLink k fun s => { s with reverseDone := s.reverseDone ++ [l] }).enterCreditStep k

/-- A lane's adaptation reaches the end of its states: in training step 5 or 6, or in a retrain (R90, R91, R124, R127). -/
def Chip.adaptationDone (c : Chip) (l : Nat) (ok : Bool) (taps : List Word) : Chip :=
  let k := lnkOf l
  let x := c.link k
  if (c.lane l).retraining then c.retrainDone l ok taps
  else if c.linkState k != 1 then c
  else if x.step = 5 && (c.adaptLanes k).contains l && !x.adaptDone.contains l then c.adaptDoneAt l ok taps
  else if x.step = 6 && resetDir l = 1 && c.fld (LANE_STATUS.DIR l) = 0 && !x.reverseDone.contains l then c.reverseDoneAt l ok taps
  else c

/-- R90. -/
def execAdaptationComplete (l : Fin 8) (aligned : Bool) (taps : List Word) (s : State) : Host.Outcome State Fault Refusal :=
  s.run fun c => c.adaptationDone l aligned taps

/-- A received CREDIT_INIT resets the credit counts to the partner's free space (R120, R129); in training it also says that the
partner's reverse adaptation is over. -/
def Chip.takeCredits (c : Chip) (k : Lnk) (cr : Credits) : Chip :=
  let x := c.link k
  if (c.linkState k == 1 && x.step == 7) || (c.linkState k == 3 && x.recStep == 5) then
    (if c.linkState k == 1 then c.endReverse k else c).modLink k fun s => { s with creditRx := true, credits := cr }
  else c

/-- R129. -/
def execCreditInit (k : Lnk) (np p cpl mgt : BitVec 16) (s : State) : Host.Outcome State Fault Refusal :=
  s.run fun c => c.takeCredits k { np := np.toNat, p := p.toNat, cpl := cpl.toNat, mgt := mgt.toNat }

/-- RETRAIN starts full training (R124); it reads 1 until training ends. -/
def Chip.hostRetrain (c : Chip) (k : Lnk) : Chip :=
  if c.mayTrain k then (c.startTraining k).setFld (LINK_CTRL.RETRAIN k.idx) 1 else c

/-- RECOVER starts recovery (R129); it reads 1 until recovery ends. -/
def Chip.hostRecover (c : Chip) (k : Lnk) : Chip :=
  let c := c.startRecovery k
  if c.linkState k == 3 then c.setFld (LINK_CTRL.RECOVER k.idx) 1 else c

/-- CNT_CLR clears the FEC table, LINK_CNT, REPLAY_CNT and STREAM_LOST (R137). -/
def Chip.clearLinkCounters (c : Chip) (k : Lnk) : Chip :=
  c.clearRegs (((List.range 64).map fun i => FEC k.idx 0 i) ++ [LINK_CNT k.idx, REPLAY_CNT k.idx, STREAM_LOST k.idx])

/-- A write of LINK_CTRL (R137). R137 does not say what RECOVER does beside RETRAIN in one word: RETRAIN acts alone (DESIGN CHOICE, log
entry 84). -/
def Chip.writeLinkCtrl (c : Chip) (k : Lnk) (v : Word) : Chip :=
  if !c.linkPresent k then c
  else
    let c := c.writeMasked (LINK_CTRL k.idx) v
    let c := c.when (bit v 10) fun c => c.clearLinkCounters k
    let c := c.when (bit v 9) fun c => c.hostRetrain k
    c.when (bit v 8 && !bit v 9) fun c => c.hostRecover k

/-- R124. -/
def execRetrain (k : Lnk) (v : Word) (s : State) : Host.Outcome State Fault Refusal := s.run fun c => c.writeLinkCtrl k v
/-- R129. -/
def execLinkRecover (k : Lnk) (v : Word) (s : State) : Host.Outcome State Fault Refusal := s.run fun c => c.writeLinkCtrl k v
/-- R137. -/
def execLinkCntClr (k : Lnk) (v : Word) (s : State) : Host.Outcome State Fault Refusal := s.run fun c => c.writeLinkCtrl k v

/-! ## Lanes leaving and joining service (R127) -/

/-- A received LANE_OUT; one for a lane already out of service is ignored. -/
def execLaneOut (k : Lnk) (lane : Fin 4) (reason : BitVec 8) (s : State) : Host.Outcome State Fault Refusal :=
  s.run fun c => if c.linkUp k then c.takeLaneOut (c.pairOf k lane) reason.toNat false else c

/-- A received LANE_IN: the partner's retrain has ended. -/
def execLaneIn (k : Lnk) (lane : Fin 4) (s : State) : Host.Outcome State Fault Refusal :=
  s.run fun c =>
    let l := c.pairOf k lane
    if (c.lane l).out == .in_ || (c.lane l).out == .failed then c else c.modLane l fun x => { x with partnerIn := true }

/-- No LANE_IN within 10 ms of this end's own: the lane has failed until the next full training. -/
def execLaneInTimeout (k : Lnk) (lane : Fin 4) (s : State) : Host.Outcome State Fault Refusal :=
  s.run fun c =>
    let l := c.pairOf k lane
    if (c.lane l).out == .laneInSent && !(c.lane l).partnerIn then
      (c.modLane l fun x => { x with out := .failed }).adaptFailed l
    else c

/-! ## Recovery (R129) -/

/-- A received RECOVER. -/
def execRecover (k : Lnk) (_reason : BitVec 8) (s : State) : Host.Outcome State Fault Refusal :=
  s.run fun c => c.startRecovery k

/-- A recovery step overruns its bound: full training starts. -/
def execRecoveryEscalate (k : Lnk) (s : State) : Host.Outcome State Fault Refusal :=
  s.run fun c =>
    if c.linkState k == 3 then (c.startTraining k).setFld (LINK_CTRL.RECOVER k.idx) 0 else c

/-! ## HOLD (R131) -/

/-- A received HOLD: no new cell but management cells is sent until it ends. -/
def execHold (k : Lnk) (_epoch : Word) (s : State) : Host.Outcome State Fault Refusal :=
  s.run fun c =>
    if 1 ≤ c.linkState k && c.linkState k ≤ 3 then
      (c.setFld (LINK_STATUS.HOLD_RX k.idx) 1).modLink k fun x => { x with holdWait := true }
    else c

/-- HOLD present for more than 4 epochs raises the HOLD-overrun event; the end keeps waiting. -/
def execHoldOverrun (k : Lnk) (s : State) : Host.Outcome State Fault Refusal :=
  s.run fun c =>
    if c.on (LINK_STATUS.HOLD_RX k.idx) && decide (4 < (c.link k).holdEpochs) then c.raiseOpen (evOf k 54 60) else c

/-! ## Link sleep and wake (R132, R133) -/

/-- The answer to a SLEEP_REQ: the first case that applies, in the order codes 1, 2, 3, 5, 4; 0 accepts. -/
def Chip.sleepAnswer (c : Chip) (k : Lnk) (level : Nat) : Nat :=
  if (pairs k).any fun l => c.fld (LANE_STATUS.DIR l) != resetDir l then 1
  else if (pairs k).any fun l => c.locked (.lane l) then 2
  else if !(c.link k).replay.isEmpty then 3
  else if c.on (LINK_STATUS.HOLD_RX k.idx) || (c.link k).holdTx then 5
  else if level = 1 || (level = 2 && c.fld (LINK_STATUS.VERSION k.idx) == 2) then 0
  else 4

/-- A received SLEEP_REQ. Accepted, the link sleeps once SLEEP_ACK has gone out; two that cross count as acceptance at the shallower
level. One refused with code 1 is no sleep request that R157 counts: it does not make 2+2 the target (DESIGN CHOICE, log entry 86). -/
def Chip.takeSleepReq (c : Chip) (k : Lnk) (level : Nat) : Chip :=
  if !c.linkUp k then c
  else match (c.link k).sleepWant with
    | some w => c.linkSleep k (min w (max 1 (min 2 level)))
    | none =>
      let a := c.sleepAnswer k level
      let c := c.queueLmc k 0x41 (toBytes 1 a)
      if a = 0 then c.modLink k fun s => { s with sleepGo := some level } else c

/-- R132. -/
def execSleepReq (k : Lnk) (level : BitVec 8) (s : State) : Host.Outcome State Fault Refusal := s.run fun c => c.takeSleepReq k level.toNat

/-- A wake of a link: it leaves sleep, at once or, where it has agreed to sleep and does not yet, as soon as it does (R132). -/
def Chip.sendWake (c : Chip) (k : Lnk) : Chip :=
  if (c.link k).sleepGo.isSome || (c.link k).sleepWant.isSome then c.modLink k fun s => { s with wakeDue := true }
  else c.sendPatternOnce k

/-- A wake of one link: the source is latched, and the pattern is sent where the SerDes is powered. -/
def Chip.wakeLink (c : Chip) (k : Lnk) (source : Nat) : Chip :=
  let c := c.latchWake source
  if c.sstate ≤ 1 then c.sendWake k else c

/-- R133, step 1. -/
def execActivityDetect (l : Fin 8) (s : State) : Host.Outcome State Fault Refusal :=
  s.run fun c => c.wakeLink (lnkOf l) (if l.val < 4 then 0 else 2)

/-- R133. -/
def execLinkWake (k : Lnk) (s : State) : Host.Outcome State Fault Refusal :=
  s.run fun c => c.wakeLink k (if k == .ul then 1 else 3)

/-- The pattern has been sent: REJOIN blocks follow, lanes lock, and the link is UP with its credit and sequence state
unchanged. -/
def execWakePatternEnd (k : Lnk) (s : State) : Host.Outcome State Fault Refusal :=
  s.run fun c =>
    if !(c.linkAsleep k && (c.link k).wakeSent) then c
    else
      let c := (pairs k).foldl (fun c l =>
        if c.inService l then
          let c := if c.fld (LANE_STATUS.DIR l) = 1 then (c.emit (.rejoin l)).setFld (LANE_STATUS.ALIGN l) 0
            else c.setFld (LANE_STATUS.ALIGN l) 2
          c.modLane l fun x => { x with idle := false, run := 0, missed := 0, mcrcRun := 0, txState := 0 }
        else c) c
      ((c.setFld (LINK_STATUS.STATE k.idx) 2).modLink k fun s => { s with
        wakeSent := false
        sleepLevel := 0
        stableNs := c.timeNs }).lightExit

end Sys2Proof.Machine
end

