-- ==== Sys2Proof/Machine/Cascade.lean ====
section
/-! DEFINITION. The cascade block: positions, the relay, presence polls and the loss of peers (R334–R344, R351). -/

namespace Sys2Proof.Machine

/-! ## Requests on flow 1 of the A-link (R339, R340) -/

/-- Address of CASC_POSN and CASC_STATUS at a partner: the local pages are laid out alike in every MH4160. -/
def partnerPosn : Nat := CASC_POSN
def partnerStatus : Nat := CASC_STATUS

/-- A 32-bit request of the cascade block, ABS 1 on flow 1 of a link. It is sent at once, or waits for a free tag. -/
def Chip.askPartner (c : Chip) (k : Lnk) (x : Asker) (write : Bool) (addr : Nat) (data : List Byte) : Chip :=
  let r : FwdReq :=
    { asker := x, win := none, write := write, lnk := k, pflow := 1, pos := (c.position.getD 0) + 1, width := 2, count := 1
      addr := addr, here := addr, data := data, tag := none }
  let t := c.freeTag
  let c := { c with fwd := { c.fwd with reqs := c.fwd.reqs ++ [r] } }
  match t with
  | some t => c.sendReq r t
  | none => c

/-! ## Positions (R334, R335) -/

/-- A write of CASC_POSN, which a paired board ignores. -/
def Chip.writeCascPosn (c : Chip) (v : Word) : Chip := if c.paired then c else c.writeMasked CASC_POSN v

/-- R335, R336. -/
def execCascPosnWrite (v : Word) (s : State) : Host.Outcome State Fault Refusal := s.run fun c => c.writeCascPosn v

/-- What the cascade block does when a link comes UP: in a chain, a host on UL gives position 0 (R334), and an MH4160 on the
A-link of position 0–2 is given the next position (R335). -/
def Chip.cascadeUp (c : Chip) (k : Lnk) : Chip :=
  if c.paired then c
  else
    let p := c.partnerPart k
    match k with
    | .ul => if p == 0x4160 || p == 0x4142 then c else { c with fwd := { c.fwd with pos0 := true } }
    | .cs => match c.position with
      | some q =>
        if q ≤ 2 && p == 0x4160 then c.askPartner .cs .assign true partnerPosn (toBytes 4 (2 ^ 31 + q + 1)) else c
      | none => c

/-! ## The relay (R340) -/

/-- A GO, while the page is enabled (R419): refused at once while the A-link is not UP or the address is not a multiple of 4, else sent. GO reads 1 until the end. -/
def Chip.relayGo (c : Chip) : Chip :=
  let a := c.fld CASC_RLY_ADDR.ADDR
  if !c.pageOn 0x1C then c
  else match c.aLink with
  | some k =>
    if !c.upNow k then c.setFld CASC_RLY_CTRL.RESULT 7
    else if a % 4 != 0 then c.setFld CASC_RLY_CTRL.RESULT 2
    else
      let wr := c.on CASC_RLY_CTRL.WR
      (c.setFld CASC_RLY_CTRL.GO 1).askPartner k .relay wr a (if wr then toBytes 4 (c.reg CASC_RLY_DATA).toNat else [])
  | none => c.setFld CASC_RLY_CTRL.RESULT 7

/-- A write of CASC_RLY_CTRL: WR, and GO unless GO reads 1. -/
def Chip.writeRlyCtrl (c : Chip) (v : Word) : Chip :=
  let busy := c.on CASC_RLY_CTRL.GO
  let c := c.writeMasked CASC_RLY_CTRL v
  if bit v 31 && !busy && pagePresent c.part 0x1C then c.relayGo else c

/-- R340. -/
def execRelayRead (v : Word) (s : State) : Host.Outcome State Fault Refusal := s.run fun c => c.writeRlyCtrl v
/-- R340. -/
def execRelayWrite (v : Word) (s : State) : Host.Outcome State Fault Refusal := s.run fun c => c.writeRlyCtrl v

/-! ## Presence (R342, R343) -/

/-- A poll still outstanding is missed; its tag is not used again yet (R343). -/
def Chip.missPoll (c : Chip) : Chip :=
  match c.fwd.reqs.find? fun r => r.asker == .poll with
  | some r =>
    let c := (c.dropReq r).count CASC_CNT.MISSED
    { c with fwd := { c.fwd with missed := c.fwd.missed + 1, stale := c.fwd.stale ++ r.tag.toList } }
  | none => c

/-- The address a poll reads at the partner (R342). -/
def Chip.pollAddr (c : Chip) (k : Lnk) : Nat :=
  let p := c.partnerPart k
  if p = 0x4160 then partnerStatus else if p = 0x4142 then COLOPHON else 0

/-- The time of a poll: one outstanding is missed, and the next is sent while the A-link is UP. -/
def Chip.presencePoll (c : Chip) : Chip :=
  if !(c.pageOn 0x1C && c.on CASC_CTRL.POLL_EN) then c
  else
    let c := c.missPoll
    match c.aLink with
    | some k => if c.upNow k then c.askPartner k .poll false (c.pollAddr k) [] else c
    | none => c

/-- R342, R343. -/
def execPresencePoll (s : State) : Host.Outcome State Fault Refusal := s.run fun c => c.presencePoll

/-- Whether the third position from here holds an AP2080: true only while a poll shows three devices beyond (log entry 79). -/
def Chip.noteThird (c : Chip) (third : Bool) : Chip :=
  { c with fwd := { c.fwd with apThird := third && c.fld CASC_STATUS.BEYOND == 3 } }

/-- A completed poll updates BEYOND and PRESENT. -/
def execPollCompletion (status : Fin 256) (x : PollAnswer) (s : State) : Host.Outcome State Fault Refusal :=
  s.run fun c => match c.fwd.reqs.find? fun r => r.asker == .poll && r.tag.isSome with
    | some r => (c.pollDone r status (toBytes 4 x.data.toNat)).noteThird x.third
    | none => c

/-- Consecutive misses before absence. -/
def Chip.missLim (c : Chip) : Nat := max 1 (c.fld CASC_CTRL.MISS_LIM)

/-- The devices beyond are declared absent: for misses with a recovery of the A-link, or because the A-link is DOWN or FAILED or its
mode has ended. -/
def Chip.peerAbsent (c : Chip) : Chip :=
  match c.aLink with
  | some k =>
    if c.missLim ≤ c.fwd.missed then (c.declareAbsent true).startRecovery k
    else if c.linkState k == 0 || c.linkState k == 7 then c.declareAbsent false
    else c
  | none => c

/-- R343. -/
def execPeerAbsent (s : State) : Host.Outcome State Fault Refusal := s.run fun c => c.peerAbsent

/-! ## CASC_CTRL (R351) -/

/-- A write of CASC_CTRL: MISS_LIM and POLL_EN, and CNT_CLR. -/
def Chip.writeCascCtrl (c : Chip) (v : Word) : Chip :=
  let c := c.writeMasked CASC_CTRL v
  if bit v 8 then c.clearRegs [CASC_CNT] else c

/-- R351. -/
def execCascCntClr (v : Word) (s : State) : Host.Outcome State Fault Refusal := s.run fun c => c.writeCascCtrl v

end Sys2Proof.Machine
end

