-- ==== Sys2Proof/Machine/KeyOps.lean ====
section
/-! DEFINITION. The Muniment store's slots, its derivations, the flow-key bindings and the loss of keys (R352–R369). -/

namespace Sys2Proof.Machine

def Chip.modMuni (c : Chip) (f : Muni → Muni) : Chip := { c with muni := f c.muni }

def slotsGet (m : Cells KeySlot) (s : Nat) : KeySlot := cellsGet KeySlot.free m s
def slotsSet (m : Cells KeySlot) (s : Nat) (x : KeySlot) : Cells KeySlot := cellsSet KeySlot.free m s x

def Chip.slot (c : Chip) (s : Nat) : KeySlot := slotsGet c.muni.slots s
def Chip.setSlot (c : Chip) (s : Nat) (x : KeySlot) : Chip := c.modMuni fun m => { m with slots := slotsSet m.slots s x }

def Chip.keyFlow (c : Chip) (f : Nat) : KeyFlow := cellsGet (fun _ => KeyFlow.init) c.muni.flows f
def Chip.modKeyFlow (c : Chip) (f : Nat) (g : KeyFlow → KeyFlow) : Chip :=
  c.modMuni fun m => { m with flows := cellsSet (fun _ => KeyFlow.init) m.flows f (g (c.keyFlow f)) }

/-- The MASKED mode is in force (R359). -/
def Chip.masked (c : Chip) : Bool := !c.on MUNI_CTRL.MODE

/-- Random bytes of the DRBG (R357). -/
def Chip.random (c : Chip) (n : Nat) : List Byte × Chip :=
  let (k, c) := c.fresh
  (fitBytes n (Config.drbg c.muni.seed k), c)

def xorBytes (a b : List Byte) : List Byte := (a.zip b).map fun p => p.1 ^^^ p.2

/-- The key a slot holds. -/
def KeySlot.key (x : KeySlot) : List Byte := if x.mask.isEmpty then x.data else xorBytes x.data x.mask

/-- Word 0x0 of a slot's table entry (R374): zero for a FREE slot in its own storage; a slot moved to a spare shows SPARE. -/
def KeySlot.word0 (x : KeySlot) : Nat :=
  x.state * 2 ^ 28 + x.typ * 2 ^ 24 + x.origin * 2 ^ 22 + (if x.persist then 2 ^ 21 else 0) +
    (if 64 ≤ x.phys then 2 ^ 20 else 0) + (if x.state = 0 then 0 else x.parent) * 2 ^ 8 +
    (if x.state = 0 && decide (x.phys < 64) then 0 else x.phys)

/-- The 32-bit check of CHECKED mode (R359). -/
def KeySlot.checkOf (x : KeySlot) (key : List Byte) : Nat := crc32 (key ++ toBytes 4 x.word0)

/-- A slot usable for derivation or encryption. -/
def KeySlot.usable (x : KeySlot) (typ : Nat) : Bool := x.state == 1 && x.typ == typ

/-! ## Derivation (R363) -/

/-- The KDF's one block. -/
def kdf (key label context : List Byte) : List Byte :=
  Config.hmac384 key ([0, 0, 0, 1] ++ label ++ [0] ++ context ++ [0, 0, 1, 0x80])

def asciiBytes (s : String) : List Byte := s.toList.map fun ch => BitVec.ofNat 8 ch.toNat

/-- The storage key (R360, R363). -/
def storageKey (root : List Byte) : List Byte := (kdf root (asciiBytes "MH-FOLIO-WRAP") []).take 32

/-- COLOPHON, little-endian. -/
def Chip.colophonBytes (c : Chip) : List Byte := toBytes 4 (c.reg COLOPHON).toNat

def ofBytesBig (bs : List Byte) : Nat := ofBytes bs.reverse

/-- The identity key: the first output that is a private scalar (R363). -/
def Chip.identityKey (c : Chip) (root : List Byte) : List Byte :=
  let out (i : Nat) : List Byte :=
    kdf root (asciiBytes "MH-IDENTITY") (c.colophonBytes ++ Config.serial ++ [BitVec.ofNat 8 i])
  let ok (bs : List Byte) : Bool := let n := ofBytesBig bs; decide (1 ≤ n) && decide (n < Config.p384Order)
  match (List.range 256).find? fun i => ok (out i) with
  | some i => out i
  | none => out 0

/-- The identity public key as X ‖ Y (R371). -/
def Chip.identityPublic (c : Chip) : List Byte := match c.muni.root with
  | some r => fitBytes 96 ((Config.p384Public (c.identityKey r)).drop 1)
  | none => List.replicate 96 0

/-- The root of a life-cycle state (R353). -/
def rootOf (state : Nat) (seeds : List (List Byte)) : Option (List Byte) :=
  match state with
  | 0 => some Config.testRoot
  | 1 => some Config.deviceRoot
  | 2 => some (Config.hmac384 Config.deviceRoot (seeds.getLastD []))
  | 3 => some Config.returnRoot
  | _ => none

/-! ## Storing slots -/

/-- A slot takes a key: masked with fresh random bytes, or with its check (R359). -/
def Chip.fillSlotKey (c : Chip) (x : KeySlot) (key : List Byte) : KeySlot × Chip :=
  let k := fitBytes 48 key
  if c.masked then
    let (m, c) := c.random 48
    ({ x with data := xorBytes k m, mask := m, check := 0 }, c)
  else ({ x with data := k, mask := [], check := x.checkOf k }, c)

/-- A slot's Folio record (R360). -/
def Chip.slotRecord (c : Chip) (root : List Byte) (s : Nat) (x : KeySlot) : List Byte :=
  let body := if c.masked then fitBytes 56 (Config.aesKeyWrap (storageKey root) x.key)
    else x.key ++ toBytes 4 x.check ++ [0, 0, 0, 0]
  let flags := (if c.masked then 0 else 1) + 2 * c.fld LC_STATUS.STATE
  body ++ toBytes 1 s ++ toBytes 1 x.typ ++ toBytes 1 x.parent ++ toBytes 1 flags ++ toBytes 2 x.gen ++ [0, 0]

/-- The key-slot section: one record for each persistent VALID slot, at its physical slot (R360, R362). -/
def Chip.keySection (c : Chip) (slots : Cells KeySlot) : Cells Byte :=
  match c.muni.root with
  | none => []
  | some r =>
    let recs := (List.range 64).filterMap fun s =>
      let x := slotsGet slots s
      if x.persist && x.state == 1 then some (x.phys, c.slotRecord r s x) else none
    ((List.range 72).filterMap fun p => (recs.find? fun e => e.1 == p)).flatMap fun e => imgOf (0x7000 + 64 * e.1) e.2

/-! ## Flow bindings and the loss of keys (R365, R368) -/

/-- STATE codes of a flow: 1 ACTIVE, 2 DRAINING, 3 REKEY_WAIT, 4 FAILED. -/
def Chip.setFlowState (c : Chip) (f x : Nat) : Chip := c.setFld (FLOW_STATE.STATE f) x

/-- The flows bound to a slot. -/
def Chip.boundFlows (c : Chip) (s : Nat) : List Nat := (List.range 256).filter fun f => (c.keyFlow f).cur == some s

/-- A flow is bound to a VALID FLOW slot (R365). -/
def Chip.flowKeyReady (c : Chip) (f : Nat) : Bool := match (c.keyFlow f).cur with
  | some s => (c.slot s).usable 2
  | none => false

/-- The descendants of a slot, found in rounds. -/
def descend (slots : Cells KeySlot) : Nat → List Nat → List Nat
  | 0, found => found
  | n + 1, found =>
    let more := (List.range 64).filter fun t =>
      let x := slotsGet slots t
      x.state != 0 && found.contains x.parent && !found.contains t
    if more.isEmpty then found else descend slots n (found ++ more)

def descendants (slots : Cells KeySlot) (s : Nat) : List Nat := (descend slots 64 [s]).filter fun t => t != s

/-- The classes of the flow's IN messages whose first cell has arrived and that have not been opened: with the engine, or still partly
assembled (R368). -/
def Chip.underWay (c : Chip) (f : Nat) : List Nat :=
  ((c.muni.entered.filter (·.1 == f)).map (·.2)) ++
    (((c.link (c.sideLink f)).asm.filter fun e => e.1 / 8 == f).map (·.1 % 8))

/-- A flow whose key is gone waits for a new one, with EV233; messages held later were sealed with `key`, those under way are finished
with the old one (R368, R369). -/
def Chip.loseFlowKey (s : Nat) (key : Option (List Byte)) (old : List Byte) (c : Chip) (f : Nat) : Chip :=
  let c := c.raise 233 (s * 2 ^ 16 + f)
  if c.flowState f = 1 || c.flowState f = 2 then
    (c.setFlowState f 3).modKeyFlow f fun x => { x with heldKey := key, early := c.underWay f, earlyKey := old }
  else c

/-- The slots as the orphaning of a slot's descendants leaves them. -/
def orphaned (slots : Cells KeySlot) (s : Nat) : Cells KeySlot :=
  (descendants slots s).foldl (fun m t =>
    let x := slotsGet m t
    if x.state = 1 then slotsSet m t { x with state := 2 } else m) slots

/-- Every VALID descendant of a slot becomes ORPHAN, and its flows wait for a rebinding (R368). -/
def Chip.orphan (c : Chip) (s : Nat) : Chip :=
  (descendants c.muni.slots s).foldl (fun c t =>
    let x := c.slot t
    if x.state = 1 then
      let c := c.setSlot t { x with state := 2 }
      if x.typ = 2 then (c.boundFlows t).foldl (Chip.loseFlowKey t (some x.key) x.key) c else c
    else c) c

/-- A slot whose stored form failed becomes BAD: its key is lost, EV226 is raised and its descendants are orphaned (R359, R368). The
slot waits for a spare (R375). -/
def Chip.makeBad (c : Chip) (s : Nat) : Chip :=
  let x := c.slot s
  let c := c.setSlot s { x with state := 3, data := [], mask := [], check := 0 }
  let c := (c.count MUNI_CNT.CHECK_FAIL).raise 226 (s * 2 ^ 16)
  let c := if c.repairs 226 then c.modCopp fun y => { y with waitSlots := y.waitSlots.filter (· != s) ++ [s] } else c
  let c := if x.typ = 2 then (c.boundFlows s).foldl (Chip.loseFlowKey s none x.key) c else c
  c.orphan s

/-- A slot's key at a use, which in CHECKED mode verifies its check (R359). -/
def Chip.useSlot (c : Chip) (s typ : Nat) : Option (List Byte) × Chip :=
  let x := c.slot s
  if !x.usable typ then (none, c)
  else if !c.masked && x.checkOf x.key != x.check then (none, c.makeBad s)
  else (some x.key, c)

/-- Held messages are discarded (R369). -/
def Chip.dropHeld (c : Chip) (f : Nat) : Chip :=
  let n := (c.keyFlow f).held.length
  let c := c.modKeyFlow f fun x => { x with held := [], heldKey := none }
  let c := c.modFlow f fun e => { e with rekeyIn := 0 }
  if n = 0 then c else (c.count MUNI_CNT.HOLD_DROP n).raise 234 f

end Sys2Proof.Machine
end

