-- ==== Sys2Proof/Machine/Circulation.lean ====
section
/-! DEFINITION. Circulation: the flow table and admission, demand and grants, the allotment, and the spare flow entries (R138–R166).
Direction 0 is IN, the one arriving at this device over the link; direction 1 is OUT. -/

namespace Sys2Proof.Machine

/-! ## Flow entries (R140, R144, R145) -/

/-- Flows 3–255 whose STATE is not FREE, in ascending order. -/
def Chip.liveFlows (c : Chip) : List Nat := ((List.range 253).map (3 + ·)).filter fun f => c.fld (FLOW_STATE.STATE f) != 0

/-- The IN and OUT halves of a guarantee, ceiling or demand word. -/
def halfIn (w : Word) : Nat := w.toNat % 4096
def halfOut (w : Word) : Nat := w.toNat / 65536 % 4096

/-- The half of a flow's word that counts in a direction of a link (R144): a transit flow's IN cells leave by its ENDPOINT
link, its OUT cells arrive by it. -/
def Chip.halfFor (c : Chip) (k : Lnk) (dir f : Nat) (w : Word) : Nat :=
  if c.sideLink f == k then (if dir = 0 then halfIn w else halfOut w)
  else if c.transitLink f == some k then (if dir = 0 then halfOut w else halfIn w)
  else 0

/-- The admitted guarantee sum of a direction of a link: flows ACTIVE, REKEY_WAIT or FAILED (R143, R156, R160). -/
def Chip.guarSum (c : Chip) (k : Lnk) (dir : Nat) : Nat :=
  ((c.liveFlows.filter fun f => !c.draining f).map fun f => c.halfFor k dir f (c.flow f).guar).sum

/-- The downstream link lanes of an arrangement (R100). -/
def arrDown : Arr → List Nat
  | .a22 => [0, 1]
  | .a31 => [0, 1, 2]
  | .a13 => [0]

/-- The direction of a link lane at this end in an arrangement. -/
def Chip.arrDir (c : Chip) (k : Lnk) (a : Arr) (ll : Nat) : Nat := if (arrDown a).contains ll == c.downEnd k then 0 else 1

/-- The pairs whose direction differs from an arrangement's. -/
def Chip.turnedBy (c : Chip) (k : Lnk) (a : Arr) : List Nat :=
  ((List.range 4).filter fun ll => c.fld (LANE_STATUS.DIR (c.pairOf k ll)) != c.arrDir k a ll).map (c.pairOf k)

/-- Capacity of a direction in an arrangement, all four lanes in service. -/
def Chip.capArr (c : Chip) (k : Lnk) (dir : Nat) (a : Arr) : Nat :=
  c.capOf (((List.range 4).filter fun ll => c.arrDir k a ll == dir).map (c.pairOf k))

/-- Capacity in the gap arrangement: only the lanes that do not turn (R144). -/
def Chip.capGap (c : Chip) (k : Lnk) (dir : Nat) (turning : List Nat) : Nat :=
  c.capOf ((c.group k dir).filter fun l => !turning.contains l)

/-- C_d for admission: while a turn is in progress the smaller of its gap and target values (R144). -/
def Chip.capAdmit (c : Chip) (k : Lnk) (dir : Nat) : Nat :=
  if !(c.link k).upSinceMode then 0
  else match (c.link k).turn with
    | some t => min (c.capGap k dir t.lanes) (c.capArr k dir t.target)
    | none => c.capNow k dir

/-- The admission limit and the CTRL reservation of a capacity (R144). -/
def admissionLimit (cap : Nat) : Nat := 95 * cap / 100
def ctrlReserve (cap : Nat) : Nat := (2 * cap + 99) / 100

/-- What a flow adds to the egress and ingress sums of a fabric port (R145). -/
def Chip.portShare (c : Chip) (p f : Nat) (w : Word) : Nat × Nat :=
  let e := c.fld (FLOW_CFG.ENDPOINT f)
  let gi := halfIn w
  let go := halfOut w
  let a := if e == p && e != 0 && e != 2 then (gi, go) else (0, 0)
  let b := if p == 12 && c.on (FLOW_CFG.ENC f) then (gi + go, gi + go) else (0, 0)
  let d := if (p == 13 || p == 14) && (e == 4 || e == 6) then ((gi + 1) / 2, (go + 1) / 2) else (0, 0)
  (a.1 + b.1 + d.1, a.2 + b.2 + d.2)

/-- The egress and ingress sums of a fabric port. -/
def Chip.portSums (c : Chip) (p : Nat) : Nat × Nat :=
  (c.liveFlows.filter fun f => !c.draining f).foldl (fun a f =>
    let s := c.portShare p f (c.flow f).guar
    (a.1 + s.1, a.2 + s.2)) (0, 0)

/-- A link that this device schedules and that is UP, in recovery, asleep or waking: its SCHED block is live. In training and with the
mode off the block shows no capacity (DESIGN CHOICE, log entry 86). -/
def Chip.scheduling (c : Chip) (k : Lnk) : Bool := c.schedules k && [2, 3, 4, 5].contains (c.linkState k)

/-- The link whose scheduler shows a flow's allotment and backlog in its entry: that of its SIDE, or of its ENDPOINT where another
device schedules the first (DESIGN CHOICE, log entry 86). -/
def Chip.ownerLink (c : Chip) (f : Nat) : Lnk :=
  if c.schedules (c.sideLink f) then c.sideLink f else (c.transitLink f).getD (c.sideLink f)

/-- A flow's own direction in a direction of a link (R138, R144): they differ on the link a transit flow leaves by. -/
def Chip.flowDir (c : Chip) (k : Lnk) (dir f : Nat) : Nat := if c.sideLink f == k then dir else 1 - dir

/-- Committed rate of a link port at an operating point, in hundredths of Gb/s (R21). -/
def Chip.linkPortRate (c : Chip) (k : Lnk) (dir : Nat) : Nat :=
  ((c.group k dir).map fun l => Config.laneRate (c.fld (LANE_STATUS.RATE l))).sum

/-- Whether an operating point fits: no slack monitor has barred it (R381), and every committed rate is at or below its port floor
(R21). A cell per epoch counts as 0.125 Gb/s. -/
def Chip.pointFits (c : Chip) (op : Nat) : Bool :=
  let floor := Config.portFloor op
  !(c.fld MON_STATUS.BAR).testBit op && ([Lnk.ul, Lnk.cs].all fun k => decide (c.linkPortRate k 0 ≤ floor) && decide (c.linkPortRate k 1 ≤ floor)) &&
    (List.range 16).all fun p =>
      let s := c.portSums p
      decide (25 * s.1 ≤ 2 * floor) && decide (25 * s.2 ≤ 2 * floor)

/-! ## The SCHED block (R165) -/

/-- Which half of the downstream/upstream words a direction is: downstream is IN at the downstream end. -/
def Chip.dnHalf (c : Chip) (k : Lnk) (dir : Nat) : Bool := (dir == 0) == c.downEnd k

/-- A word of the SCHED block given for upstream and downstream. -/
def Chip.dnUp (c : Chip) (k : Lnk) (v : Nat → Nat) : Word :=
  BitVec.ofNat 32 (if c.downEnd k then v 1 * 65536 + v 0 else v 0 * 65536 + v 1)

/-- Shortfall of a direction: its guarantee sum exceeds its limit (R146). -/
def Chip.inShortfall (c : Chip) (k : Lnk) (dir : Nat) : Bool := admissionLimit (c.capAdmit k dir) < c.guarSum k dir

/-- The shortfall flag of a direction. -/
def Chip.shortfallFlag (c : Chip) (k : Lnk) (dir : Nat) : Fld := ⟨SCHED k.idx 0, if c.dnHalf k dir then 30 else 29, 1⟩

/-- Shortfall of an UP link is evaluated, and raises EV064 on entry (R146). -/
def Chip.updateShortfall (c : Chip) (k : Lnk) (dir : Nat) : Chip :=
  if !c.schedules k || !c.linkUp k then c
  else
    let now := c.inShortfall k dir
    let fl := c.shortfallFlag k dir
    let c := if now && !c.on fl then (c.raise 64 (k.idx * 2 ^ 30)).setRaw 64 true
      else if !now && c.on fl then c.setRaw 64 false
      else c
    c.setFld fl now.toNat

/-- The shortfall flags follow a change of guarantees or of capacity. -/
def Chip.syncSched (c : Chip) (k : Lnk) : Chip := (c.updateShortfall k 0).updateShortfall k 1
def Chip.syncCirc (c : Chip) : Chip := (c.syncSched .ul).syncSched .cs

/-- A word of the SCHED block as it reads (R165); the counters read as stored. STATUS shows its flags only while the instance
schedules a link. -/
def Chip.schedWord (c : Chip) (k : Lnk) (w : Nat) : Word :=
  let live := c.scheduling k
  let cap (d : Nat) : Nat := if live then c.capAdmit k d else 0
  match w with
  | 0 => if live then BitVec.ofNat 32 (2 ^ 31 + (c.fld ⟨SCHED k.idx 0, 26, 5⟩ * 4 + c.fld (LINK_STATUS.ARR k.idx)) * 2 ^ 24 +
      c.fld ⟨SCHED k.idx 0, 16, 8⟩ * 65536) else 0
  | 1 => c.dnUp k cap
  | 2 => if c.schedules k then c.dnUp k (c.guarSum k) else 0
  | 3 => c.dnUp k fun d => admissionLimit (cap d)
  | 4 => c.dnUp k fun d => ctrlReserve (cap d)
  | _ => c.reg (SCHED k.idx w)

/-- A word of the port table as it reads (R145, R166). -/
def Chip.portSumWord (c : Chip) (p : Nat) : Word :=
  let s := c.portSums p
  BitVec.ofNat 32 (s.1 % 65536 * 65536 + s.2 % 65536)

/-- The flow a spare holds, and whether it has failed, by the spare map (R160, R166). -/
def Chip.spareEntry (c : Chip) (s : Nat) : Option RepEntry :=
  c.copp.map.find? fun e => e.kind == kFlow && e.spare == 256 + s

/-- A word of the spare table as it reads. -/
def Chip.spareTblWord (c : Chip) (s : Nat) : Word := match c.spareEntry s with
  | none => 0
  | some e => BitVec.ofNat 32 ((if e.retired then 2 ^ 30 else 2 ^ 31) + e.orig % 256)

/-- The flow's entry is a spare (FLOW_STATE.SPARE, R159, R160). -/
def Chip.onSpare (c : Chip) (f : Nat) : Bool := c.copp.map.any fun e => e.kind == kFlow && e.orig == f && !e.retired

/-- FLOW_STATE as it reads: SPARE shows the spare map (R160). -/
def Chip.flowStateWord (c : Chip) (f : Nat) : Word := (FLOW_STATE.SPARE f).put (c.reg (FLOW_STATE f)) (c.onSpare f).toNat

/-! ## Commits (R141–R146) -/

/-- Result codes of CIRC_ADMIT (R164). -/
def admitted : Nat := 1
def overLimit : Nat := 2
def noFit : Nat := 3
def badParam : Nat := 4
def fixedEntry : Nat := 5
def shortfallCode : Nat := 6
def busyCode : Nat := 7

/-- A commit refused with BAD_PARAM (R140, R142, R365). `w` is the written FLOW_CFG, `g` and `l` the staged guarantees and ceilings. -/
def Chip.badCommit (c : Chip) (f : Nat) (w g l : Word) : Bool :=
  let at_ (fl : Fld) : Nat := fl.get w
  let old := c.reg (FLOW_CFG f)
  let cls := at_ (FLOW_CFG.CLASS f)
  let head := at_ (FLOW_CFG.BEAM_HEAD f)
  let ep := at_ (FLOW_CFG.ENDPOINT f)
  let side := at_ (FLOW_CFG.SIDE f)
  let kept (fl : Fld) : Bool := fl.get w == fl.get old
  let live := c.flowState f != 0
  (live && !(kept (FLOW_CFG.CLASS f) && kept (FLOW_CFG.ENC f) && kept (FLOW_CFG.SIDE f) && kept (FLOW_CFG.BEAM_HEAD f) &&
    kept (FLOW_CFG.ENDPOINT f))) ||
  c.flowState f == 4 ||
  (cls == 1 && (halfIn g != 0 || halfOut g != 0 || halfIn l != 0 || halfOut l != 0)) ||
  (halfIn l != 0 && decide (halfIn l < halfIn g)) || (halfOut l != 0 && decide (halfOut l < halfOut g)) ||
  (cls == 2 && ((halfIn l != 0 && halfIn l != halfIn g) || (halfOut l != 0 && halfOut l != halfOut g))) ||
  ((cls == 1 || cls == 3 || cls == 4) && at_ (FLOW_CFG.WEIGHT f) == 0) ||
  (c.part == .mh4142 && (head == 2 || head == 3)) ||
  cls == 0 || decide (4 < cls) || head == 4 || head == 5 || head == 6 || ep == 1 || ep == 3 || ep == 15 ||
  (side == 0 && ep == 0) || (side == 1 && ep == 2) ||
  (at_ (FLOW_CFG.ENC f) == 1 && (ep == 0 || ep == 2 || !c.flowKeyReady f))

/-- The flow entry as a commit would leave it. -/
def Chip.withEntry (c : Chip) (f : Nat) (w g l d : Word) (st : Nat) : Chip :=
  (((c.setReg (FLOW_CFG f) (w &&& 0xFFF8FFFF)).setFlowState f st).modFlow f fun e => { e with guar := g, ceil := l, decl := d })

/-- A commit that raises a guarantee passes every test, or the code it is refused with (R144–R146). -/
def Chip.admitRaise (c after : Chip) (f : Nat) (g : Word) : Nat :=
  let old := if c.flowState f = 0 then 0 else (c.flow f).guar
  let dirs : List (Lnk × Nat) := [(.ul, 0), (.ul, 1), (.cs, 0), (.cs, 1)]
  let raised (p : Lnk × Nat) : Bool := after.halfFor p.1 p.2 f old < after.halfFor p.1 p.2 f g
  if dirs.any fun p => c.schedules p.1 && raised p && c.on (c.shortfallFlag p.1 p.2) then shortfallCode
  else if dirs.any fun p => c.schedules p.1 && decide (admissionLimit (c.capAdmit p.1 p.2) < after.guarSum p.1 p.2) then overLimit
  else if !after.pointFits c.fitOp then noFit
  else admitted

/-- A word of the configuration image: FLOW_CFG of an entry, CIRC_CTRL or CIRC_TURN (R387). -/
def inImage (a : Nat) : Bool :=
  a == CIRC_CTRL || a == CIRC_TURN || (0xB ≤ pageOf a && pageOf a ≤ 0xE && 0x800 ≤ a % 0x1000 && a % 0x20 == 0)

/-- The active copy writes the configuration image, before a commit completes and at a flow-entry repair (R387). -/
def Chip.writeImage (c : Chip) : Chip :=
  let x : CfgImage :=
    { words := c.regs.filter fun p => inImage p.1, flows := c.flows, spares := c.copp.map.filter fun e => e.kind == kFlow }
  { c with router := { c.router with image := some x } }

/-- The result of a commit shows in FLOW_STATE.ADMIT and CIRC_ADMIT (R141). -/
def Chip.reportAdmit (c : Chip) (f code : Nat) : Chip :=
  ((c.setFld (FLOW_STATE.ADMIT f) code).setFld CIRC_ADMIT.RESULT code).setFld CIRC_ADMIT.FLOW f

/-- The staging copy returns to the entry (R141). -/
def Chip.restoreStaging (c : Chip) (f : Nat) : Chip :=
  let e := c.flow f
  ((c.setReg (FLOW_GUAR f) e.guar).setReg (FLOW_CEIL f) e.ceil).setReg (FLOW_DECL f) e.decl

/-- Cells of a flow that the device can discard: those waiting to be sent, those of messages not yet complete, and those that wait
for a router or for the surface engine. One in the replay buffer or ahead of its turn keeps its place in the sequence. -/
def LinkSt.flowAsm (s : LinkSt) (f : Nat) : Nat := ((s.asm.filter fun e => e.1 / 8 == f && !e.2.2.isEmpty).map (·.2.1)).sum
def Chip.looseCells (c : Chip) (f : Nat) : Nat :=
  ([Lnk.ul, .cs].map fun k =>
    (c.outQ k f).length + (c.link k).flowAsm f + (((c.link k).stalled ++ (c.link k).srfWait).filter (·.flow == f)).length).sum

/-- Every such cell is discarded. -/
def Chip.dropCells (c : Chip) (f : Nat) : Chip :=
  [Lnk.ul, .cs].foldl (fun c k => (c.setOutQ k f []).modLink k fun s =>
    { s with
      asm := s.asm.filter fun e => e.1 / 8 != f, stalled := s.stalled.filter (·.flow != f)
      srfWait := s.srfWait.filter (·.flow != f) }) c

/-- A message of the flow waits in the surface engine or is being written by it. -/
def Chip.surfHolds (c : Chip) (f : Nat) : Bool :=
  let s := c.surf
  s.wait.any (·.1 == f) || s.held.contains f || s.jobs.any (·.flow == f) || (s.unit0.toList ++ s.unit1.toList).any (·.flow == f)

/-- The surface engine gives up the flow's messages. -/
def Chip.dropSurf (c : Chip) (f : Nat) : Chip :=
  let s := c.surf
  { c with surf := { s with
    wait := s.wait.filter (·.1 != f), held := s.held.filter (· != f), jobs := s.jobs.filter (·.flow != f)
    unit0 := s.unit0.filter (·.flow != f), unit1 := s.unit1.filter (·.flow != f) } }

/-- The device holds no cell of a flow: also none that may be replayed, that waits for its turn, or of a message held in the surface
engine. -/
def Chip.holdsNone (c : Chip) (f : Nat) : Bool :=
  c.looseCells f == 0 && !c.surfHolds f && [Lnk.ul, .cs].all fun k =>
    let s := c.link k
    !(s.early.any (·.flow == f) || s.again.any (·.1.flow == f) || s.replay.any fun e => e.cells.any (·.1.flow == f))

/-- Messages of the flow on their way into the key/crypto engine are forgotten. -/
def Chip.forgetMsgs (c : Chip) (f : Nat) : Chip :=
  let c := (c.dropHeld f).modMuni fun m => { m with entered := m.entered.filter (·.1 != f) }
  c.modKeyFlow f fun x => { x with early := [] }

/-- A flow becomes FREE: its allotment, backlog and remainders are gone. -/
def Chip.freeFlow (c : Chip) (f : Nat) : Chip :=
  let c := (((((c.flowGone f).dropCells f).dropSurf f).forgetMsgs f).setFlowState f 0).setFld (FLOW_STATE.A_OUT f) 0 |>.setFld (FLOW_STATE.A_IN f) 0
  ((c.setReg (FLOW_BACKLOG f) 0).setReg (FLOW_DEF f) 0).modFlow f fun e => { e with drain := 0, rekeyIn := 0 }

/-- FLOW_CFG of a live flow as a write leaves it: of its fields only VALID, WEIGHT and HOLD_LIM may change (R142; DESIGN CHOICE, log
entry 86, for a commit with VALID 0). -/
def Chip.keptConfig (c : Chip) (f : Nat) (w : Word) : Word :=
  let old := c.reg (FLOW_CFG f)
  [FLOW_CFG.CLASS f, FLOW_CFG.ENC f, FLOW_CFG.SIDE f, FLOW_CFG.BEAM_HEAD f, FLOW_CFG.ENDPOINT f].foldl
    (fun w fl => fl.put w (fl.get old)) w

/-- A commit with VALID 0 (R143): a live flow drains with the words written, a FAILED one is FREE. Of FLOW_CFG it takes what R142 lets a
write change (DESIGN CHOICE, log entry 86). -/
def Chip.deleteFlow (c : Chip) (f : Nat) (w g l d : Word) : Chip :=
  match c.flowState f with
  | 1 | 3 => ((c.dropHeld f).withEntry f (c.keptConfig f w) g l d 2).modFlow f fun e => { e with drain := 64 }
  | 4 => ((c.withEntry f w g l d 4).freeFlow f).modFlow f fun e => { e with lost := true }
  | _ => c

/-- The spare entry of a flow failed with it: it is not used again. -/
def Chip.failSpare (c : Chip) (f : Nat) : Chip :=
  (c.copp.map.filter fun e => e.kind == kFlow && e.orig == f && !e.retired).foldl (fun c e => c.retireSpare kFlow 0 e.spare) c

/-- A create of a flow whose storage failed uses a spare if one is free, and rewrites the entry otherwise (R160). -/
def Chip.placeEntry (c : Chip) (f : Nat) : Chip :=
  if (c.flow f).lost then
    let c := c.modFlow f fun e => { e with lost := false }
    match c.nextSpare kFlow 0 with
    | some s => c.noteRepair kFlow 0 f s
    | none => c
  else c

/-- The STATE a flow takes at its commit: one in REKEY_WAIT stays so until its rebinding takes effect (R369). -/
def Chip.newFlowState (c : Chip) (f : Nat) : Nat := if c.flowState f = 3 then 3 else 1

/-- A commit, evaluated (R141–R145). -/
def Chip.commitFlow (c : Chip) (f : Nat) (w : Word) : Chip :=
  let g := c.reg (FLOW_GUAR f)
  let l := c.reg (FLOW_CEIL f)
  let d := c.reg (FLOW_DECL f)
  if f < 3 then c.reportAdmit f fixedEntry
  else if !w.getLsbD 31 then ((c.deleteFlow f w g l d).writeImage.reportAdmit f admitted).syncCirc
  else if c.draining f then (c.restoreStaging f).reportAdmit f busyCode
  else if c.badCommit f w g l then (c.restoreStaging f).reportAdmit f badParam
  else
    let after := c.withEntry f w g l d (c.newFlowState f)
    let old := if c.flowState f = 0 then 0 else (c.flow f).guar
    let raises := decide (halfIn old < halfIn g) || decide (halfOut old < halfOut g)
    let code := if raises then c.admitRaise after f g else admitted
    if code = admitted then ((after.placeEntry f).writeImage.reportAdmit f admitted).syncCirc
    else (c.restoreStaging f).reportAdmit f code

/-- A write of FLOW_CFG: ignored whole while the page is locked, held while no router is active, else a commit (R141, R162). -/
def Chip.writeFlowCfg (c : Chip) (f : Nat) (w : Word) : Chip :=
  if c.pageLocked (0xB + f / 64) then c.countLockIgn (0xB + f / 64)
  else if c.fld ROUT_STATUS.STATE = 1 then { c with deferred := c.deferred ++ [(f, w)] }
  else c.commitFlow f w

/-- R141. -/
def execFlowCfg (f : Fin 256) (v : Word) (s : State) : Host.Outcome State Fault Refusal :=
  s.run fun c => c.writeFlowCfg f v

/-- A write to a staged word; flows 0–2 ignore it (R140, R141). -/
def Chip.writeStaged (c : Chip) (f : Nat) (a : Nat) (v : Word) : Chip := if f < 3 then c else c.writeMasked a v

def stagedAddr (f : Nat) : FlowWord → Nat
  | .guar => FLOW_GUAR f
  | .ceil => FLOW_CEIL f
  | .decl => FLOW_DECL f

/-- R141. -/
def execFlowStageWrite (f : Fin 256) (w : FlowWord) (v : Word) (s : State) : Host.Outcome State Fault Refusal :=
  s.run fun c => c.writeStaged f (stagedAddr f w) v

/-! ## Spare flow entries (R159, R160) -/

/-- The flow moves to a free spare with EV068, or its good copy is rewritten in place; then Coppice records the repair and
reports an exhausted pool. -/
def Chip.moveToSpare (c : Chip) (f : Nat) : Chip :=
  match c.nextSpare kFlow 0 with
  | some s =>
    let c := (c.failSpare f).modFlow f fun e => { e with lost := false }
    ((c.raise 68 ((c.sideLink f).idx * 2 ^ 30 + f)).noteRepair kFlow 0 f s).writeImage
  | none => c.noteExhausted kFlow 0 f

/-- Both configuration copies failed: FAILED, or a FREE entry that stays FREE, with EV069 (R159, R160). -/
def Chip.entryLost (c : Chip) (f : Nat) : Chip :=
  let c := ((c.failSpare f).raise 69 ((c.sideLink f).idx * 2 ^ 30 + f)).modFlow f fun e => { e with lost := true }
  if c.flowState f = 0 then c
  else
    let n := c.looseCells f
    let c := if n = 0 then c else c.count (FLOW_CNT.OVER f) n
    (((c.dropCells f).setFlowState f 4).setFld (FLOW_STATE.A_OUT f) 0).setFld (FLOW_STATE.A_IN f) 0

/-- R159. -/
def execFlowEntryParityError (f : Fin 256) (kind : ParityKind) (s : State) : Host.Outcome State Fault Refusal :=
  s.run fun c =>
    if f.val < 3 then c
    else match kind with
      | .oneCopy => c.moveToSpare f
      | .dynamicState => ((c.setReg (FLOW_DEF f) 0).setReg (FLOW_CNT f) 0).moveToSpare f
      | .bothCopies => c.entryLost f

/-- CNT_CLR clears FLOW_CNT of every flow and the counters of the SCHED blocks (R164). -/
def Chip.writeCircCtrl (c : Chip) (v : Word) : Chip :=
  let c := c.writeMasked CIRC_CTRL v
  c.when (bit v 10) fun c =>
    c.clearRegs (((List.range 256).map FLOW_CNT) ++ [SCHED 0 5, SCHED 0 6, SCHED 0 7, SCHED 1 5, SCHED 1 6, SCHED 1 7])

/-- R164. -/
def execCircCntClr (v : Word) (s : State) : Host.Outcome State Fault Refusal := s.run fun c => c.writeCircCtrl v

/-! ## Demand (R148, R151, R152) -/

/-- A DEMAND is complete when every part of it has arrived. -/
def demandComplete (ps : List DemandPart) : Option Demand :=
  match ps.getLast? with
  | none => none
  | some p =>
    let same := ps.filter fun q => q.epoch == p.epoch && q.parts == p.parts
    if (List.range p.parts).all fun i => same.any fun q => q.index == i then
      some { epoch := p.epoch.toNat, parts := p.parts, entries := same.flatMap fun q => q.entries }
    else none

/-- A received DEMAND part; a complete one replaces the last, ends staleness, and of the cells received only those since its epoch
still count (R148, R151). -/
def Chip.takeDemand (c : Chip) (k : Lnk) (m : DemandPart) : Chip :=
  let before := (c.sched k).demand
  let c := c.modSched k fun s =>
    let ps := (s.collect.filter fun q => q.epoch == m.epoch && q.index != m.index) ++ [m]
    match demandComplete ps with
    | some d =>
      let first := c.epoch - (c.epoch + 65536 - d.epoch) % 65536
      { s with demand := some d, collect := [], stale := 0, received := s.received.filter fun e => first ≤ e.1 / 256 }
    | none => { s with collect := ps }
  c.when ((c.sched k).demand != before) fun c => c.setFld ⟨SCHED k.idx 0, 27, 1⟩ 0

/-- R148. -/
def execDemand (k : Lnk) (m : DemandPart) (s : State) : Host.Outcome State Fault Refusal :=
  s.run fun c => if c.schedules k && c.linkUp k then c.takeDemand k m else c

/-! ## The partner's side (R149) -/

/-- The epoch of an ALLOT has begun at this end: it grants nothing (R149). -/
def PartnerGrant.late (g : PartnerGrant) (epoch : Nat) : Bool := g.known && decide (seqDiff g.epochNow epoch < 32768)

/-- A received ALLOT part at an end that does not schedule; with HOLD gone a fresh one lets new cells go again (R131, R149). -/
def Chip.takeAllot (c : Chip) (k : Lnk) (m : AllotPart) : Chip :=
  let hold := c.on (LINK_STATUS.HOLD_RX k.idx)
  if (c.link k).grant.late m.epoch.toNat then c
  else c.modLink k fun x =>
    { x with
      grant := { x.grant with
        epoch := m.epoch.toNat
        parts := (x.grant.parts.filter fun q => q.epoch == m.epoch && q.index != m.index) ++ [m] }
      holdWait := x.holdWait && hold }

/-- R147. -/
def execAllot (k : Lnk) (m : AllotPart) (s : State) : Host.Outcome State Fault Refusal :=
  s.run fun c => if !c.schedules k && c.linkUp k then c.takeAllot k m else c

/-- DL of a flow this end sends (R148). A flow for a head gives the band, the tile row of R199, of the first tile update whose header
waits; any other DEADLINE flow what its oldest cell has left of HORIZON, a DESIGN CHOICE (log entry 86). -/
def Chip.ownDl (c : Chip) (k : Lnk) (f : Nat) : Nat :=
  let q := c.outQ k f
  if c.flowClass f != 3 then 0xFFF
  else if c.fld (FLOW_CFG.BEAM_HEAD f) != 7 then
    ((q.find? (·.first)).map fun x => min 0xFFE (ofBytes ((x.payload.drop 6).take 2))).getD 0xFFF
  else (q.head?.map fun x => min 0xFFE (c.fld CIRC_CTRL.HORIZON - (c.epoch - x.epoch))).getD 0xFFF

/-- The DEMAND this end sends as partner: every flow of its sending direction with cells waiting (R148, R149). -/
def Chip.demandBodies (c : Chip) (k : Lnk) (epoch : Nat) : List (List Byte) :=
  let fs := (List.range 256).filter fun f => c.crosses k f && !(c.outQ k f).isEmpty
  let es := fs.map fun f => f + 256 * min (c.outQ k f).length 4095 + 2 ^ 20 * c.ownDl k f
  let parts := if es.isEmpty then [[]] else chunks 28 es
  (parts.zip (List.range parts.length)).map fun (p, i) =>
    toBytes 1 (16 * i + parts.length) ++ toBytes 2 epoch ++ toBytes 1 p.length ++ [0, 0, 0] ++ p.flatMap (toBytes 4)

/-- What the partner may send in the epoch that begins, in fill order: CTRL cells up to RES, cells up to each guarantee, extra
grants (R149). -/
def Chip.partnerGrants (c : Chip) (k : Lnk) (res : Nat) (extra : List (Nat × Nat)) : List (Nat × Nat) :=
  let fs := (List.range 256).filter fun f => c.crosses k f && c.flowState f == 1 && !c.isCtrl f
  (ctrlShare, res) :: fs.map (fun f => (f, c.halfFor k 1 f (c.flow f).guar)) ++ extra

/-- The scheduling end's epoch begins at this end (R149): a complete ALLOT for it grants its extras, an incomplete one nothing;
one complete DEMAND is sent. -/
def Chip.partnerEpoch (c : Chip) (k : Lnk) : Chip :=
  let g := (c.link k).grant
  let complete := match g.parts.head? with
    | none => false
    | some p => (List.range p.parts).all fun i => g.parts.any fun q => q.index == i
  let extra := if complete then (g.parts.flatMap fun q => q.entries).map fun e => (e.1, e.2) else []
  let res := match g.parts.head? with
    | some p => p.res.toNat
    | none => g.res
  let now := if g.parts.isEmpty then (g.epochNow + 1) % 65536 else g.epoch
  let c := c.modLink k fun x =>
    { x with
      grant := { x.grant with epochNow := now, known := g.known || !g.parts.isEmpty, parts := [], res := res, extra := extra }
      grants := c.partnerGrants k res extra }
  (c.demandBodies k now).foldl (fun c b => c.queueLmc k 0x31 b) c

/-! ## The allotment (R153–R156) -/

/-- A flow in the computation of one direction. -/
structure AFlow where
  f : Nat
  cls : Nat
  g : Nat
  need : Nat
  room : Nat
  a : Nat
  p3 : Nat
  p4 : Nat
  weight : Nat
  defr : Nat
  slack : Option Nat
  deriving DecidableEq, Repr

def AFlow.give (x : AFlow) (q : Nat) : AFlow := { x with a := x.a + q, need := x.need - q }

/-- Flows from a rotation position on, cyclically. -/
def rotated (r : Nat) (fs : List AFlow) : List AFlow := (fs.filter fun x => r ≤ x.f) ++ fs.filter fun x => x.f < r

/-- Update one flow of a list. -/
def withFlow (fs : List AFlow) (f : Nat) (g : AFlow → AFlow) : List AFlow := fs.map fun x => if x.f == f then g x else x

/-- Phase 1: the CTRL reservation, one cell per CTRL flow in turn. `n` is what is left of it. Gives the flows, the rotation and
the cells given. -/
def phase1 : Nat → Nat → List AFlow → Nat → List AFlow × Nat × Nat
  | 0, rot, fs, given => (fs, rot, given)
  | n + 1, rot, fs, given =>
    match (rotated rot fs).find? fun x => x.cls == 1 && x.need != 0 with
    | none => (fs, rot, given)
    | some x => phase1 n ((x.f + 1) % 256) (withFlow fs x.f fun y => y.give 1) (given + 1)

/-- The cells left by the rounding, one to each flow in turn that the rounding left below its guarantee; a flow is given with its
guaranteed and its reduced cells. -/
def spreadLeft : Nat → List (Nat × Nat × Nat) → List (Nat × Nat)
  | _, [] => []
  | n, (f, m, b) :: r => if n != 0 && decide (b < m) then (f, b + 1) :: spreadLeft (n - 1) r else (f, b) :: spreadLeft n r

/-- The guaranteed cells of one class under shortfall: the same factor for every flow, then one cell each in ascending order. -/
def reduceClass (fs : List AFlow) (avail total : Nat) : List (Nat × Nat) :=
  let want := fs.map fun x => (x.f, min x.g x.need)
  if total ≤ avail then want
  else
    let base := want.map fun w => (w.1, w.2, w.2 * avail / total)
    spreadLeft (avail - (base.map fun w => w.2.2).sum) base

/-- Phase 2: guarantees, reduced under shortfall BULK first, then DEADLINE, then ISO (R155). -/
def phase2 (fs : List AFlow) (left : Nat) : List AFlow × Nat :=
  let total (cls : Nat) : Nat := ((fs.filter fun x => x.cls == cls).map fun x => min x.g x.need).sum
  let grant (cls avail : Nat) : List (Nat × Nat) := reduceClass (fs.filter fun x => x.cls == cls) avail (total cls)
  let iso := grant 2 left
  let left1 := left - (iso.map (·.2)).sum
  let dl := grant 3 left1
  let left2 := left1 - (dl.map (·.2)).sum
  let bulk := grant 4 left2
  let all := iso ++ dl ++ bulk
  (fs.map fun x => if x.cls == 1 then x else x.give (lookup all x.f), left2 - (bulk.map (·.2)).sum)

/-- Phase 3: deadlines inside the horizon, by SLACK and then flow number. HORIZON 0 skips it. -/
def phase3 (horizon : Nat) (fs : List AFlow) (left : Nat) : List AFlow × Nat :=
  if horizon = 0 then (fs, left)
  else
    let ds := fs.filter fun x => x.cls == 3 && match x.slack with
      | some s => decide (s ≤ horizon)
      | none => false
    let ds := ds.mergeSort fun x y =>
      let sx := x.slack.getD 0
      let sy := y.slack.getD 0
      decide (sx < sy) || (sx == sy && decide (x.f ≤ y.f))
    ds.foldl (fun (acc : List AFlow × Nat) d =>
      match acc.1.find? fun x => x.f == d.f with
      | none => acc
      | some x =>
        let q := min (min x.need (x.room - x.a)) acc.2
        (withFlow acc.1 x.f fun y => { y.give q with p3 := q }, acc.2 - q)) (fs, left)

/-- Whether a flow is in the set E of phase 4. -/
def AFlow.inE (x : AFlow) : Bool := (x.cls == 1 || x.cls == 3 || x.cls == 4) && x.need != 0 && decide (x.a < x.room)

/-- One round of phase 4: the weighted share with remainders in 1/256 cell; when it gives nothing, one cell each. -/
def phase4Round (rot : Nat) (fs : List AFlow) (left : Nat) : List AFlow × Nat :=
  let e := rotated rot (fs.filter AFlow.inE)
  let w := (e.map (·.weight)).sum
  let r := e.foldl (fun (acc : List AFlow × Nat × Nat) d =>
    let (fs, left', given) := acc
    let x := left * d.weight * 256 / w + d.defr
    let q := min (min (min (x / 256) d.need) (d.room - d.a)) left'
    (withFlow fs d.f fun y => { y.give q with p4 := y.p4 + q, defr := if q = x / 256 then x % 256 else 0 },
      left' - q, given + q)) (fs, left, 0)
  if r.2.2 = 0 then
    (rotated rot (r.1.filter AFlow.inE)).foldl (fun (acc : List AFlow × Nat) d =>
      if acc.2 = 0 then acc
      else (withFlow acc.1 d.f fun y => { y.give 1 with p4 := y.p4 + 1 }, acc.2 - 1)) (r.1, r.2.1)
  else (r.1, r.2.1)

/-- Phase 4. Every round gives at least one cell, so `left` rounds suffice. -/
def phase4 (rot : Nat) : Nat → List AFlow → Nat → List AFlow × Nat
  | 0, fs, left => (fs, left)
  | n + 1, fs, left =>
    if left = 0 || !fs.any AFlow.inE then (fs, left)
    else
      let (fs, left) := phase4Round rot fs left
      phase4 rot n fs left

/-- A flow's extra grant: phase 4 cells of a CTRL flow, what exceeds the guarantee of any other (R153). -/
def AFlow.extra (x : AFlow) : Nat := if x.cls == 1 then x.p4 else x.a - x.g

/-- At most 148 flows get extras: phase 3 first, then phase 4 in descending order of extra; the others lose theirs and keep the
remainders they had (R153). Among flows of phase 3, and among flows of phase 4 with equal extras, lower flow numbers come first: R153 does
not order them (DESIGN CHOICE, log entry 86). -/
def capExtras (before fs : List AFlow) : List AFlow :=
  let ex := fs.filter fun x => x.extra != 0
  if ex.length ≤ 148 then fs
  else
    let p3 := ex.filter fun x => x.p3 != 0
    let p4 := (ex.filter fun x => x.p3 == 0).mergeSort fun x y => y.extra ≤ x.extra
    let keep := ((p3 ++ p4).take 148).map (·.f)
    fs.map fun x =>
      if x.extra = 0 || keep.contains x.f then x
      else
        let d := ((before.find? fun y => y.f == x.f).map (·.defr)).getD 0
        { x with a := x.a - x.extra, need := x.need + x.extra, defr := d, p4 := 0 }

/-- The computation of one direction: flows, rotations, the capacity and the slots set aside for ALLOT or DEMAND parts. -/
def allotment (fs : List AFlow) (rotC rotW cap lmcSlots horizon : Nat) (restart : Bool) : List AFlow × Nat × Nat :=
  let (f1, rotC', given) := phase1 (ctrlReserve cap) rotC fs 0
  let (f2, left2) := phase2 f1 (cap - given - lmcSlots)
  if restart then (f2, rotC', rotW)
  else
    let (f3, left3) := phase3 horizon f2 left2
    let (f4, _) := phase4 rotW (left3 + 1) f3 left3
    let next := match rotated rotW (fs.filter fun x => x.cls != 2) with
      | x :: _ => (x.f + 1) % 256
      | [] => rotW
    (capExtras fs f4, rotC', next)

/-! ## Backlog and slack (R151, R152, R154) -/

/-- FETCH_h(b): the line at which a head begins to fetch a band (R218). -/
def fetchLine (vactive b : Nat) : Nat := if b = 0 then vactive else 16 * (b - 1)

/-- SLACK of an IN flow with a pending deadline (R154). -/
def Chip.slackIn (c : Chip) (f dl : Nat) : Option Nat :=
  if dl = 0xFFF then none
  else
    let h := c.fld (FLOW_CFG.BEAM_HEAD f)
    if h = 7 then some (dl - 2)
    else if !c.on (HEAD_STATUS.SCANNING h) then some (c.fld CIRC_CTRL.HORIZON + 1)
    else
      let r := c.raster h
      let fetch := if c.headMode h = modeSurface then fetchLine r.vactive dl else Config.openFetch h dl c.epoch % max r.vtotal 1
      let lines := (fetch + r.vtotal - c.fld (HEAD_POS.LINE h) % (r.vtotal + 1)) % (max r.vtotal 1)
      some (lines * r.htotal * 1000000 / (max 1 r.pclk * Config.epochNs) - 1)

/-- SLACK of an OUT flow: the horizon less the age of its oldest queued cell (R154). R154 does not say what a flow without a queued
cell has; none is a DESIGN CHOICE (log entry 86). -/
def Chip.slackOut (c : Chip) (k : Lnk) (f : Nat) : Option Nat :=
  (c.outQ k f).head?.map fun q => c.fld CIRC_CTRL.HORIZON - (c.epoch - q.epoch)

/-- The last DEMAND's entry of a flow: backlog and DL. -/
def Sched.entry (s : Sched) (f : Nat) : Nat × Nat :=
  match s.demand with
  | none => (0, 0xFFF)
  | some d => match d.entries.find? fun e => e.1 == f with
    | some e => e.2
    | none => (0, 0xFFF)

/-- Backlog of a flow in a direction: its own queue OUT; the DEMAND IN, less cells received since when it is not the one of the
epoch before (R150, R151); the declared demand in the first 16 epochs and, IN, while DEMAND is stale (R151, R152). -/
def Chip.backlog (c : Chip) (k : Lnk) (dir f : Nat) : Nat :=
  let s := c.sched k
  let d := c.halfFor k dir f (c.flow f).decl
  if c.fld ⟨SCHED k.idx 0, 16, 8⟩ != 0 then d
  else if dir = 1 then (c.outQ k f).length
  else if c.on ⟨SCHED k.idx 0, 27, 1⟩ then d
  else if (s.demand.map (·.epoch)) == some ((c.epoch + 65535) % 65536) then (s.entry f).1
  else (s.entry f).1 - ((s.received.filter fun e => e.1 % 256 == f).map (·.2)).sum

/-- Cells a REKEY_WAIT flow may still receive (R156). -/
def Chip.rekeyRoom (c : Chip) (f : Nat) : Nat := 16 * c.fld (FLOW_CFG.HOLD_LIM f) - (c.flow f).rekeyIn

/-- A flow's place in the computation of a direction. -/
def Chip.aflow (c : Chip) (k : Lnk) (dir cap f : Nat) : AFlow :=
  let g := if f < 3 then 0 else c.halfFor k dir f (c.flow f).guar
  let ceil := if f < 3 then 0 else c.halfFor k dir f (c.flow f).ceil
  let cls := c.flowClass f
  let need := c.backlog k dir f
  let need := if f < 3 || c.flowState f = 1 then need else if dir = 0 then min need (c.rekeyRoom f) else 0
  let defFld : Fld := if c.flowDir k dir f = 0 then FLOW_DEF.DEF_IN f else FLOW_DEF.DEF_OUT f
  { f := f, cls := cls, g := g, need := need, room := if cls == 2 then g else if ceil != 0 then ceil else cap, a := 0, p3 := 0,
    p4 := 0, weight := c.fld (FLOW_CFG.WEIGHT f), defr := c.fld defFld
    slack := if cls != 3 then none else if dir = 0 then c.slackIn f ((c.sched k).entry f).2 else c.slackOut k f }

/-- The flows of a direction: CTRL flows 1 and 2, and those ACTIVE or, for their IN cells, REKEY_WAIT (R153, R156). -/
def Chip.dirFlows (c : Chip) (k : Lnk) : List Nat :=
  [1, 2] ++ c.liveFlows.filter fun f => c.crosses k f && (c.flowState f == 1 || c.flowState f == 3 && !c.draining f)

/-- The unmet demand D of a direction for the lane-direction decision: min(need, room) summed (R157). A flow without ceiling counts
its whole need, as the worked example does (DEDUCED, log entry 86). -/
def Chip.dirDemand (c : Chip) (k : Lnk) (dir : Nat) : Nat :=
  ((c.dirFlows k).map fun f => let x := c.aflow k dir (c.backlog k dir f) f; min x.need x.room).sum

/-- Store what the computation leaves in a flow's registers; a DEADLINE flow with need at SLACK 0 is late (R140, R154). The remainder
of a CTRL flow 1 or 2 is kept as that of any other. -/
def Chip.storeAllot (k : Lnk) (dir : Nat) (c : Chip) (x : AFlow) : Chip :=
  let late := x.cls == 3 && x.need != 0 && x.slack == some 0
  let c := c.setFld (if c.flowDir k dir x.f = 0 then FLOW_DEF.DEF_IN x.f else FLOW_DEF.DEF_OUT x.f) x.defr
  if late && !c.lateNow.contains x.f then
    ({ c with lateNow := c.lateNow ++ [x.f] }.count (FLOW_CNT.LATE x.f)).raise 67 (k.idx * 2 ^ 30 + x.f)
  else c

/-- The allotment of one direction for the epoch to come (R150, R153). `cap` is the capacity of the arrangement in force then. -/
def Chip.computeDir (c : Chip) (k : Lnk) (dir cap : Nat) : Chip :=
  let s := c.sched k
  let fs := (c.dirFlows k).map (c.aflow k dir cap)
  let lmc := if dir = 1 then max 1 s.allotParts else max 1 ((s.demand.map (·.parts)).getD 1)
  let (out, rc, rw) := allotment fs (if dir = 0 then s.rotCIn else s.rotCOut) (if dir = 0 then s.rotWIn else s.rotWOut) cap lmc
    (c.fld CIRC_CTRL.HORIZON) s.restart
  let c := fs.foldl (fun c x =>
    if c.ownerLink x.f != k then c
    else c.setFld (if c.flowDir k dir x.f = 0 then FLOW_BACKLOG.B_IN x.f else FLOW_BACKLOG.B_OUT x.f)
      (min (c.backlog k dir x.f) 4095)) c
  let c := out.foldl (Chip.storeAllot k dir) c
  let grants := out.map fun x => (x.f, x.a)
  let extras := (out.filter fun x => x.extra != 0).map fun x => (x.f, x.extra)
  c.modSched k fun s =>
    if dir = 0 then { s with rotCIn := rc, rotWIn := rw, nextIn := grants, nextExtraIn := extras, nextRes := ctrlReserve cap }
    else { s with rotCOut := rc, rotWOut := rw, nextOut := grants }

/-- The ALLOT for the epoch to come (R147): one part for each 37 extras, at least one. -/
def Chip.allotBodies (c : Chip) (k : Lnk) (cap : Nat) : List (List Byte) :=
  let es := (c.sched k).nextExtraIn
  let parts := if es.isEmpty then [[]] else chunks 37 es
  (parts.zip (List.range parts.length)).map fun (p, i) =>
    toBytes 1 (16 * i + parts.length) ++ toBytes 2 (c.epoch + 1) ++ toBytes 2 cap ++ toBytes 1 (ctrlReserve cap) ++
      toBytes 1 p.length ++ p.flatMap fun e => toBytes 3 (e.1 + 256 * e.2)

/-- Send the ALLOT (R150, step 4). -/
def Chip.sendAllot (c : Chip) (k : Lnk) (cap : Nat) : Chip :=
  let bs := c.allotBodies k cap
  (bs.foldl (fun c b => c.queueLmc k 0x30 b) c).modSched k fun s => { s with allotParts := bs.length }

/-- An epoch of declared demand has passed. -/
def Chip.countDecl (c : Chip) (k : Lnk) : Chip :=
  let f : Fld := ⟨SCHED k.idx 0, 16, 8⟩
  let n := c.fld f - 1
  (c.setFld f n).setFld ⟨SCHED k.idx 0, 28, 1⟩ (if n = 0 then 0 else 1)

end Sys2Proof.Machine
end

