-- ==== Sys2Proof/Machine/Keys.lean ====
section
/-! DEFINITION. Key commands, attestation, the life cycle, flow encryption, entropy and slot upkeep (R352–R371). -/

namespace Sys2Proof.Machine

/-! ## Results -/

/-- RESULT codes of KD_STATUS (R374). -/
def kdDone : Nat := 1
def kdNotReady : Nat := 2
def kdBadParam : Nat := 3
def kdSlotBusy : Nat := 4
def kdParentBad : Nat := 5
def kdCheckFail : Nat := 6
def kdConflict : Nat := 7
def kdBudget : Nat := 8
def kdProgramFail : Nat := 9
def kdNoRoot : Nat := 10
def kdInUse : Nat := 11
def kdBadPoint : Nat := 12

def entReady (c : Chip) : Bool := c.fld MUNI_STATUS.ENT == 1
/-- The start-up test has passed since the reset; a continuous failure later does not undo it (R75, R356, R357). -/
def entPassed (c : Chip) : Bool := entReady c || c.muni.contFail

def atKd (v : Word) (f : Fld) : Nat := f.get v

/-- The command ends: RESULT is set, BUSY and GO clear; one turned away raises EV231, one whose Folio write failed EV230. -/
def Chip.endKd (c : Chip) (dst code : Nat) : Chip :=
  let c := ((c.setFld KD_STATUS.RESULT code).setFld KD_STATUS.BUSY 0).setFld KD_CMD.GO 0
  if code = kdDone then c
  else if code = kdConflict || code = kdBudget || code = kdProgramFail then c.raise 230 (dst * 2 ^ 16)
  else c.raise 231 (dst * 2 ^ 16)

/-- A buffer of registers as bytes. -/
def Chip.regBytes (c : Chip) (addr : Nat → Nat) (n : Nat) : List Byte :=
  ((List.range ((n + 3) / 4)).flatMap fun i => toBytes 4 (c.reg (addr i)).toNat).take n

/-- Bytes placed in a buffer of registers. -/
def Chip.setRegBytes (c : Chip) (addr : Nat → Nat) (bs : List Byte) : Chip :=
  let ws := chunks 4 bs
  (ws.zip (List.range ws.length)).foldl (fun (c : Chip) p => c.setReg (addr p.2) (BitVec.ofNat 32 (ofBytes p.1))) c

/-! ## Key commands (R361–R364) -/

/-- The slot the command would leave in DST: its metadata before it takes a key. -/
def Chip.newSlot (c : Chip) (dst typ origin parent : Nat) (persist : Bool) : KeySlot :=
  let x := c.slot dst
  { x with state := 1, typ := typ, origin := origin, parent := parent, persist := persist, gen := (x.gen + 1) % 65536 }

/-- A slot as CLEAR and INVALIDATE leave it. -/
def KeySlot.cleared (x : KeySlot) : KeySlot :=
  { x with
      state := 0, typ := 0, origin := 0, persist := false, parent := 0, data := [], mask := [], check := 0,
           gen := (x.gen + 1) % 65536 }

/-- A command that changes a persistent slot writes the Folio first; the slots change when the write ends DONE (R362). An orphaned slot
leaves no record. -/
def Chip.persistSlots (c : Chip) (dst : Nat) (slots : Cells KeySlot) (inv : Option Nat) : Chip :=
  let stored := match inv with
    | some s => orphaned slots s
    | none => slots
  match c.ownerWrite writerMuniment 0x7000 0x9000 (c.keySection stored) with
  | (.granted, c) => c.modMuni fun m => { m with after := some slots, invalidated := inv, dst := dst }
  | (.conflict, c) => c.endKd dst kdConflict
  | (.budget, c) => c.endKd dst kdBudget

/-- The slots change now, or after the Folio write of a persistent one. -/
def Chip.commitSlot (c : Chip) (dst : Nat) (x : KeySlot) (persist : Bool) (inv : Option Nat) : Chip :=
  if persist then c.persistSlots dst (slotsSet c.muni.slots dst x) inv
  else
    let c := match inv with
      | some s => (c.boundFlows s).foldl (Chip.loseFlowKey s none (c.slot s).key) c |>.orphan s
      | none => c
    (c.setSlot dst x).endKd dst kdDone

/-- A key placed in DST. -/
def Chip.placeKey (c : Chip) (dst : Nat) (x : KeySlot) (key : List Byte) : Chip :=
  let (x, c) := c.fillSlotKey x key
  c.commitSlot dst x x.persist none

/-- A FLOW key takes bytes 0–39 of a derived block (R363). -/
def keyOfType (typ : Nat) (k : List Byte) : List Byte := if typ = 2 then k.take 40 ++ List.replicate 8 0 else k

/-- A parent key of a DERIVE: the root, or a VALID KDK. -/
def Chip.parentKey (c : Chip) (p : Nat) : Option (List Byte) × Chip :=
  if p = 0x7F then (c.muni.root, c) else if p < 64 then c.useSlot p 1 else (none, c)

def Chip.kdDerive (c : Chip) (v : Word) : Chip :=
  let dst := atKd v KD_CMD.DST
  let typ := atKd v KD_CMD.TYPE
  let par := atKd v KD_CMD.PARENT
  let per := atKd v KD_CMD.PERSIST == 1
  let ll := c.fld KD_LEN.LLEN
  let cl := c.fld KD_LEN.CLEN
  let buf := c.regBytes KD_IN 128
  let volatileParent := decide (par < 64) && !(c.slot par).persist
  if (buf.take ll).take 3 == asciiBytes "MH-" || (per && volatileParent) then c.endKd dst kdBadParam
  else if (c.slot dst).state != 0 then c.endKd dst kdSlotBusy
  else match c.parentKey par with
    | (none, c) => c.endKd dst kdParentBad
    | (some k, c) => c.placeKey dst (c.newSlot dst typ 0 par per) (keyOfType typ (kdf k (buf.take ll) ((buf.drop ll).take cl)))

def Chip.kdImport (c : Chip) (v : Word) : Chip :=
  let dst := atKd v KD_CMD.DST
  let typ := atKd v KD_CMD.TYPE
  let buf := c.regBytes KD_IN 52
  let x := c.newSlot dst typ 1 0xFF false
  if atKd v KD_CMD.PERSIST == 1 then c.endKd dst kdBadParam
  else if (c.slot dst).state != 0 then c.endKd dst kdSlotBusy
  else if !c.masked && ofBytes ((buf.drop 48).take 4) != x.checkOf (buf.take 48) then c.endKd dst kdCheckFail
  else c.placeKey dst x (buf.take 48)

/-- A private scalar drawn from the DRBG: a number from 1 to n − 1, as 48 big-endian bytes. -/
def scalarOf (bs : List Byte) : List Byte :=
  (toBytes 48 (ofBytesBig bs % (Config.p384Order - 1) + 1)).reverse

def Chip.kdEcdh (c : Chip) (v : Word) : Chip :=
  let dst := atKd v KD_CMD.DST
  let q := c.regBytes KD_IN 96
  match c.muni.root with
  | none => c.endKd dst kdNoRoot
  | some root =>
    if atKd v KD_CMD.PERSIST == 1 then c.endKd dst kdBadParam
    else if !Config.p384Valid (4 :: q) then c.endKd dst kdBadPoint
    else
      let (r, c) := c.random 48
      let d := scalarOf r
      let qd := fitBytes 96 ((Config.p384Public d).drop 1)
      let z := Config.p384Shared d (4 :: q)
      let (n, c) := c.fresh
      let sig := Config.p384Sign (c.identityKey root) (Config.sha384 (q ++ qd ++ c.colophonBytes)) n
      let c := c.setRegBytes KD_OUT (qd ++ fitBytes 96 sig)
      c.placeKey dst (c.newSlot dst 1 2 0xFF false) (kdf z (asciiBytes "MH-SESSION") (q ++ qd))

/-- CLEAR is turned away for a slot with a VALID child or bound to a flow that is not FREE. -/
def Chip.slotInUse (c : Chip) (s : Nat) : Bool :=
  ((List.range 64).any fun t => (c.slot t).state == 1 && (c.slot t).parent == s) ||
    (c.boundFlows s).any fun f => c.flowState f != 0

def Chip.kdClear (c : Chip) (v : Word) : Chip :=
  let dst := atKd v KD_CMD.DST
  let x := c.slot dst
  if c.slotInUse dst then c.endKd dst kdInUse else c.commitSlot dst x.cleared x.persist none

def Chip.kdInvalidate (c : Chip) (v : Word) : Chip :=
  let dst := atKd v KD_CMD.DST
  let x := c.slot dst
  c.commitSlot dst x.cleared x.persist (some dst)

/-- A refused OP or TYPE code, or lengths beyond KD_IN (R361), which the model checks for every key command (DESIGN CHOICE, log entry
94). -/
def Chip.kdMalformed (c : Chip) (v : Word) : Bool :=
  let op := atKd v KD_CMD.OP
  let typ := atKd v KD_CMD.TYPE
  op = 0 || 5 < op || (typ != 1 && typ != 2) || 128 < c.fld KD_LEN.LLEN + c.fld KD_LEN.CLEN

/-- A key command runs (R361). -/
def Chip.runKd (c : Chip) (v : Word) : Chip :=
  let dst := atKd v KD_CMD.DST
  let op := atKd v KD_CMD.OP
  if !entPassed c || (op = 3 && !entReady c) then c.endKd dst kdNotReady
  else if c.muni.root.isNone then c.endKd dst kdNoRoot
  else if c.kdMalformed v then c.endKd dst kdBadParam
  else match op with
    | 1 => c.kdDerive v
    | 2 => c.kdImport v
    | 3 => c.kdEcdh v
    | 4 => c.kdClear v
    | _ => c.kdInvalidate v

/-! ## Attestation (R370, R371) -/

def Chip.endAtst (c : Chip) (bit code : Nat) : Chip :=
  let c := (c.setFld ⟨ATST_CTRL, bit, 1⟩ 0).setFld ATST_STATUS.RESULT code
  c.setFld ATST_STATUS.BUSY (if c.on ATST_CTRL.GO || c.on ATST_CTRL.CERT_WRITE then 1 else 0)

/-- The map in force as attestation measures it (R384). -/
def Chip.mapMeasured (c : Chip) : List Byte :=
  let le (a b : RepEntry) : Bool :=
    a.kind < b.kind || (a.kind == b.kind && (a.unitNo < b.unitNo || (a.unitNo == b.unitNo && a.orig ≤ b.orig)))
  let part (fuse : Bool) : List Byte :=
    ((c.copp.map.filter fun e => e.fuse == fuse).mergeSort le).flatMap fun e => e.bytes fuse
  part true ++ part false ++ toBytes 4 (c.fld MON_STATUS.BAR)

/-- The lock record of a statement. -/
def Chip.lockRecord (c : Chip) : List Byte :=
  let locks := ((List.range 64).map fun p => if c.on (PAGE_CTRL.LOCK p) then 2 ^ p else 0).sum
  toBytes 8 locks ++ toBytes 4 (c.reg STRAP_STATUS).toNat ++ toBytes 4 (c.reg MUNI_CTRL).toNat ++ List.replicate 48 0

/-- Bytes 0x000–0x0F7 of a statement. -/
def Chip.statementBody (c : Chip) (nonce : List Byte) (epoch : Nat) : List Byte :=
  let (acc, dig) := match c.folio.active with
    | some m => (imgAccession m, Config.sha384 (imgBytes m 0x100 0xFEFC))
    | none => (0, List.replicate 48 0)
  let flags := c.fld FOLIO_STATUS.SHELF + 2 * c.fld MUNI_CTRL.MODE + 4 * c.fld LC_STATUS.PEND
  toBytes 2 1 ++ toBytes 2 344 ++ c.colophonBytes ++ nonce ++ toBytes 1 (c.fld LC_STATUS.STATE) ++ toBytes 1 flags ++ [0, 0] ++
    toBytes 4 acc ++ toBytes 6 epoch ++ [0, 0] ++ fitBytes 48 dig ++ fitBytes 48 (Config.sha384 c.mapMeasured) ++
    fitBytes 48 (Config.sha384 (Config.fuseImage c.fuses.state c.fuses.pending)) ++ fitBytes 48 (Config.sha384 c.lockRecord)

def Chip.runAtst (c : Chip) (nonce : List Byte) (epoch : Nat) : Chip :=
  if !entReady c then c.endAtst 31 2
  else match c.muni.root with
    | none => c.endAtst 31 3
    | some root =>
      let body := c.statementBody nonce epoch
      let (n, c) := c.fresh
      let sig := fitBytes 96 (Config.p384Sign (c.identityKey root) (Config.sha384 body) n)
      ((c.setRegBytes ATST_STMT (body ++ sig)).setFld ATST_STATUS.VALID 1).endAtst 31 1

/-- Whether a byte string contains another. -/
def containsBytes (xs : List Byte) : List Byte → Bool
  | [] => xs.isEmpty
  | y :: ys => xs.isPrefixOf (y :: ys) || containsBytes xs ys

def Chip.runCert (c : Chip) (burnOk : Bool) : Chip :=
  let st := c.fld LC_STATUS.STATE
  let n := c.fld ATST_CERT_SRC.LEN
  let bs := c.stkRead (4096 * c.fld ATST_CERT_SRC.BASE) n
  let bad := c.countBad (4096 * c.fld ATST_CERT_SRC.BASE) n
  if st != 1 && st != 2 then c.endAtst 30 5
  else if n = 0 || 2048 < n then c.endAtst 30 7
  else if !containsBytes (4 :: c.identityPublic) bs then bad.endAtst 30 4
  else if !burnOk then bad.endAtst 30 6
  else (bad.modMuni fun m => { m with cert := bs }).endAtst 30 1

/-! ## Life cycle (R354) -/

def Chip.endLc (c : Chip) (code : Nat) : Chip := (c.setFld LC_STATUS.RESULT code).setFld LC_CTRL.GO 0

/-- The transitions of R354. -/
def lcAllowed (s t : Nat) : Bool :=
  (s == 0 && t == 1) || (s == 1 && t == 2) || (s == 2 && t == 3) || (s == 3 && t == 1) || (s != 4 && t == 4)

def Chip.runLc (c : Chip) (v : Word) (burnOk : Bool) : Chip :=
  let s := c.fld LC_STATUS.STATE
  let t := atKd v LC_CTRL.TARGET
  if c.on LC_STATUS.PEND || atKd v LC_CTRL.CONFIRM != 0xA5 || !lcAllowed s t then c.endLc 2
  else if t = 2 && 4 ≤ c.fuses.seeds.length then c.endLc 3
  else if t = 2 && c.muni.seedWritten != 0xFFF then c.endLc 2
  else if !burnOk then c.endLc 4
  else
    let seeds := if t = 2 then c.fuses.seeds ++ [c.regBytes LC_SEED 48] else c.fuses.seeds
    let c := { c with fuses := { c.fuses with pending := t, seeds := seeds } }
    (((c.setFld LC_STATUS.PENDING t).setFld LC_STATUS.PEND 1).setFld LC_STATUS.SEED_USED seeds.length).endLc 1 |>.raise 228 0

/-! ## The order of GO writes (R361) -/

/-- Commands run one at a time in the order of their GO writes, until one waits for its Folio write. -/
def Chip.runKeys : Nat → Chip → Chip
  | 0, c => c
  | n + 1, c =>
    if c.muni.after.isSome then c
    else match c.muni.queue with
      | [] => c
      | q :: qs =>
        let c := c.modMuni fun m => { m with queue := qs }
        let c := match q with
          | .kd v => c.runKd v
          | .atst nonce epoch => c.runAtst nonce epoch
          | .cert ok => c.runCert ok
          | .lc v ok => c.runLc v ok
        Chip.runKeys n c

def Chip.queueKey (c : Chip) (q : KeyCmd) : Chip := (c.modMuni fun m => { m with queue := m.queue ++ [q] }).runKeys 8

/-- The Folio write of a persistent key command has ended (R362). -/
def Chip.keyWriteEnded (c : Chip) (ok : Bool) : Chip :=
  match c.muni.after with
  | none => c
  | some slots =>
    let inv := c.muni.invalidated
    let dst := c.muni.dst
    let c := c.modMuni fun m => { m with after := none, invalidated := none }
    let c := if ok then
        let c := match inv with
          | some s => (c.boundFlows s).foldl (Chip.loseFlowKey s none (c.slot s).key) c |>.orphan s
          | none => c
        let c := c.modMuni fun m => { m with
            slots := (List.range 64).foldl (fun acc s =>
            let y := slotsGet slots s
            if (c.slot s).gen = y.gen then acc else slotsSet acc s y) m.slots }
        c.endKd dst kdDone
      else c.endKd dst kdProgramFail
    c.runKeys 8

/-- A write of KD_CMD: GO starts the command unless one is queued or running (R361). -/
def Chip.writeKdCmd (c : Chip) (v : Word) : Chip :=
  let c := c.writeMasked KD_CMD v
  if !v.getLsbD 31 || c.on KD_STATUS.BUSY then c
  else ((c.setFld KD_CMD.GO 1).setFld KD_STATUS.BUSY 1).queueKey (.kd v)

/-- R363. -/
def execDerive (v : Word) (s : State) : Host.Outcome State Fault Refusal := s.run fun c => c.writeKdCmd v
/-- R361. -/
def execImportKey (v : Word) (s : State) : Host.Outcome State Fault Refusal := s.run fun c => c.writeKdCmd v
/-- R364. -/
def execEcdh (v : Word) (s : State) : Host.Outcome State Fault Refusal := s.run fun c => c.writeKdCmd v
/-- R361. -/
def execClear (v : Word) (s : State) : Host.Outcome State Fault Refusal := s.run fun c => c.writeKdCmd v
/-- R361, R368. -/
def execInvalidate (v : Word) (s : State) : Host.Outcome State Fault Refusal := s.run fun c => c.writeKdCmd v

/-- A write of ATST_CTRL: while BUSY is 0 each trigger written 1 starts its command, GO before CERT_WRITE (R361; the order is a DESIGN
CHOICE, log entry 94). GO takes the nonce and the epoch count and clears the statement buffer (R370, R371). -/
def Chip.writeAtstCtrl (c : Chip) (v : Word) (burnOk : Bool) : Chip :=
  if c.on ATST_STATUS.BUSY then c
  else
  let cert := v.getLsbD 30
  let c := if cert then (c.setFld ATST_CTRL.CERT_WRITE 1).setFld ATST_STATUS.BUSY 1 else c
  let c := if v.getLsbD 31 then
      let c := (((c.setFld ATST_CTRL.GO 1).setFld ATST_STATUS.BUSY 1).setFld ATST_STATUS.VALID 0).clearRegs
        ((List.range 86).map ATST_STMT)
      c.queueKey (.atst (c.regBytes ATST_NONCE 32) c.epoch)
    else c
  if cert then c.queueKey (.cert burnOk) else c

/-- R370. -/
def execAtstGo (v : Word) (s : State) : Host.Outcome State Fault Refusal := s.run fun c => c.writeAtstCtrl v true
/-- R371. `burnOk` says whether the sector programmed. -/
def execCertWrite (v : Word) (burnOk : Bool) (s : State) : Host.Outcome State Fault Refusal :=
  s.run fun c => c.writeAtstCtrl v burnOk

/-- A write of LC_CTRL (R354). -/
def Chip.writeLcCtrl (c : Chip) (v : Word) (burnOk : Bool) : Chip :=
  let c := c.writeMasked LC_CTRL v
  if !v.getLsbD 31 || c.on LC_CTRL.GO then c else (c.setFld LC_CTRL.GO 1).queueKey (.lc v burnOk)

/-- R354. `burnOk` says whether the fuses burned. -/
def execLcGo (v : Word) (burnOk : Bool) (s : State) : Host.Outcome State Fault Refusal := s.run fun c => c.writeLcCtrl v burnOk

/-- A write of LC_SEED: the word is kept and counts as written since the last reset (R354). -/
def Chip.writeLcSeed (c : Chip) (i : Nat) (v : Word) : Chip :=
  (c.setReg (LC_SEED i) v).modMuni fun m => { m with seedWritten := m.seedWritten ||| 2 ^ i }

/-! ## Rebinding (R367, R369) -/

/-- A write of a flow-key entry: one that changes SLOT, or any while BOUND is 0, is a rebinding, which takes effect at the next
epoch boundary; a rebinding to a slot other than a VALID FLOW slot is ignored with BAD_PARAM. -/
def Chip.writeFlowKey (c : Chip) (f : Nat) (v : Word) : Chip :=
  let slot := (FLOW_KEY.SLOT f).get v
  let rebinds := !c.on (FLOW_KEY.BOUND f) || slot != c.fld (FLOW_KEY.SLOT f)
  if !rebinds then c.writeMasked (FLOW_KEY f) v
  else if !(c.slot slot).usable 2 then c.setFld KD_STATUS.RESULT kdBadParam
  else (c.writeMasked (FLOW_KEY f) v).modKeyFlow f fun x => { x with rebind := some slot }

/-- R367. -/
def execRebinding (f : Fin 256) (v : Word) (s : State) : Host.Outcome State Fault Refusal := s.run fun c => c.writeFlowKey f v

/-! ## Sealing and opening (R366, R367) -/

/-- Additional data of a message (R366). -/
def sealAad (f dir kgen cls : Nat) (lens : List Nat) : List Byte :=
  toBytes 1 f ++ toBytes 1 dir ++ toBytes 2 kgen ++ toBytes 1 lens.length ++ toBytes 1 (cls % 8) ++
    lens.map fun n => BitVec.ofNat 8 (n % 128)

/-- The nonce: salt of the direction, then CTR big-endian. -/
def sealNonce (salt : List Byte) (ctr : Nat) : List Byte := salt ++ (toBytes 8 ctr).reverse

/-- The discard counter of a flow's endpoint. -/
def Chip.endpointDiscard (c : Chip) (f : Nat) : Chip :=
  match c.fld (FLOW_CFG.ENDPOINT f) with
  | 7 => c.count PCIE_STATUS.TLP_REJ
  | 8 => c.count ENET_CNT.RX_DROP
  | 9 => c.count HUB_STATUS.TUN_REJ
  | _ => c

/-- An OUT message of an encrypted flow is sealed and queued with its seal cell; one of 64 cells is discarded and counted. -/
def Chip.sealMsg (c : Chip) (f cls : Nat) (cells : List (Nat × List Byte)) : Chip :=
  if !c.on (FLOW_CFG.ENC f) || c.flowState f != 1 || c.safe || cells.isEmpty then c
  else if 63 < cells.length then c.endpointDiscard f
  else match (c.keyFlow f).cur with
    | none => c
    | some s => match c.useSlot s 2 with
      | (none, c) => c
      | (some key, c) =>
        let x := c.keyFlow f
        let kgen := c.fld (FLOW_KEY.KGEN f)
        let lens := cells.map (·.1)
        let text := cells.flatMap fun p => fitBytes 120 p.2
        let r := Config.aesGcm (key.take 32) (sealNonce ((key.drop 36).take 4) x.ctrOut) (sealAad f 1 kgen cls lens) text
        let tail := toBytes 8 x.ctrOut ++ toBytes 2 kgen ++ List.replicate 6 0 ++ fitBytes 16 r.2
        let texts := chunks 120 (fitBytes (120 * lens.length) r.1)
        let body := ((lens.zip texts).zip (List.range lens.length)).map fun p =>
          ({ typ := 8 + cls % 8, len := p.1.1, payload := p.1.2, epoch := c.epoch, first := p.2 == 0 } : QCell)
        let k := c.sideLink f
        let q := body ++ [{ typ := cls % 8, len := 4, payload := fitBytes 120 tail, epoch := c.epoch }]
        (c.queueCells k f q).modKeyFlow f fun x => { x with ctrOut := x.ctrOut + 1 }

/-- R366. -/
def execSeal (f : Fin 256) (cls : Fin 8) (cells : List (Nat × List Byte)) (s : State) : Host.Outcome State Fault Refusal :=
  s.run fun c => c.sealMsg f cls cells

/-- The IN counter of a flow's current binding, or of the previous one, with whether a message has been accepted. -/
def KeyFlow.inCtr (x : KeyFlow) (old : Bool) : Nat × Bool := match old, x.prev with
  | true, some p => (p.ctrIn, p.seen)
  | _, _ => (x.ctrIn, x.seen)

/-- A binding has accepted a message with a counter. -/
def KeyFlow.accept (x : KeyFlow) (old : Bool) (ctr : Nat) : KeyFlow :=
  if old then { x with prev := x.prev.map fun p => { p with ctrIn := ctr + 1, seen := true } }
  else { x with ctrIn := ctr + 1, seen := true }

/-- A message is opened with a key of the current or the previous binding and released, or rejected whole, counted, with EV235
(R367). -/
def Chip.openWith (c : Chip) (k : Lnk) (f kgen : Nat) (m : SealedMsg) (key : List Byte) (old : Bool) : Chip :=
  let (next, seen) := (c.keyFlow f).inCtr old
  let ctr := ofBytes (m.tail.take 8)
  let ctrOk := if c.isIso f then !seen || decide (next < ctr + 1) else ctr == next
  let text := Config.aesGcmOpen (key.take 32) (sealNonce ((key.drop 32).take 4) ctr) (sealAad f 0 kgen m.cls m.lens)
    (m.cells.flatMap (fitBytes 120)) ((m.tail.drop 16).take 16)
  match text with
  | some t =>
    if !ctrOk then (c.count MUNI_CNT.AUTH_FAIL).raise 235 f
    else
      let bytes := (m.lens.zip (chunks 120 (fitBytes (120 * m.lens.length) t))).flatMap fun p => p.2.take (8 * p.1)
      (c.modKeyFlow f fun x => x.accept old ctr).emit
        (.delivered k f (m.cls % 8) bytes)
  | none => (c.count MUNI_CNT.AUTH_FAIL).raise 235 f

/-- The key that KGEN names: the previous binding's within 2 epochs of the rebinding (true beside it), or the current one's. -/
def Chip.keyFor (c : Chip) (f kgen : Nat) : Option (List Byte × Bool) × Chip :=
  let x := c.keyFlow f
  match x.prev.filter fun p => p.kgen == kgen && decide (c.epoch ≤ p.epoch + 2) with
  | some p => (some (p.key, true), c)
  | none =>
    if kgen != c.fld (FLOW_KEY.KGEN f) then (none, c)
    else match x.cur with
      | some s => let r := c.useSlot s 2; (r.1.map fun k => (k, false), r.2)
      | none => (none, c)

/-- Cells a list of held messages takes, seal cells included. -/
def heldCells (ms : List (Lnk × SealedMsg)) : Nat := (ms.map fun m => m.2.cells.length + 1).sum

/-- Cells in the engine's hold store. -/
def Chip.holdStore (c : Chip) : Nat := (c.muni.flows.map fun p => heldCells p.2.held).sum

/-- A message is rejected whole (R367). -/
def Chip.rejectSealed (c : Chip) (f : Nat) : Chip := (c.count MUNI_CNT.AUTH_FAIL).raise 235 f

/-- The KGEN of a seal cell. -/
def kgenOf (m : SealedMsg) : Nat := ofBytes ((m.tail.drop 8).take 2)

/-- A message opened after its slot was lost, with the key kept for the current binding, or with the one before it as R367 lets it;
one whose KGEN names neither is rejected. -/
def Chip.openKept (c : Chip) (k : Lnk) (f : Nat) (m : SealedMsg) (key : List Byte) : Chip :=
  match (c.keyFlow f).prev.filter fun p => p.kgen == kgenOf m && decide (c.epoch ≤ p.epoch + 2) with
  | some p => c.openWith k f (kgenOf m) m p.key true
  | none => if kgenOf m = c.fld (FLOW_KEY.KGEN f) then c.openWith k f (kgenOf m) m key false else c.rejectSealed f

/-- An IN message arrives with its seal cell: one that was under way when the key was lost is finished with that key; held in
REKEY_WAIT within the limits, else opened (R367, R368). -/
def Chip.openMsg (c : Chip) (k : Lnk) (f : Nat) (m : SealedMsg) : Chip :=
  if !c.on (FLOW_CFG.ENC f) || c.safe then c
  else
  let c := c.modMuni fun y => { y with entered := y.entered.erase (f, m.cls % 8) }
  let x := c.keyFlow f
  if c.flowState f != 0 && x.early.contains (m.cls % 8) then
    (c.modKeyFlow f fun x => { x with early := x.early.erase (m.cls % 8) }).openKept k f m x.earlyKey
  else if c.flowState f = 3 then
    let n := heldCells x.held + m.cells.length + 1
    if n ≤ 16 * c.fld (FLOW_CFG.HOLD_LIM f) && c.holdStore + m.cells.length + 1 ≤ 4096 then
      (c.modKeyFlow f fun x => { x with held := x.held ++ [(k, m)] }).modFlow f fun e => { e with rekeyIn := n }
    else (c.count MUNI_CNT.HOLD_DROP).raise 234 f
  else if c.flowState f != 1 && c.flowState f != 2 then c
  else
    match c.keyFor f (kgenOf m) with
    | (none, c) => c.rejectSealed f
    | (some (key, old), c) => c.openWith k f (kgenOf m) m key old

/-- R367. -/
def execOpenMsg (k : Lnk) (f : Fin 256) (m : SealedMsg) (s : State) : Host.Outcome State Fault Refusal :=
  s.run fun c => c.openMsg k f m

/-- Held messages are opened with the key that sealed them, or discarded where HELD is 1 or the key is lost (R369). -/
def Chip.openHeld (c : Chip) (f : Nat) : Chip :=
  let x := c.keyFlow f
  match x.heldKey, c.on (FLOW_KEY.HELD f) with
  | some key, false =>
    let c := (c.modKeyFlow f fun x => { x with held := [], heldKey := none }).modFlow f fun e => { e with rekeyIn := 0 }
    x.held.foldl (fun c km => c.openKept km.1 f km.2 key) c
  | _, _ => c.dropHeld f

/-- The binding in force as the one before a rebinding made now. -/
def Chip.binding (c : Chip) (f : Nat) : Option KeyPrev :=
  let x := c.keyFlow f
  match x.cur with
  | some t =>
    let y := c.slot t
    if y.data.isEmpty then none
    else some { key := y.key, kgen := c.fld (FLOW_KEY.KGEN f), epoch := c.epoch, ctrIn := x.ctrIn, seen := x.seen }
  | none => none

/-- A rebinding whose slot is no VALID FLOW slot any more is ignored at the boundary as at its write (R367;
DESIGN CHOICE, log entry 94). -/
def Chip.dropRebind (c : Chip) (f : Nat) : Chip :=
  let c := c.modKeyFlow f fun x => { x with rebind := none }
  (c.setFld (FLOW_KEY.SLOT f) ((c.keyFlow f).cur.getD 0)).setFld KD_STATUS.RESULT kdBadParam

/-- Rebindings take effect at the epoch boundary: KGEN rises, counters restart, and a REKEY_WAIT flow becomes ACTIVE, or goes on draining,
with its held messages first (R367, R369). -/
def Chip.applyRebind (c : Chip) (f : Nat) : Chip :=
  match (c.keyFlow f).rebind with
  | none => c
  | some s =>
    if !(c.slot s).usable 2 then c.dropRebind f
    else
    let wait := c.flowState f = 3
    let state := if c.draining f then 2 else 1
    let c := if wait then c.openHeld f else c
    let old := c.binding f
    let c := c.modKeyFlow f fun x => { x with cur := some s, rebind := none, prev := old, ctrOut := 0, ctrIn := 0, seen := false, early := [] }
    let c := (c.setFld (FLOW_KEY.BOUND f) 1).setFld (FLOW_KEY.KGEN f) (c.fld (FLOW_KEY.KGEN f) + 1)
    if wait then c.setFlowState f state else c

def Chip.applyRebinds (c : Chip) : Chip := (List.range 256).foldl Chip.applyRebind c

/-! ## Entropy (R356, R357) -/

/-- A record whose key the store recovers when ENT reads READY: unwrapped, or checked in CHECKED mode (R360). -/
def Chip.recordKey (c : Chip) (root bs : List Byte) (x : KeySlot) : Option (List Byte) :=
  if c.masked then (Config.aesKeyUnwrap (storageKey root) (bs.take 56)).map (fitBytes 48)
  else if ofBytes ((bs.drop 48).take 4) == x.checkOf (bs.take 48) then some (bs.take 48) else none

/-- Skipped records are counted and reported once with EV232 (R360). -/
def Chip.skipRecords (c : Chip) (n : Nat) : Chip :=
  if n = 0 then c
  else
    let c := c.count MUNI_STATUS.SKIPPED n
    if c.muni.skipTold then c else (c.modMuni fun m => { m with skipTold := true }).raise 232 0

/-- The loaded records become live (R356, R360). -/
def Chip.liveRecords (c : Chip) : Chip :=
  match c.muni.root with
  | none => c
  | some root =>
    let rs := c.muni.loading
    rs.foldl (fun c r =>
      let b (i : Nat) : Nat := (r.2.getD i 0).toNat
      let s := b 56 % 64
      let x : KeySlot := { state := 1, typ := b 57, origin := 0, persist := true, parent := b 58, phys := r.1,
                           gen := b 60 + 256 * b 61, data := [], mask := [], check := 0 }
      match c.recordKey root r.2 x with
      | none => c.skipRecords 1
      | some key => let (x, c) := c.fillSlotKey x key; (c.setSlot s x).count MUNI_STATUS.LOADED) (c.modMuni fun m => { m with loading := [] })

/-- The entropy source runs: step 4 has begun and the security domain is on (R54, R319). -/
def entRuns (c : Chip) : Bool := decide (4 ≤ c.boot.step) && !c.resting 3

/-- The start-up test ends (R356), or the repeat after a continuous failure (R357). -/
def Chip.entropyTest (c : Chip) (pass : Bool) : Chip :=
  if !entRuns c || entReady c || (3 ≤ c.muni.entFails && !c.muni.contFail) then c
  else if pass then
    let (n, c) := c.fresh
    let c := c.modMuni fun m => { m with entFails := 0, contFail := false, seed := n }
    (c.setFld MUNI_STATUS.ENT 1).liveRecords
  else if c.muni.contFail then c.raise 224 0
  else
    let c := (c.modMuni fun m => { m with entFails := m.entFails + 1 }).raise 224 0
    if 3 ≤ c.muni.entFails then c.setFld MUNI_STATUS.ENT 2 else c

/-- R356. -/
def execEntropyTest (pass : Bool) (s : State) : Host.Outcome State Fault Refusal := s.run fun c => c.entropyTest pass

/-- R357. The DRBG takes a fresh seeding while the source is healthy. -/
def execReseed (s : State) : Host.Outcome State Fault Refusal :=
  s.run fun c => if entRuns c && entReady c then let (n, c) := c.fresh; c.modMuni fun m => { m with seed := n } else c

/-- R357. -/
def execContinuousTestFail (s : State) : Host.Outcome State Fault Refusal :=
  s.run fun c =>
    if entRuns c && entReady c then ((c.setFld MUNI_STATUS.ENT 2).modMuni fun m => { m with contFail := true }).raise 225 0 else c

/-! ## Re-mask and scrub (R359) -/

/-- Every slot is rewritten under a fresh mask. -/
def Chip.remaskAll (c : Chip) : Chip :=
  (List.range 64).foldl (fun c s =>
    let x := c.slot s
    if x.data.isEmpty then c
    else let (m, c) := c.random 48; c.setSlot s { x with data := xorBytes x.key m, mask := m }) c

/-- A pass: refused for its lock or unit, else made. -/
def Chip.remaskPass (c : Chip) : Chip :=
  if !entReady c then c
  else match c.maintAnswer [.keys] with
    | .granted => c.remaskAll.modMuni fun m => { m with remaskDone := true, remaskMissed := 0 }
    | _ => c.maintRefuse 0x20

/-- A period begins: one that ended without a pass counts, and two such raise EV227 (R359). -/
def Chip.remaskPeriod (c : Chip) : Chip :=
  let missed := if c.muni.remaskDone then 0 else c.muni.remaskMissed + 1
  let c := if 2 ≤ missed then (c.count MUNI_CNT.REMASK_OVERDUE).raise 227 0 else c
  (c.modMuni fun m => { m with remaskDone := false, remaskMissed := missed }).remaskPass

/-- R359. A retry falls due 1 ms after a refused pass. No re-masking runs in CHECKED mode, while the security domain rests (R323), nor in
safe state, where maintenance activities end (R405). -/
def execRemask (retry : Bool) (s : State) : Host.Outcome State Fault Refusal :=
  s.run fun c =>
    if !c.masked || c.resting 3 || c.safe then c
    else if retry then (if c.muni.remaskDone then c else c.remaskPass)
    else c.remaskPeriod

/-- A failing slot moves to a spare physical slot, keeping number and key; a persistent one's record is rewritten (R375). -/
def Chip.repairSlot (c : Chip) (s : Nat) : Chip :=
  let x := c.slot s
  if !c.repairOn then c
  else match c.nextSpare kSlot 0 with
    | none => c.noteExhausted kSlot 0 x.phys
    | some p =>
      if c.recovering || c.maintAnswer [.keys] != .granted then
        (if c.recovering then c else c.maintRefuse 0x22).modCopp fun y => if y.waitSlots.contains s then y else { y with waitSlots := y.waitSlots ++ [s] }
      else
        let y := { x with phys := p }
        let y := { y with check := if y.mask.isEmpty && !y.data.isEmpty then y.checkOf y.key else y.check }
        let c := (c.setSlot s y).modCopp fun z => { z with waitSlots := z.waitSlots.filter fun t => t != s }
        let c := if 64 ≤ x.phys then c.retireSpare kSlot 0 x.phys else c
        let c := if y.persist then (c.ownerWrite writerMuniment 0x7000 0x9000 (c.keySection c.muni.slots)).2 else c
        c.noteRepair kSlot 0 x.phys p

/-- One finding of a scrub: a corrected word, or a slot that cannot be corrected. -/
def Chip.scrubFinding (c : Chip) (r : Nat × Bool) : Chip :=
  let x := c.slot r.1
  if x.state = 0 || x.state = 3 then c
  else if r.2 || !c.masked then
    let c := c.makeBad r.1
    if c.repairs 226 then c.repairSlot r.1 else c
  else if c.muni.corrected.contains x.phys then
    (c.modMuni fun m => { m with corrected := m.corrected.filter fun p => p != x.phys }).repairSlot r.1
  else c.modMuni fun m => { m with corrected := m.corrected ++ [x.phys] }

/-- R359. `found` lists the slots in which the pass finds a bad word, and whether it cannot be corrected. -/
def execSlotScrub (found : List (Fin 64 × Bool)) (s : State) : Host.Outcome State Fault Refusal :=
  s.run fun c =>
    if !c.on MUNI_CTRL.SCRUB_EN || c.resting 3 || c.safe then c
    else match c.maintAnswer [.keys] with
      | .granted => (found.map fun p => (p.1.val, p.2)).foldl Chip.scrubFinding c
      | _ => c.maintRefuse 0x21

/-! ## Keys cleared at a life-cycle change (R355) -/

/-- Both copies are valid with an all-zero key-slot section. -/
def Chip.keyFoliosClear (c : Chip) : Bool :=
  [0, 1].all fun t => c.on (validFld t) && (imgPart (c.copyOf t) 0x7000 0x9000).isEmpty

/-- While the state is RETURN or SCRAPPED the store asks for the next all-zero write. -/
def Chip.clearKeyFolios (c : Chip) : Chip :=
  if !c.folio.keyClear then c
  else if c.keyFoliosClear then { c with folio := { c.folio with keyClear := false } }
  else (c.ownerWrite writerClear 0x7000 0x9000 []).2

/-- R355. -/
def execKeyFolioClear (s : State) : Host.Outcome State Fault Refusal :=
  s.run fun c => if c.folio.job.isSome then c else c.clearKeyFolios

end Sys2Proof.Machine
end

