-- ==== Sys2Proof/Machine/PdPorts.lean ====
section
/-! DEFINITION. The Power Delivery ports: attach and detach, contracts, role swaps, the cable, Hard Reset, input loss with Fast Role
Swap, and trips (R282–R304, R310). -/

namespace Sys2Proof.Machine

/-! ## Shared -/

/-- Type-C Current advertised: Default, 1.5 A, 3.0 A, in mA (R305). -/
def advMa (cur : Nat) : Nat := [900, 1500, 3000].getD cur 900

/-- The implicit contract of an attached source. -/
def Chip.implicit (c : Chip) (p : Nat) : Chip :=
  c.setContract p { pos := 0, mv := 5000, ma := (c.pdPort p).adv, typ := 1, mismatch := false }

/-- A contract, an attach or a role has changed: the feed is judged and the allocator walks. -/
def Chip.powerChanged (c : Chip) : Chip := c.refeed

/-- A message of the partner is answered with Reject. -/
def Chip.sendReject (c : Chip) (p : Nat) : Chip := (c.count (PD_CNT.REJECTS p)).sendPd p .reject

/-- Discover Identity to SOP', where the port supplies VCONN and there is a cable to ask (R292). -/
def Chip.discoverCable (c : Chip) (p : Nat) : Chip :=
  if p < 2 && c.on (PD_STATUS.VCONN p) && !(p = 1 && c.paired) then c.sendPd p (.discover true) else c

/-- A discharge that has not failed is over: an attached sink gets vSafe5V again. -/
def Chip.settle (c : Chip) (p : Nat) : Chip :=
  let x := c.pdPort p
  if x.discharge.isSome && !x.stuck then (c.modPd p fun y => { y with discharge := none }).closeSource p else c

/-! ## Attach (R283, R284, R338) -/

/-- The fields of a partner's attach. -/
def Chip.attach (c : Chip) (p : Nat) (source flip : Bool) : Chip :=
  let one (b : Bool) : Nat := if b then 1 else 0
  let c := ((c.setFld (PD_STATUS.ATTACHED p) 1).setFld (PD_STATUS.SOURCE p) (one source)).setFld (PD_STATUS.DFP p) (one (p == 1))
  let c := (c.setFld (PD_STATUS.VCONN p) (one source)).setFld (PD_STATUS.FLIP p) (one flip)
  let c := if p = 0 then c.setFld (PD_STATUS.MODE 0) 1 else c
  (c.raise (192 + p) p).latchWake 7

/-- UL has become Source and the allocator cannot grant its floor: the dock asks for the Sink role (R291). -/
def Chip.floorCheck (c : Chip) : Chip :=
  if c.isSource 0 && !(c.runWalk c.pIn).got.contains itUl then c.leaveSource else c

/-- Rd has held on a port that presents Rp: UL with input power, or CS, whose switch stays open until step 12 (R54, R56). -/
def Chip.sinkAttach (c : Chip) (p : Nat) (flip : Bool) : Chip :=
  if !c.pdOn p || c.attached p || c.safe || c.boot.step < 1 || (p = 0 && !c.inputPresent) then c
  else
    let c := (c.modPd p fun x => { x with discharge := none, stuck := false }).attach p true flip
    ((((c.discoverCable p).syncUpstream).walk).closeSource p).floorCheck

/-- R283. -/
def execSinkAttach (p : Fin 2) (flip : Bool) (s : State) : Host.Outcome State Fault Refusal := s.run fun c => c.sinkAttach p flip

/-- A source attaches, with VBUS and an advertised current, to PI or to UL. With input power UL presents Rd in turn with Rp, and a port that
presents Rp only finds it a Sink (R338). -/
def Chip.sourceAttach (c : Chip) (p cur : Nat) (flip : Bool) : Chip :=
  if !c.pdOn p || c.attached p || c.boot.step < 1 then c
  else
    let c := (c.modPd p fun x => { x with adv := advMa cur, off := false }).attach p false flip
    let c := if p = 2 && !c.sourceOn 0 then { c with pd := { c.pd with loss := none } } else c
    ((c.implicit p).syncUpstream).powerChanged

/-- R283. -/
def execSourceAttach (pi : Bool) (cur : Fin 3) (flip : Bool) (s : State) : Host.Outcome State Fault Refusal :=
  s.run fun c => c.sourceAttach (if pi then 2 else 0) cur flip

/-! ## Detach (R283, R295, R302) -/

/-- What a detach clears; one during a voltage transition raises EV200 and EV201. -/
def Chip.detachFields (c : Chip) (p : Nat) (moving : Bool) : Chip :=
  let c := if moving && c.on (PD_STATUS.EXPLICIT p) then (c.raise 200 p).raise 201 p else c
  let c := if p = 0 then (c.endMode 0).setFld (PD_STATUS.MODE 0) 0 else if p = 1 then c.endCs 0 else c
  let c := ((c.openSource p).dropContract p).clearCable p
  let c := ((c.setFld (PD_STATUS.ATTACHED p) 0).setFld (PD_STATUS.SOURCE p) 0).setFld (PD_STATUS.DFP p) 0
  let c := (c.setFld (PD_STATUS.VCONN p) 0).setFld (PD_STATUS.FLIP p) 0
  let c := c.modPd p fun x => { x.noSwap with tripped := false, off := false, trips := [], adv := 900 }
  let c := if p = 0 then { c with pd := { c.pd with frs := .idle, failed := false } } else c
  ((c.raise (192 + p) p).latchWake 7).syncUpstream

def Chip.detach (c : Chip) (p : Nat) (moving : Bool) : Chip :=
  if c.attached p then (c.detachFields p moving).powerChanged else c

/-- R283. `moving` says that a voltage transition is in progress. -/
def execSinkDetach (p : Fin 2) (moving : Bool) (s : State) : Host.Outcome State Fault Refusal :=
  s.run fun c => if c.isSource p then c.detach p moving else c

/-- R283. -/
def execSourceDetach (moving : Bool) (s : State) : Host.Outcome State Fault Refusal :=
  s.run fun c => if c.isSource 0 then c else c.detach 0 moving

/-! ## As a sink (R286–R288) -/

/-- Offers with their object positions: SPR from 1, EPR from 8. -/
def numberCaps : Nat → Nat → List Pdo → List (Nat × Pdo)
  | _, _, [] => []
  | a, b, o :: os => if o.epr then (b, o) :: numberCaps a (b + 1) os else (a, o) :: numberCaps (a + 1) b os

/-- The candidate of higher power, ties to the higher voltage. -/
def betterPdo (x y : Nat × Pdo) : Nat × Pdo :=
  let px := x.2.mv * x.2.ma
  let py := y.2.mv * y.2.ma
  if px < py || (px = py && x.2.mv < y.2.mv) then y else x

/-- Candidates of a port, none above the rating of its switch, and none for a switch that takes no input (R380). Step 3 has ended once
step 4 has begun (R284; log entry 12). -/
def Chip.candidates (c : Chip) (p : Nat) (caps : List Pdo) : List (Nat × Pdo) :=
  (numberCaps 1 8 caps).filter fun x =>
    c.switchWorks p && decide (x.2.ma ≤ c.ratedMa p) && if c.boot.step ≤ 3 then x.2.kind == .fixed && x.2.mv ≤ 5000
    else if p = 0 then x.2.kind == .fixed && !x.2.epr && x.2.mv ≤ 20000
    else (x.2.kind == .fixed || c.on (PD_SNK_CFG.APDO 2)) && (!x.2.epr || c.on (PD_STATUS.EPR 2))

/-- The Request for an offer. -/
def requestFor (x : Nat × Pdo) (mismatch : Bool) : PdReq :=
  { pos := x.1, mv := x.2.mv, ma := x.2.ma, mismatch := mismatch,
    typ := match x.2.kind with | .fixed => 2 | .pps => 3 | .avs => 4 }

/-- The Request of R286 for the offers received: none when they hold nothing the dock takes. -/
def Chip.chooseRequest (c : Chip) (p : Nat) (caps : List Pdo) : Option PdReq :=
  match c.candidates p caps with
  | [] => none
  | x :: xs =>
    let best := xs.foldl betterPdo x
    if best.2.mv * best.2.ma < 1000000 * c.fld (PD_SNK_CFG.MIN_W p) then
      ((numberCaps 1 8 caps).find? fun y => y.2.kind == .fixed && y.2.mv == 5000).map fun y => requestFor y true
    else some (requestFor best false)

/-- The dock sends the Request its offers call for. -/
def Chip.requestPower (c : Chip) (p : Nat) : Chip :=
  match c.chooseRequest p (c.pdPort p).caps with
  | none => c
  | some r =>
    let c := (c.modPd p fun x => { x with asked := some r, waited := false, tries := 0 }).sendPd p (.request r)
    if r.mismatch then c.raise 197 p else c

/-- Source_Capabilities arrive. EPR offers mean that EPR mode is entered, where PD_SNK_CFG permits it. -/
def Chip.sourceCaps (c : Chip) (p : Nat) (caps : List Pdo) : Chip :=
  if !c.sourceOn p || !c.pdOn p then c
  else
    let c := if (c.pdPort p).off then
        ((c.modPd p fun x => { x with off := false }).implicit p).powerChanged
      else c
    let epr := p = 2 && c.on (PD_SNK_CFG.EPR 2) && caps.any (·.epr)
    let c := (c.setFld (PD_STATUS.EPR p) (if epr then 1 else 0)).modPd p fun x => { x with caps := caps }
    c.requestPower p

/-- R286. -/
def execSourceCapabilities (pi : Bool) (caps : List Pdo) (s : State) : Host.Outcome State Fault Refusal :=
  s.run fun c => c.sourceCaps (if pi then 2 else 0) caps

/-- Every 8 s under a PPS or AVS contract as Sink. -/
def Chip.repeatRequest (c : Chip) (p : Nat) : Chip :=
  if !c.sourceOn p || c.fld (PD_CONTRACT.TYPE p) < 3 || (c.pdPort p).asked.isSome then c
  else
    let r := c.contractReq p
    (c.modPd p fun x => { x with asked := some r, waited := false, tries := 0 }).sendPd p (.request r)

/-- R287. -/
def execPpsRequestTimer (p : Fin 3) (s : State) : Host.Outcome State Fault Refusal := s.run fun c => c.repeatRequest p

/-! ## Roles (R282, R291, R300) -/

/-- The power role of UL, which supplies VCONN while it is Source (R282; DEDUCED for the change by a swap, log entry 56). -/
def Chip.setRole (c : Chip) (source : Bool) : Chip :=
  let one := if source then 1 else 0
  (c.setFld (PD_STATUS.SOURCE 0) one).setFld (PD_STATUS.VCONN 0) one

/-- UL becomes Source: vSafe5V follows once the allocator grants the floor, and the cable is asked if it is not known. -/
def Chip.becomeSource (c : Chip) : Chip :=
  let c := (c.dropContract 0).modPd 0 fun x => { x.noSwap with off := false }
  let c := ((((c.setRole true).powerChanged).closeSource 0).floorCheck)
  if c.on (PD_STATUS.CBL_DONE 0) then c else c.discoverCable 0

/-- UL becomes Sink on the partner's VBUS. -/
def Chip.becomeSink (c : Chip) (cur : Nat) : Chip :=
  let c := ((c.openSource 0).dropContract 0).modPd 0 fun x => { x.noSwap with off := false, discharge := none, adv := advMa cur }
  ((c.setRole false).implicit 0).powerChanged

/-- PR_Swap of the partner: accepted on UL towards the default role, otherwise rejected. -/
def Chip.takePrSwap (c : Chip) (p cur : Nat) : Chip :=
  if !c.attached p || !c.pdOn p then c
  else if p = 0 && !c.safe && c.isSource 0 != c.inputPresent then
    let c := c.sendPd 0 .accept
    if c.isSource 0 then c.becomeSink cur else c.becomeSource
  else c.sendReject p

/-- R282. -/
def execPrSwap (p : Fin 3) (cur : Fin 3) (s : State) : Host.Outcome State Fault Refusal := s.run fun c => c.takePrSwap p cur

/-- R282. -/
def execDrSwap (p : Fin 3) (s : State) : Host.Outcome State Fault Refusal :=
  s.run fun c => if c.attached p && c.pdOn p then c.sendReject p else c

/-- The VCONN source of UL changes; a dock that supplies it now asks the cable. CS supplies it always (R282). -/
def Chip.swapVconn (c : Chip) (p : Nat) : Chip :=
  if p != 0 then c else
  let on := !c.on (PD_STATUS.VCONN p)
  let c := c.setFld (PD_STATUS.VCONN p) (if on then 1 else 0)
  if on && !c.on (PD_STATUS.CBL_DONE p) then c.discoverCable p else c

/-- VCONN_Swap of the partner: accepted on UL and CS. -/
def Chip.takeVconnSwap (c : Chip) (p : Nat) : Chip :=
  if !c.attached p || !c.pdOn p then c
  else if p < 2 && !c.safe then (c.sendPd p .accept).swapVconn p
  else c.sendReject p

/-- R282. -/
def execVconnSwap (p : Fin 3) (s : State) : Host.Outcome State Fault Refusal := s.run fun c => c.takeVconnSwap p

/-! ## Answers to the dock (R286, R288, R291, R292) -/

/-- The contract that a Request asked for begins. The first on UL leads to VCONN_Swap for discovery. -/
def Chip.contractBegins (c : Chip) (p : Nat) (r : PdReq) : Chip :=
  let first := !c.on (PD_STATUS.EXPLICIT p)
  let c := (c.setContract p r).modPd p fun x => { x with asked := none, waited := false, tries := 0, off := false }
  let c := ({ c with pd := { c.pd with loss := none } }).powerChanged
  if p = 0 && first && c.on (PD_CTRL.VCS_REQ 0) && !c.on (PD_STATUS.VCONN 0) && !c.on (PD_STATUS.CBL_DONE 0) then c.askSwap .vconn
  else c

/-- An answer of the partner is to the dock's swap: one has been sent and not answered, and no Request is out (log entry 56). -/
def Chip.swapAsked (c : Chip) (p : Nat) : Option PdSwap :=
  let x := c.pdPort p
  if p = 0 && !x.swapWaited && (x.asked.isNone || x.waited) then x.swap else none

/-- Accept; `cur` is the current the partner advertises when it becomes Source. -/
def Chip.takeAccept (c : Chip) (p cur : Nat) : Chip :=
  match c.swapAsked p with
  | some .toSource => c.becomeSource
  | some .toSink => c.becomeSink cur
  | some .vconn => (c.swapVconn 0).endSwap
  | none =>
    match (c.pdPort p).asked with
    | some r => if c.sourceOn p then c.contractBegins p r else c
    | none => c

/-- R291. -/
def execAccept (p : Fin 3) (cur : Fin 3) (s : State) : Host.Outcome State Fault Refusal := s.run fun c => c.takeAccept p cur

/-- A swap of the dock is refused for now: PR_Swap is tried again at most three times, VCONN_Swap not at all. -/
def Chip.swapRefused (c : Chip) : Chip :=
  let x := c.pdPort 0
  if x.swap == some .vconn || 3 ≤ x.swapTries then c.endSwap else c.modPd 0 fun x => { x with swapWaited := true }

/-- Reject of a Request or a swap. -/
def Chip.takeReject (c : Chip) (p : Nat) : Chip :=
  if (c.swapAsked p).isSome then (c.count (PD_CNT.REJECTS p)).swapRefused
  else if (c.pdPort p).asked.isSome then
    (c.count (PD_CNT.REJECTS p)).modPd p fun y => { y with asked := none, waited := false, tries := 0 }
  else c

/-- R288. -/
def execReject (p : Fin 3) (s : State) : Host.Outcome State Fault Refusal := s.run fun c => c.takeReject p

/-- Wait: the Request is sent again on the schedule of R288, up to the eighth attempt. -/
def Chip.takeWait (c : Chip) (p : Nat) : Chip :=
  let x := c.pdPort p
  if (c.swapAsked p).isSome then (c.count (PD_CNT.WAITS p)).swapRefused
  else if x.asked.isNone then c
  else
    let c := c.count (PD_CNT.WAITS p)
    if 8 ≤ x.tries then (c.modPd p fun y => { y with asked := none, waited := false, tries := 0 }).raise 197 p
    else c.modPd p fun y => { y with waited := true }

/-- R288. -/
def execWait (p : Fin 3) (s : State) : Host.Outcome State Fault Refusal := s.run fun c => c.takeWait p

/-- A retry of the Request falls due. -/
def Chip.retryRequest (c : Chip) (p : Nat) : Chip :=
  let x := c.pdPort p
  match x.asked with
  | some r => if x.waited then (c.modPd p fun y => { y with waited := false, tries := y.tries + 1 }).sendPd p (.request r) else c
  | none => c

/-- R288. -/
def execWaitRetry (p : Fin 3) (s : State) : Host.Outcome State Fault Refusal := s.run fun c => c.retryRequest p

/-- 5 s after a Wait or Reject of PR_Swap. -/
def Chip.retrySwap (c : Chip) : Chip :=
  let x := c.pdPort 0
  if x.swapWaited && x.swap.isSome then
    (c.modPd 0 fun y => { y with swapWaited := false, swapTries := y.swapTries + 1 }).sendPd 0 .prSwap
  else c

/-- R288. -/
def execPrSwapRetry (s : State) : Host.Outcome State Fault Refusal := s.run fun c => c.retrySwap

/-! ## As a source (R289, R290, R310) -/

/-- The Request of the partner for an offer. -/
def Chip.partnerRequest (c : Chip) (p pos mv ma : Nat) : Option PdReq :=
  ((c.offers p).find? fun x => x.1 == pos).map fun x =>
    let r := requestFor x false
    { r with mv := if x.2.kind == .fixed then x.2.mv else mv, ma := ma }

/-- The partner has entered EPR mode on UL, which opens the 140 W level. -/
def Chip.enterEpr (c : Chip) : Chip :=
  if c.on (PD_STATUS.EPR 0) || !c.on (PD_SRC_CFG.EPR 0) || !c.on (PD_STATUS.CBL_EPR 0) || c.fld (PD_STATUS.CBL_CUR 0) != 2 then c
  else (c.setFld (PD_STATUS.EPR 0) 1).walk

/-- A Request of the partner: `epr` says it is in EPR mode, `stale` that the Request answers offers older than those of a level the
allocator is changing. -/
def Chip.answerRequest (c : Chip) (p pos mv ma : Nat) (epr stale : Bool) : Chip :=
  let c := if c.attached p && c.isSource p then c.settle p else c
  if c.safe && c.attached p && c.isSource p then c.sendReject p
  else if !(c.pdPort p).switch then c
  else
    let c := if epr && p = 0 then c.enterEpr else c
    if (c.pdPort p).levelMoving && stale then (c.count (PD_CNT.WAITS p)).sendPd p .wait
    else match c.partnerRequest p pos mv ma with
      | none => c.sendReject p
      | some r =>
        if c.inOffers p r then
          (((c.sendPd p .accept).setContract p r).setTrip p r.ma).modPd p fun x => { x with levelMoving := false, overLevel := false }
        else c.sendReject p

/-- A Request of the partner; the first contract on CS lets the peer be discovered (R297). -/
def Chip.takeRequest (c : Chip) (p pos mv ma : Nat) (epr stale : Bool) : Chip :=
  c.thenDiscover fun c => c.answerRequest p pos mv ma epr stale

/-- R290. -/
def execRequest (p : Fin 2) (pos : Fin 16) (mv ma : Nat) (epr stale : Bool) (s : State) : Host.Outcome State Fault Refusal :=
  s.run fun c => c.takeRequest p pos mv ma epr stale

/-! ## The cable (R292) -/

/-- What Discover Identity to SOP' found. -/
def Chip.cableFound (c : Chip) (p : Nat) (id : Option CableId) : Chip :=
  if !c.attached p || !c.on (PD_STATUS.VCONN p) || c.on (PD_STATUS.CBL_DONE p) || (p = 1 && c.paired) then c
  else
    let c := c.setFld (PD_STATUS.CBL_DONE p) 1
    match id with
    | none => c.walk
    | some x =>
      let c := ((c.setFld (PD_STATUS.CBL_EMARK p) 1).setFld (PD_STATUS.CBL_PASSIVE p) (if x.passive then 1 else 0)).setFld
        (PD_STATUS.CBL_CUR p) (if x.amps = 5 then 2 else 1)
      let c := c.setFld (PD_STATUS.CBL_EPR p) (if x.epr then 1 else 0)
      let c := (List.range 4).foldl (fun c i => c.setReg (PD_CBL p i) (x.words.getD i 0)) c
      (c.setTurnMedia p x.passive).walk

/-- R292. -/
def execCableDiscovery (p : Fin 2) (id : Option CableId) (s : State) : Host.Outcome State Fault Refusal :=
  s.run fun c => c.cableFound p id

/-! ## Hard Reset (R300, R301) -/

/-- UL takes its default role. While a Fast Role Swap is not complete and no input is present the host goes on sourcing. -/
def Chip.defaultRole (c : Chip) : Chip :=
  let present := c.inputPresent
  let source := c.isSource 0
  let frs := c.pd.frs != .idle
  let c := c.setRole present
  let c := { c with pd := { c.pd with frs := .idle, loss := if frs && !present then c.pd.loss else none } }
  if present then
    c.modPd 0 fun x => { x with discharge := if source && x.discharge.isNone && !frs then none else some c.timeNs, off := false }
  else (c.modPd 0 fun x => { x with off := !frs }).implicit 0

/-- A Hard Reset on a port, sent or received: its contract, swap, mode and cable are gone; UL returns to its default role. -/
def Chip.hardReset (c : Chip) (p : Nat) (sent : Bool) : Chip :=
  if !c.attached p then c
  else
    let c := if sent then c.sendPd p .hardReset else c
    let c := (c.count (PD_CNT.HARD_RESETS p)).raise 195 p
    let c := if p = 0 then c.endMode 0 else if p = 1 then c.endCs 0 else c
    let c := ((c.openSource p).dropContract p).clearCable p
    let c := c.modPd p PdPort.noSwap
    let c := if p = 0 then c.defaultRole
      else if p = 1 then c.setFld (PD_STATUS.VCONN 1) 1
      else c.implicit 2
    (c.discoverCable p).powerChanged

/-- R300. -/
def execHardReset (p : Fin 3) (s : State) : Host.Outcome State Fault Refusal := s.run fun c => c.hardReset p false

/-- A write of PD_CTRL: HRST sends Hard Reset, and EN 0 removes the terminations. -/
def Chip.writePdCtrl (c : Chip) (p : Nat) (v : Word) : Chip :=
  let c := c.writeMasked (PD_CTRL p) v
  if !c.on (PD_CTRL.EN p) then c.detach p false
  else if bit v 25 then c.hardReset p true
  else c

/-- R300. -/
def execHrst (p : Fin 3) (v : Word) (s : State) : Host.Outcome State Fault Refusal := s.run fun c => c.writePdCtrl p v

/-- No Request for 15 s under a PPS or AVS contract as Source (R287). -/
def execPpsTimeout (p : Fin 2) (s : State) : Host.Outcome State Fault Refusal :=
  s.run fun c => if c.isSource p && 3 ≤ c.fld (PD_CONTRACT.TYPE p) then c.hardReset p true else c

/-- 500 ms after a level fell without a contract within it (R310). -/
def execLevelFallTimeout (p : Fin 2) (s : State) : Host.Outcome State Fault Refusal :=
  s.run fun c => if (c.pdPort p).overLevel then (c.modPd p fun x => { x with overLevel := false }).hardReset p true else c

/-! ## Input loss and Fast Role Swap (R298, R302) -/

/-- The current declared for Fast Role Swap, in mA. -/
def Chip.frsMa (c : Chip) : Nat := [0, 900, 1500, 3000].getD (c.fld (PD_CTRL.FRS_CUR 0)) 0

/-- The source switch of UL opens on input loss, and the Fast Role Swap signal is driven. -/
def Chip.frsStart (c : Chip) : Chip :=
  if !(c.attached 0 && c.isSource 0) then c
  else
    let c := if (c.pdPort 0).switch then (c.modPd 0 fun x => { x with switch := false }).emit (.vbus 0 false) else c
    let c := { c with pd := { c.pd with loss := some (c.frsMa / 2) } }
    if c.on (PD_CTRL.FRS_EN 0) && c.frsMa != 0 && !c.safe then
      ({ c with pd := { c.pd with frs := .signal } }).emit (.frSignal true)
    else c

/-- PI has lost its VBUS, or is detached. -/
def Chip.piGone (c : Chip) (gone moving : Bool) : Chip :=
  if gone then c.detachFields 2 moving
  else
    let c := if moving && c.on (PD_STATUS.EXPLICIT 2) then (c.raise 200 2).raise 201 2 else c
    (c.dropContract 2).modPd 2 fun x => { x with off := true }

/-- VBUS_PI below 80 % for 5 µs, or a detach of PI. -/
def Chip.inputLoss (c : Chip) (gone moving : Bool) : Chip :=
  if !c.attached 2 || (!gone && (c.pdPort 2).off) then c
  else if c.fld PP_STATUS.FEED != 1 then (c.piGone gone moving).powerChanged
  else (((c.frsStart).piGone gone moving).raise 198 0).powerChanged

/-- R298. -/
def execInputLoss (gone moving : Bool) (s : State) : Host.Outcome State Fault Refusal := s.run fun c => c.inputLoss gone moving

/-- The signal has been held for 90 µs. -/
def execFrsSignalEnd (s : State) : Host.Outcome State Fault Refusal :=
  s.run fun c =>
    if c.pd.frs == .signal then ({ c with pd := { c.pd with frs := .waiting } }).emit (.frSignal false) else c

/-- VBUS_UL has reached vSafe5V from the host: VSYS is fed from UL. -/
def execFrsVbusPresent (s : State) : Host.Outcome State Fault Refusal :=
  s.run fun c =>
    if c.pd.frs == .signal || c.pd.frs == .waiting then ({ c with pd := { c.pd with frs := .fed } }).powerChanged else c

/-- FR_Swap completes the swap: the dock is Sink. Without a signal it is refused. -/
def Chip.takeFrSwap (c : Chip) : Chip :=
  if !c.attached 0 || !c.pdOn 0 then c
  else if c.pd.frs != .fed || c.safe then c.sendReject 0
  else
    let c := { c with pd := { c.pd with frs := .idle } }
    let c := ((c.sendPd 0 .accept).dropContract 0).modPd 0 fun x => { x.noSwap with adv := c.frsMa }
    ((c.setRole false).implicit 0).powerChanged

/-- R298. -/
def execFrSwap (s : State) : Host.Outcome State Fault Refusal := s.run fun c => c.takeFrSwap

/-! ## Trips and discharge (R303) -/

/-- The span in which three trips shut a port off, 60 s. -/
def tripSpan : Nat := 60 * 10 ^ 9

/-- The source switch of a port trips. -/
def Chip.sourceTrip (c : Chip) (p : Nat) : Chip :=
  let x := c.pdPort p
  if !x.switch then c
  else
    let trips := (x.trips.filter fun t => decide (c.timeNs < t + tripSpan)) ++ [c.timeNs]
    let c := (c.modPd p fun y => { y with trips := trips, tripped := y.tripped || 3 ≤ trips.length }).openSource p
    (c.raise 205 p).hardReset p true

/-- R303. -/
def execSourceOvercurrent (p : Fin 2) (s : State) : Host.Outcome State Fault Refusal := s.run fun c => c.sourceTrip p

/-- An input over-voltage, or reverse drive of a source. -/
def Chip.inputFault (c : Chip) (p : Nat) : Chip :=
  if (c.pdPort p).switch then ((c.openSource p).raise 206 p).hardReset p true
  else if c.sourceOn p then
    let c := (c.raise 206 p).hardReset p true
    (c.modPd p fun x => { x with off := x.off || c.sourceOn p }).powerChanged
  else c

/-- R303. -/
def execInputFault (p : Fin 3) (s : State) : Host.Outcome State Fault Refusal := s.run fun c => c.inputFault p

/-- VBUS is not below vSafe0V 650 ms after its discharge began: no Rp until it is. -/
def Chip.dischargeLate (c : Chip) (p : Nat) : Chip :=
  let x := c.pdPort p
  if x.discharge.isNone || x.stuck then c
  else ((c.modPd p fun y => { y with stuck := true }).raise 207 p).emit (.rp p false)

/-- R303. -/
def execDischargeTimeout (p : Fin 2) (s : State) : Host.Outcome State Fault Refusal := s.run fun c => c.dischargeLate p

/-- The bound of a discharge, 650 ms. -/
def dischargeSpan : Nat := 65 * 10 ^ 7

/-- Discharges whose bound has passed are over (log entry 12). -/
def Chip.pdTick (c : Chip) : Chip :=
  [0, 1].foldl (fun c p => if (c.pdPort p).discharge.any fun t => decide (t + dischargeSpan < c.timeNs) then c.settle p else c) c

/-- A source port stops in safe state: its switch opens and Rp is removed (R304). -/
def Chip.sourceStop (c : Chip) (p : Nat) : Chip := if c.isSource p then (c.openSource p).emit (.rp p false) else c

/-! ## Discovery and modes on UL (R293–R296) -/

/-- A word with the bits the spec states and free bits elsewhere (log entry 12). -/
def Chip.openVdo (c : Chip) (mask bits : Nat) : Word × Chip :=
  let (n, c) := c.fresh
  (BitVec.ofNat 32 bits ||| (Config.freeWord n &&& ~~~(BitVec.ofNat 32 mask)), c)

/-- A structured VDM reaches an attached UL: until step 3 has ended, with step 4 begun, it is answered with BUSY (R284; log entry 12). -/
def Chip.vdm (c : Chip) (f : Chip → Chip) : Chip :=
  if !c.attached 0 || !c.pdOn 0 || c.boot.step < 1 then c
  else if c.boot.step ≤ 3 then c.sendPd 0 .busy
  else f c

/-- Discover Identity: ID Header, Cert Stat, Product and UFP VDOs. -/
def Chip.identity (c : Chip) : Chip :=
  let vid := c.fld (PD_IDENT0.VID 0)
  let (hdr, c) := c.openVdo 0x3C00FFFF (2 ^ 27 + 2 ^ 26 + vid)
  let (ufp, c) := c.openVdo 0x05000030 (2 ^ 24 + 2 ^ 26 + 2 ^ 4)
  let product := c.fld (PD_IDENT0.PID 0) * 65536 + (c.reg COLOPHON).toNat % 65536
  c.sendPd 0 (.ack [hdr, c.reg (PD_IDENT1 0), BitVec.ofNat 32 product, ufp])

/-- R293. -/
def execDiscoverIdentity (s : State) : Host.Outcome State Fault Refusal := s.run fun c => c.vdm fun c => c.identity

/-- Modes that are offered. -/
def Chip.offersMode (c : Chip) (m : AltMode) : Bool :=
  match m with
  | .caraxline => c.on (PD_ALT_CFG.CARAX 0)
  | .displayPort => c.on (PD_ALT_CFG.DP 0)

/-- Discover SVIDs: two to a word, ended by zero. -/
def Chip.svids (c : Chip) : Chip :=
  let xs := (if c.offersMode .caraxline then [0xC4A2] else []) ++ (if c.offersMode .displayPort then [0xFF01] else [])
  if xs.isEmpty then c.sendPd 0 .nak
  else
    let first := xs.getD 0 0 * 65536 + xs.getD 1 0
    c.sendPd 0 (.ack (BitVec.ofNat 32 first :: if xs.length = 2 then [0] else []))

/-- R293. -/
def execDiscoverSvids (s : State) : Host.Outcome State Fault Refusal := s.run fun c => c.vdm fun c => c.svids

/-- The mode VDO of SVID 0xC4A2 (R294). -/
def Chip.modeVdo (c : Chip) : Word :=
  let rates := 2 ^ (c.fld (LINK_CTRL.MAX_RATE 0) + 1) - 1
  let vers := c.fld (LINK_CTRL.V1_EN 0) + 2 * c.fld (LINK_CTRL.V2_EN 0)
  let cascade := if c.part == .mh4160 then 128 else 0
  BitVec.ofNat 32 (c.fld COLOPHON.PART * 65536 + rates * 256 + cascade + 0b1111100 + vers)

/-- Discover Modes. The DisplayPort capabilities name a UFP_D with a receptacle, the pin assignments, and UHBR10, UHBR20 and UHBR13.5 at
bits 3, 4 and 26 (R296; places PRESUMED, log entry 12). -/
def Chip.modes (c : Chip) (m : AltMode) : Chip :=
  if !c.offersMode m then c.sendPd 0 .nak
  else match m with
    | .caraxline => c.sendPd 0 (.ack [c.modeVdo])
    | .displayPort =>
      let pins := 4 * c.fld (PD_ALT_CFG.PIN_C 0) + 8 * c.fld (PD_ALT_CFG.PIN_D 0)
      let (vdo, c) := c.openVdo 0x04FF005B (2 ^ 26 + pins * 65536 + 0x59)
      c.sendPd 0 (.ack [vdo])

/-- R294. -/
def execDiscoverModes (m : AltMode) (s : State) : Host.Outcome State Fault Refusal := s.run fun c => c.vdm fun c => c.modes m

/-- Enter Mode: the first for an offered mode is acknowledged, one while a mode is entered is not. -/
def Chip.enterMode (c : Chip) (m : AltMode) : Chip :=
  if c.inMode || !c.offersMode m then c.sendPd 0 .nak
  else
    let c := c.sendPd 0 (.ack [])
    match m with
    | .caraxline => c.enterNative
    | .displayPort => ({ c with pd := { c.pd with dpMode := true, failed := false } }).raise 208 0

/-- R295. -/
def execEnterMode (m : AltMode) (s : State) : Host.Outcome State Fault Refusal := s.run fun c => c.vdm fun c => c.enterMode m

/-- The mode a partner names is the one entered. -/
def Chip.isMode (c : Chip) (m : AltMode) : Bool :=
  match m with
  | .caraxline => c.native .ul
  | .displayPort => c.pd.dpMode

/-- Exit Mode ends the mode; one after failed training is acknowledged too. -/
def Chip.exitMode (c : Chip) (m : AltMode) : Chip :=
  if c.isMode m then (c.sendPd 0 (.ack [])).endMode 0
  else if m == .caraxline && c.pd.failed then (c.noteFailed false).sendPd 0 (.ack [])
  else c.sendPd 0 .nak

/-- R295. -/
def execExitMode (m : AltMode) (s : State) : Host.Outcome State Fault Refusal := s.run fun c => c.vdm fun c => c.exitMode m

/-- DP Status: Multi-function Preferred, and HPD once a Configure has been acknowledged. -/
def Chip.statusVdo (c : Chip) : Word × Chip :=
  let hpd := if 3 ≤ c.fld (PD_STATUS.MODE 0) then 128 else 0
  c.openVdo 0x90 (16 * c.fld (PD_ALT_CFG.MF_PREF 0) + hpd)

/-- DP Configure for pin assignment C or D; `none` stands for any assignment that is not offered. After one that is
acknowledged an Attention reports HPD high (R296; DEDUCED, log entry 12). -/
def Chip.dpConfigure (c : Chip) (pin : Option Bool) : Chip :=
  if !c.pd.dpMode then c.sendPd 0 .nak
  else match pin with
    | none => c.sendPd 0 .nak
    | some d =>
      if !c.on (if d then PD_ALT_CFG.PIN_D 0 else PD_ALT_CFG.PIN_C 0) then c.sendPd 0 .nak
      else
        let c := ((c.sendPd 0 (.ack [])).setFld (PD_STATUS.MODE 0) (if d then 4 else 3)).syncUpstream
        let (vdo, c) := c.statusVdo
        c.sendPd 0 (.attention 0xFF01 vdo)

/-- R296. -/
def execDpConfigure (pin : Option Bool) (s : State) : Host.Outcome State Fault Refusal := s.run fun c => c.vdm fun c => c.dpConfigure pin

def Chip.dpStatus (c : Chip) : Chip :=
  if !c.pd.dpMode then c.sendPd 0 .nak
  else
    let (vdo, c) := c.statusVdo
    c.sendPd 0 (.ack [vdo])

/-- R296. -/
def execDpStatus (s : State) : Host.Outcome State Fault Refusal := s.run fun c => c.vdm fun c => c.dpStatus

/-! ## Discovery on CS (R297, R335) -/

/-- The dock has discovered the peer on CS; `caraxline` says that it lists the Caraxline mode. -/
def Chip.csDiscovery (c : Chip) (caraxline : Bool) : Chip :=
  if !c.mayDiscover || !caraxline then c
  else match c.position with
    | none => c
    | some q => if q = 3 then c.raise 107 3 else (c.sendPd 1 .enterMode).enterCs

/-- R297. -/
def execCsDiscovery (caraxline : Bool) (s : State) : Host.Outcome State Fault Refusal := s.run fun c => c.csDiscovery caraxline

end Sys2Proof.Machine
end

