-- ==== Sys2Proof/Machine/Coppice.lean ====
section
/-! DEFINITION. Coppice: planes, Stacks rows and banks, scrub, SRAM rows, lane slices, segments, sensors and slack monitors
(R375–R382). -/

namespace Sys2Proof.Machine

/-! ## Fabric planes (R376) -/

/-- A corrected flit counts against its plane; 16 within 2^20 flits make the swap due at the next boundary. -/
def Chip.planeHit (c : Chip) (plane flit : Nat) : Chip :=
  let hits := (c.copp.planeHits ++ [(plane, flit)]).filter fun h => decide (flit < h.2 + 2 ^ 20)
  let c := c.modCopp fun x => { x with planeHits := hits }
  if plane < 8 && 16 ≤ (hits.filter fun h => h.1 == plane).length && c.repairs 73 && c.copp.planeDue.isNone then
    match c.nextSpare kPlane 0 with
    | some _ => c.modCopp fun x => { x with planeDue := some plane }
    | none => c.noteExhausted kPlane 0 plane
  else c

/-- The cell of a flit that cannot be rebuilt is lost: the oldest one waiting to be sent on its flow, or the last one that joined the
message being assembled (R376, R380). -/
def Chip.loseCell (c : Chip) : Option FabricCell → Chip
  | none => c
  | some ⟨k, f, true⟩ => c.setOutQ k f (c.outQ k f).tail
  | some ⟨k, f, false⟩ => c.modLink k fun s =>
    { s with asm := s.asm.map fun e => if e.1 / 8 == f.val then (e.1, e.2.1, e.2.2.take (e.2.2.length - 120)) else e }

/-- R376. `flit` numbers the flit; the fault lists the planes whose parity failed and says which cell the flit belongs to. -/
def execFlitParityError (flit : Nat) (x : FlitFault) (s : State) : Host.Outcome State Fault Refusal :=
  s.run fun c =>
    let used := c.nextSpare kPlane 0 == none
    match x.planes with
    | [p] =>
      if used then (((c.raiseOpen 74).loseCell x.cell).planeHit p.val flit) else (c.raiseOpen 73).planeHit p.val flit
    | [] => c
    | _ => (c.raiseOpen 74).loseCell x.cell

/-- The swap at the epoch boundary; a recovery in progress defers it (R408), and none is made while automatic repair is off or in safe
state (R375, R407). -/
def Chip.swapPlane (c : Chip) : Chip := match c.copp.planeDue with
  | none => c
  | some p =>
    if c.recovering || !c.repairOn then c
    else
      let c := c.modCopp fun x => { x with planeDue := none, planeHits := [] }
      match c.nextSpare kPlane 0 with
      | some s => c.noteRepair kPlane 0 p s
      | none => c

/-! ## Stacks rows and banks (R377) -/

/-- A day in nanoseconds. -/
def dayNs : Nat := 86400000000000

/-- The channel of a Stacks address (R14). -/
def channelOf (a : Nat) : Nat := a / 256 % 8

/-- The repair a failing row asks for: a spare row, or the channel's spare bank when the bank has no spare row left. -/
def Chip.wantRepair (c : Chip) (unit row : Nat) : Chip :=
  let ch := unit / 33
  let bank := unit % 33
  let r? : Option StkRepair := match c.nextSpare kRow unit with
    | some s => some { kind := kRow, unitNo := unit, orig := row, spare := s, bist := false }
    | none => (c.nextSpare kBank ch).map fun s => { kind := kBank, unitNo := ch, orig := bank, spare := s, bist := true }
  match r? with
  | none => c.noteExhausted kBank ch bank
  | some r =>
    if (c.copp.waiting ++ c.copp.running).any fun q => q.kind == r.kind && q.unitNo == r.unitNo && q.orig == r.orig then c
    else c.modCopp fun x => { x with waiting := x.waiting ++ [r] }

/-- The suspect table takes a row, dropping the oldest of 64; ROW_TH records within a day, or one uncorrectable burst, ask for a
repair. `act` is false for a trigger whose source has a lower reaction than REPAIR: it is recorded, and asks for no spare then or
later (R394). -/
def Chip.suspect (c : Chip) (unit row : Nat) (uncor act : Bool) : Chip :=
  let xs := (c.copp.suspects ++ [{ unitNo := unit, row := row, atNs := c.timeNs, uncor := uncor && act }])
  let xs := xs.drop (xs.length - 64)
  let c := c.modCopp fun x => { x with suspects := xs }
  let mine := xs.filter fun e => e.unitNo == unit && e.row == row && decide (c.timeNs ≤ e.atNs + dayNs)
  if act && c.repairOn && (mine.any (·.uncor) || decide (max 1 (c.fld COPP_CTRL.ROW_TH) ≤ mine.length)) then c.wantRepair unit row else c

/-- A burst read with an error: counted, an uncorrectable one stays so until it is written in full (R377, STAK_ECC). A head's
uncorrectable read is the trigger that EV137 reports. -/
def Chip.burstError (c : Chip) (addr bank row : Nat) (uncor head : Bool) : Chip :=
  let c := if uncor then (c.count STAK_ECC.UNCOR).setBurstBad (addr / 64) true else c.count STAK_ECC.CORR
  c.suspect (channelOf addr * 33 + bank) row uncor (!(uncor && head) || c.react 137 == 3)

/-- R377. -/
def execStacksBurstError (addr : BitVec 32) (bank : Fin 33) (row : Fin 16384) (uncor head : Bool) (s : State) :
    Host.Outcome State Fault Refusal :=
  s.run fun c => if c.granuleFilled addr.toNat then c.burstError addr.toNat bank row uncor head else c

/-- The locks of a Stacks repair. -/
def StkRepair.locks (r : StkRepair) : List LockRes :=
  if r.kind = kRow then [.bank (r.unitNo / 33) (r.unitNo % 33)] else [.bank r.unitNo r.orig, .bank r.unitNo 32]

/-- A waiting repair takes its locks and a unit and runs, or is refused and waits on (R375). -/
def Chip.startStkRepair (c : Chip) (r : StkRepair) : Chip :=
  match c.maintRequest (if r.kind = kRow then 0x11 else 0x12) r.locks with
  | (.granted, c) => c.modCopp fun x => { x with waiting := x.waiting.filter (· != r), running := x.running ++ [r] }
  | (_, c) => c

/-- A repair that an uncorrectable burst asked for waits until a recovery in progress has ended (R408). -/
def Chip.deferredRepair (c : Chip) (r : StkRepair) : Bool :=
  c.recovering && c.copp.suspects.any fun e =>
    e.uncor && (if r.kind = kRow then e.unitNo == r.unitNo && e.row == r.orig else e.unitNo == r.unitNo * 33 + r.orig)

def Chip.startRepairOf (c : Chip) (kind : Nat) : Chip := match c.copp.waiting.find? fun r => r.kind == kind with
  | some r => if c.repairOn && !c.deferredRepair r then c.startStkRepair r else c
  | none => c

/-- R377. -/
def execRowRepair (s : State) : Host.Outcome State Fault Refusal := s.run fun c => c.startRepairOf kRow
/-- R377. -/
def execBankRepair (s : State) : Host.Outcome State Fault Refusal := s.run fun c => c.startRepairOf kBank

/-- The BIST of a spare bank, the older one of two (log entry 96), ends: the copy starts, or the spare is retired and the channel's pool is exhausted (R377). -/
def Chip.bistDone (c : Chip) (pass : Bool) : Chip := match c.copp.running.find? fun r => r.kind == kBank && r.bist with
  | none => c
  | some r =>
    let c := c.modCopp fun x => { x with running := x.running.filter (· != r) }
    if pass then c.modCopp fun x => { x with running := x.running ++ [{ r with bist := false }] }
    else
      let c := c.maintDrop fun h => h.code == 0x12 && h.locks == r.locks
      let e : RepEntry := { kind := kBank, retired := true, unitNo := r.unitNo, orig := r.orig, spare := r.spare, fuse := false,
                            kept := false }
      (c.addEntry e).noteLast kBank r.unitNo r.orig

/-- R377. -/
def execBankBistDone (pass : Bool) (s : State) : Host.Outcome State Fault Refusal := s.run fun c => c.bistDone pass

/-- The copy that ends: a row's, of at most 20 µs, before a bank's, of up to 9 ms, and the older of two rows or banks (R377; DESIGN
CHOICE, log entry 96). -/
def Chip.endingCopy (c : Chip) : Option StkRepair :=
  match c.copp.running.find? fun r => r.kind == kRow with
  | some r => some r
  | none => c.copp.running.find? fun r => !r.bist

/-- A copy ends: the address is remapped in one step and the locks are released (R377). -/
def Chip.copyDone (c : Chip) : Chip := match c.endingCopy with
  | none => c
  | some r =>
    let code := if r.kind = kRow then 0x11 else 0x12
    let c := c.modCopp fun x =>
      { x with
        running := x.running.filter (· != r)
        suspects := x.suspects.filter fun e =>
          if r.kind = kRow then !(e.unitNo == r.unitNo && e.row == r.orig) else e.unitNo != r.unitNo * 33 + r.orig }
    (c.maintDrop fun h => h.code == code && h.locks == r.locks).noteRepair r.kind r.unitNo r.orig r.spare

/-- R377. -/
def execRepairCopyDone (s : State) : Host.Outcome State Fault Refusal := s.run fun c => c.copyDone

/-! ## Scrub (R378) -/

/-- One finding of a stretch. -/
def Chip.scrubBurst (ch bank : Nat) (c : Chip) (r : Nat × Nat × Bool) : Chip :=
  let c := if r.2.2 then ((c.count SCRB_STATUS.UNCOR).raiseOpen 242).setBurstBad (r.1 / 64) true else c.count SCRB_STATUS.CORR
  c.suspect (ch * 33 + bank) r.2.1 r.2.2 (!r.2.2 || c.react 242 == 3)

/-- The pass goes on to the next stretch. -/
def Chip.nextStretch (c : Chip) : Chip :=
  let n := c.fld SCRB_POS.STRETCH
  if n = 65535 then (c.setFld SCRB_POS.STRETCH 0).count SCRB_POS.PASSES else c.setFld SCRB_POS.STRETCH (n + 1)

/-- R378. A stretch refused its lock or unit is not passed over, and none runs while the Stacks rest (R323). `found` lists the bursts with an error: address, row, and
whether it cannot be corrected. -/
def execScrubStretch (ch : Fin 8) (bank : Fin 33) (found : List (BitVec 32 × Fin 16384 × Bool)) (s : State) :
    Host.Outcome State Fault Refusal :=
  s.run fun c =>
    if c.fld SCRB_CTRL.PERIOD = 0 || !c.on STAK_STATUS.FILLED || c.resting 6 || c.safe || !c.pageOn 0x3A then c
    else match c.maintAnswer [.bank ch bank] with
      | .granted => ((found.map fun r => (r.1.toNat, r.2.1.val, r.2.2)).foldl (Chip.scrubBurst ch bank) c).nextStretch
      | _ => c.maintRefuse 0x10

/-! ## SRAM rows (R375) -/

/-- R375. `test` marks a row that failed its macro's test at start-up; otherwise the row was corrected once more. -/
def execSramRowRepair (m : Fin 184) (row : BitVec 16) (test : Bool) (s : State) : Host.Outcome State Fault Refusal :=
  s.run fun c =>
    let again := c.copp.sramHits.any fun h => h.1 == m.val && h.2.1 == row.toNat && decide (c.timeNs ≤ h.2.2 + dayNs)
    let c := c.modCopp fun x => { x with sramHits := x.sramHits ++ [(m.val, row.toNat, c.timeNs)] }
    if !(test || again) || !c.repairOn then c
    else match c.nextSpare kSram m with
      | some sp =>
        (c.modCopp fun x => { x with sramHits := x.sramHits.filter fun h => !(h.1 == m.val && h.2.1 == row.toNat) }).noteRepair kSram m
          row.toNat sp
      | none => c.noteExhausted kSram m row.toNat

/-! ## Lane repair (R379) -/

/-- A slice at its limit: it waits for its lane's repair, and on a lane in training it is swapped at once (R379, R380). -/
def Chip.badSlice (l : Nat) (c : Chip) (i : Nat) : Chip :=
  if c.copp.slices.contains (l, i) || c.copp.badSlices.contains (l, i) then c
  else
    let c := c.modCopp fun x => { x with slices := x.slices ++ [(l, i)] }
    if !c.repairOn then c
    else if (c.nextSpare kSlice l).isNone || (c.linkState (lnkOf l) == 1 && (c.link (lnkOf l)).step < 5) then c.swapSlices l
    else c

/-- R375. `bad` lists the slices whose code sits at its limit. -/
def execBackgroundCalibration (l : Fin 8) (bad : List (Fin 28)) (s : State) : Host.Outcome State Fault Refusal :=
  s.run fun c => (bad.map (·.val)).foldl (Chip.badSlice l) c

/-- A lane repair: the lock and a unit are taken and LANE_OUT goes with reason 0; it is not made in service for the last lane
of a direction that is to stay in its group (R379). -/
def Chip.laneRepair (c : Chip) (l : Nat) : Chip :=
  let k := lnkOf l
  if !c.repairOn || !(c.copp.slices.any fun e => e.1 == l) || !c.inService l || (c.lane l).out != .in_ || !c.linkUp k ||
      ((c.group k (c.fld (LANE_STATUS.DIR l))).filter fun m => (c.lane m).out == .in_).length ≤ 1 then c
  else match c.maintRequest 0x04 [.lane l] with
    | (.granted, c) => (c.modCopp fun x => { x with repairLanes := x.repairLanes ++ [l] }).takeLaneOut l 0 true
    | (_, c) => c

/-- R379. -/
def execLaneRepair (l : Fin 8) (s : State) : Host.Outcome State Fault Refusal := s.run fun c => c.laneRepair l

/-! ## Switch segments and current sensors (R375, R380) -/

/-- A switch has lost a segment: levels and contracts keep to its rating, an input contract above it is asked for anew, and below 10 good
segments it opens (R380). -/
def Chip.rerate (c : Chip) (sw : Nat) : Chip :=
  let c := if c.switchWorks sw then c
    else if sw < 2 then c.openSource sw
    else if 3 ≤ sw then c.syncPep (sw - 3)
    else c
  (if sw % 2 = 0 && c.sourceOn sw && c.ratedMa sw < (c.contractReq sw).ma then c.requestPower sw else c).refeed

/-- A failing segment: a spare closes and it opens, or the switch loses it. -/
def Chip.badSegment (sw : Nat) (c : Chip) (i : Nat) : Chip :=
  if c.copp.lostSegments.contains (sw, i) || !c.repairOn then c
  else match c.nextSpare kSegment sw with
    | some s => c.noteRepair kSegment sw i s
    | none => ((c.noteExhausted kSegment sw i).modCopp fun x => { x with lostSegments := x.lostSegments ++ [(sw, i)] }).rerate sw

/-- R375. Switches: 0 UL, 1 CS, 2 PI, 3 and 4 the M.2 sockets. `bad` lists the segments found failing. -/
def execSegmentCheck (sw : Fin 5) (bad : List (Fin 14)) (s : State) : Host.Outcome State Fault Refusal :=
  s.run fun c => (bad.map (·.val)).foldl (Chip.badSegment sw) c

/-- R375. A sensor's self-test failed: pool 0 USB (ports DS0–DS5), 1 3.3 V (ports 0 and 1 the sockets, 2–5 DP0–DP3), 2 VBUS
(ports 0 UL, 1 CS). A spare is switched in, or the port is ganged (R252, R380). -/
def execSensorSelfTest (pool : Fin 3) (port : Fin 6) (s : State) : Host.Outcome State Fault Refusal :=
  s.run fun c =>
    if c.copp.ganged.contains (pool.val, port.val) || !c.repairOn then c
    else match c.nextSpare kSensor pool with
      | some sp => c.noteRepair kSensor pool port sp
      | none =>
        let c := (c.noteExhausted kSensor pool port).modCopp fun x => { x with ganged := x.ganged ++ [(pool.val, port.val)] }
        if pool.val = 0 then (c.setFld (PORT_STATUS.GANGED port) 1).raise 162 (port + 1)
        else if pool.val = 2 then c.walk else c

/-! ## Slack monitors (R381) -/

/-- The monitor of the active router copy. -/
def Chip.routerMonitor (c : Chip) : Nat := 1 + c.fld ROUT_STATUS.ACTIVE

/-- The baseline of a monitor in use. -/
def Chip.baseline (c : Chip) (i : Nat) : Nat := c.copp.base.getD i (Config.fusedBaseline i)

/-- The current point and every lower one are barred, and the map records it (R381, R385). -/
def Chip.barPoints (c : Chip) : Chip :=
  let bar := c.fld MON_STATUS.BAR ||| (2 ^ (c.op + 1) - 1)
  if bar = c.fld MON_STATUS.BAR then c else ((c.setFld MON_STATUS.BAR bar).raiseOpen 240).requestMapWrite

/-- One monitor's measurement. -/
def Chip.slackOne (c : Chip) (r : Nat × Nat) : Chip :=
  let (i, m) := r
  let w := Config.cyclePs c.op
  let warnFld : Fld := ⟨MON_STATUS, 16 + i, 1⟩
  let c := c.modCopp fun x => { x with samples := (x.samples.filter fun s => decide (c.timeNs ≤ s.1 + 3600000000000)) ++ [(c.timeNs, i, m)] }
  let c := c.setFld ⟨MON_TBL i, 20, 12⟩ m
  let c := c.setFld ⟨MON_TBL i, 8, 12⟩ (c.baseline i)
  let margin : Int := ((w : Int) - m) * 100 / w
  let c := c.setFld ⟨MON_TBL i, 0, 8⟩ (BitVec.ofInt 8 margin).toNat
  let drift := decide (c.baseline i * (100 + c.fld MON_CTRL.WARN_PCT) < m * 100)
  let c := if drift && !c.on warnFld then (c.setFld warnFld 1).raiseOpen 239 else c
  if w < m then
    if i = 1 || i = 2 then
      if i = c.routerMonitor then c.raise 78 (i - 1) else c
    else c.barPoints
  else c

/-- R381. One measurement for each powered monitor, in ps; none for an unpowered one. -/
def execSlackMeasurement (meas : List (Option Nat)) (s : State) : Host.Outcome State Fault Refusal :=
  s.run fun c =>
    if c.pageOn 0x3B then (((List.range 9).zip meas).filterMap fun p => p.2.map fun m => (p.1, m)).foldl Chip.slackOne c else c

/-! ## Counters (R393) -/

/-- A write of COPP_CTRL. -/
def Chip.writeCoppCtrl (c : Chip) (v : Word) : Chip := (c.writeMasked COPP_CTRL v).when (bit v 12) fun c => c.clearRegs [COPP_CNT]

/-- A write of SCRB_CTRL. -/
def Chip.writeScrbCtrl (c : Chip) (v : Word) : Chip := (c.writeMasked SCRB_CTRL v).when (bit v 8) fun c => c.clearRegs [SCRB_STATUS]

/-- R393. -/
def execCoppCntClr (v : Word) (s : State) : Host.Outcome State Fault Refusal := s.run fun c => c.writeCoppCtrl v
/-- R393. -/
def execScrbCntClr (v : Word) (s : State) : Host.Outcome State Fault Refusal := s.run fun c => c.writeScrbCtrl v

end Sys2Proof.Machine
end

