-- ==== Sys2Proof/Machine/Turn.lean ====
section
/-! DEFINITION. The lane-direction decision, the turnaround exchange and the boundaries of a turn (R99–R102, R128, R157, R158). -/

namespace Sys2Proof.Machine

/-! ## The decision (R157, R158) -/

/-- The current arrangement by LANE_STATUS.DIR of the lanes (R128, R162), none when they form no named one. -/
def Chip.arrNow (c : Chip) (k : Lnk) : Option Arr := [Arr.a22, .a31, .a13].find? fun a => (c.turnedBy k a).isEmpty

def arrCode : Arr → Nat
  | .a22 => 0
  | .a31 => 1
  | .a13 => 2

/-- Unmet demand for capacities of the two directions. -/
def Chip.unmet (c : Chip) (k : Lnk) (cap : Nat → Nat) : Nat :=
  (c.dirDemand k 0 - cap 0) + (c.dirDemand k 1 - cap 1)

def Chip.unmetArr (c : Chip) (k : Lnk) (a : Arr) : Nat := c.unmet k fun d => c.capArr k d a

/-- The candidate: least unmet demand, then 2+2, then fewer lanes turned (R157, step 1). -/
def Chip.candidate (c : Chip) (k : Lnk) : Arr :=
  let key (a : Arr) : Nat × Nat := (c.unmetArr k a, if a = .a22 then 0 else 1 + (c.turnedBy k a).length)
  let better (a b : Arr) : Bool := (key a).1 < (key b).1 || ((key a).1 == (key b).1 && (key a).2 < (key b).2)
  let as := [Arr.a22, .a31, .a13].filter fun a => c.arrNow k != some a
  match as with
  | [] => .a22
  | a :: rest => rest.foldl (fun m x => if better x m then x else m) a

/-- Refusal counters of the REFUSED word, by the bit where each starts: FIT, GUAR, LOCK, OTHER. -/
def refFit : Nat := 24
def refGuar : Nat := 16
def refLock : Nat := 8
def refOther : Nat := 0

/-- A lane that may be turned, its lock apart (R99). -/
def Chip.mayTurn (c : Chip) (k : Lnk) (l : Nat) : Bool :=
  c.fld (LINK_STATUS.VERSION k.idx) == 2 && c.on (LANE_STATUS.TURN_MEDIA l) && c.on (LANE_STATUS.TURN_TRAINED l) &&
    c.inService l && (c.fld (LANE_STATUS.DIR l) == 1 || c.laneLocked l)

/-- The operating point fits a target arrangement (R21, R22). -/
def Chip.fitsArr (c : Chip) (k : Lnk) (a : Arr) : Bool :=
  !c.opBarred && [0, 1].all fun d =>
    decide ((((List.range 4).filter fun ll => c.arrDir k a ll == d).map fun ll =>
      Config.laneRate (c.fld (LANE_STATUS.RATE (c.pairOf k ll)))).sum ≤ Config.portFloor c.fitOp)

/-- A lowering of the core voltage is between its steps 3 and 4: no turn is made (R23, R329). -/
def Chip.lowering (c : Chip) : Bool := c.on PS_STATUS.LOWERING && c.seq.ramping

/-- Why R158 forbids a turn now, its condition 7 apart. Where several conditions fail, the refusal is counted once, for the first of
OTHER, GUAR, FIT and, in `tryTurn`, LOCK: R158 does not order them (DESIGN CHOICE, log entry 86). -/
def Chip.turnForbidden (c : Chip) (k : Lnk) (a : Arr) : Option Nat :=
  let ls := c.turnedBy k a
  let x := c.link k
  if !(ls.all (c.mayTurn k)) || !((pairs k).all c.inService) || !c.linkUp k || x.sleepWant.isSome || x.sleepGo.isSome ||
      c.on (LINK_STATUS.HOLD_RX k.idx) || x.holdTx || x.turn.isSome || (c.sched k).dwell != 0 || c.lowering then
    some refOther
  else if [0, 1].any fun d => decide (admissionLimit (c.capGap k d ls) < c.guarSum k d) ||
      decide (admissionLimit (c.capArr k d a) < c.guarSum k d) then some refGuar
  else if !c.fitsArr k a then some refFit
  else none

/-- A refusal is counted by reason and the count restarts; the third in a row of one candidate of the automatic decision raises
EV070. -/
def Chip.turnRefused (c : Chip) (k : Lnk) (reason : Nat) : Chip :=
  let n := (c.sched k).refusedRow + 1
  let auto := c.fld CIRC_TURN.MODE == 0 && (c.link k).sleepAsk.isNone
  let c := (c.count ⟨SCHED k.idx 6, reason, 8⟩).modSched k fun s =>
    { s with count := 0, only3 := false, refusedRow := if auto then n else s.refusedRow }
  if auto && n = 3 then c.raise 70 (k.idx * 2 ^ 30) else c

/-- LAST_BCNT of the turning lanes this end transmits on: which block ends last before E1 + 100 ns is a free value (log
entry 8). -/
def Chip.lastBcnts (c : Chip) (ls : List Nat) : List Byte × Chip :=
  let tx := ls.filter fun l => c.fld (LANE_STATUS.DIR l) = 1
  let (bs, c) := tx.foldl (fun (acc : List Byte × Chip) _ =>
    let (n, c) := acc.2.fresh
    (acc.1 ++ toBytes 2 (Config.freeWord n).toNat, c)) ([], c)
  (fitBytes 4 bs, c)

/-- The lanes of a list as a mask of link lanes. -/
def Chip.laneMask (c : Chip) (ls : List Nat) : Nat := (ls.map fun l => 2 ^ c.linkLane l).sum

/-- The locks and one unit are granted: the turn is decided and the exchange starts (R101, R128). -/
def Chip.startTurn (c : Chip) (k : Lnk) (a : Arr) (decider : Bool) (ls : List Nat) : Chip :=
  let t : Turn := { target := a, lanes := ls, decider := decider, acked := false, go := false, epoch := 0,
                    pastConfirm := false, pastReady := false, width := ls.length }
  let c := ls.foldl (fun c l => c.modLane l fun x => { x with confirmed := false, released := false, ready := false, armedRx := 0 }) c
  (c.modLink k fun x => { x with turn := some t, partTurn := false }).setFld ⟨SCHED k.idx 0, 26, 1⟩ (c.schedules k).toNat

/-- Try a turn at this boundary; a refusal is counted. -/
def Chip.tryTurn (c : Chip) (k : Lnk) (a : Arr) : Chip :=
  let ls := c.turnedBy k a
  if ls.isEmpty then c
  else match c.turnForbidden k a with
    | some r => c.turnRefused k r
    | none => match c.maintRequest 0x03 (ls.map .lane) with
      | (.granted, c) =>
        let c := (c.startTurn k a true ls).count ⟨SCHED k.idx 5, 16, 16⟩
        let c := c.modSched k fun s => { s with count := 0, only3 := false }
        let (bs, c) := c.lastBcnts ls
        c.queueUrgent k 0x20 (toBytes 1 (arrCode a) ++ toBytes 1 (c.laneMask ls) ++ [0] ++ bs)
      | (_, c) => c.turnRefused k refLock

/-- The automatic decision (R157). -/
def Chip.decideAuto (c : Chip) (k : Lnk) : Chip :=
  let b := c.candidate k
  let s := c.sched k
  let here := match c.arrNow k with
    | some a => c.unmetArr k a
    | none => c.unmet k (c.capNow k)
  let there := c.unmetArr k b
  let q2 := decide (there + 16 * c.fld CIRC_TURN.HYST ≤ here)
  let q := q2 || (b == .a22 && decide (there ≤ here))
  let same := s.cand == some b
  let n := if q then (if same then s.count + 1 else 1) else 0
  let only3 := q && ((same && s.count != 0 && s.only3) || !q2)
  let c := c.modSched k fun s =>
    { s with cand := some b, count := n, only3 := only3, refusedRow := if same then s.refusedRow else 0 }
  let need := (if only3 then 4 else 1) * max 1 (c.fld CIRC_TURN.CONFIRM)
  if n != 0 && need ≤ n then c.tryTurn k b else c

def arrOfCode : Nat → Arr
  | 1 => .a31
  | 2 => .a13
  | _ => .a22

/-- The turn under way goes to this arrangement already. -/
def Chip.turningTo (c : Chip) (k : Lnk) (a : Arr) : Bool := (c.link k).turn.any fun t => t.target == a

/-- A target that is decided at the first boundary R158 allows, and then held. -/
def Chip.holdTarget (c : Chip) (k : Lnk) (a : Arr) : Chip := if c.turningTo k a then c else c.tryTurn k a

/-- The lane-direction decision at a strobe: a sleep request asks for 2+2 under every MODE (R157). -/
def Chip.decideTurn (c : Chip) (k : Lnk) : Chip :=
  if c.fld (LINK_STATUS.VERSION k.idx) != 2 || !c.linkUp k || c.seq.heldTurns then c
  else if (c.link k).sleepAsk.isSome then c.holdTarget k .a22
  else match c.fld CIRC_TURN.MODE with
    | 0 => c.decideAuto k
    | 2 => c.holdTarget k (arrOfCode (c.fld CIRC_TURN.TARGET))
    | _ => c

/-! ## The exchange (R128) -/

/-- The pairs a lane mask names. -/
def Chip.lanesOfMask (c : Chip) (k : Lnk) (m : Nat) : List Nat := ((List.range 4).filter m.testBit).map (c.pairOf k)

def Chip.sendTurnAck (c : Chip) (k : Lnk) (code : Nat) (bs : List Byte) : Chip :=
  c.queueUrgent k 0x21 (toBytes 1 code ++ [0, 0] ++ bs)

/-- The responder's state lets it take a turn: no turn, sleep entry or recovery, a request for exactly the lanes that the target
turns, each of which may be turned (R99, R100), no lowering in progress (R23) and an operating point that fits (R22). -/
def Chip.maySwing (c : Chip) (k : Lnk) (a : Arr) (mask : Nat) : Bool :=
  let x := c.link k
  let ls := c.turnedBy k a
  !c.schedules k && x.turn.isNone && x.sleepWant.isNone && x.sleepGo.isNone && c.linkUp k && !ls.isEmpty &&
    c.laneMask ls == mask && ls.all (c.mayTurn k) && !c.lowering && c.fitsArr k a

/-- A received TURN_REQ is accepted, or refused for lock (1) or state (2). -/
def Chip.takeTurnReq (c : Chip) (k : Lnk) (a : Arr) (mask : Nat) : Chip :=
  if !c.maySwing k a mask then c.sendTurnAck k 2 [0, 0, 0, 0]
  else
    let ls := c.lanesOfMask k mask
    match c.maintRequest 0x03 (ls.map .lane) with
    | (.granted, c) =>
      let (bs, c) := (c.startTurn k a false ls).lastBcnts ls
      c.sendTurnAck k 0 bs
    | (_, c) => c.sendTurnAck k 1 [0, 0, 0, 0]

/-- R128. -/
def execTurnReq (k : Lnk) (target : Arr) (lanes : BitVec 8) (_last : List (BitVec 16)) (s : State) :
    Host.Outcome State Fault Refusal :=
  s.run fun c => if c.linkState k = 0 || c.linkState k = 7 then c else c.takeTurnReq k target lanes.toNat

/-- The turning lanes this end transmits on carry TURN_ARMED. -/
def Chip.armLanes (c : Chip) (t : Turn) : Chip :=
  t.lanes.foldl (fun c l =>
    if c.fld (LANE_STATUS.DIR l) = 1 then c.modLane l fun x => { x with txState := 1 } else c) c

/-- An abandoned turn is counted; its locks go at the next boundary (R102, R158). -/
def Chip.abandonTurn (c : Chip) (k : Lnk) : Chip :=
  (c.count ⟨SCHED k.idx 5, 0, 16⟩).modLink k fun x =>
    { x with turn := x.turn.map fun t => { t with lanes := [], acked := true, pastConfirm := true } }

/-- R128. -/
def execTurnAck (k : Lnk) (code : BitVec 8) (_last : List (BitVec 16)) (s : State) : Host.Outcome State Fault Refusal :=
  s.run fun c => match (c.link k).turn with
    | none => c
    | some t =>
      if !t.decider || t.acked then c
      else if code.toNat = 0 then
        let c := c.modLink k fun x => { x with turn := some { t with acked := true, go := !t.pastConfirm } }
        if t.pastConfirm then c else (c.queueUrgent k 0x22 []).armLanes t
      else (c.turnRefused k (if code.toNat = 1 then refLock else refOther)).abandonTurn k

/-- R128. -/
def execTurnGo (k : Lnk) (s : State) : Host.Outcome State Fault Refusal :=
  s.run fun c => match (c.link k).turn with
    | none => c
    | some t =>
      if t.decider || t.go then c
      else (c.modLink k fun x => { x with turn := some { t with go := true } }).armLanes t

/-! ## Deadlines and boundaries (R101, R102) -/

/-- Unconfirmed lanes are abandoned; a turn with none left is told to Circulation (R102). -/
def Chip.confirmDeadline (c : Chip) (k : Lnk) : Chip := match (c.link k).turn with
  | none => c
  | some t =>
    if t.pastConfirm then c
    else
      let keep := t.lanes.filter fun l => (c.lane l).confirmed
      let c := (t.lanes.filter fun l => !keep.contains l).foldl (fun c l => c.modLane l fun x => { x with txState := 0 }) c
      let c := if t.decider && !t.acked then c.turnRefused k refOther else c
      let c := if t.decider && keep.isEmpty then c.count ⟨SCHED k.idx 5, 0, 16⟩ else c
      c.modLink k fun x => { x with turn := some { t with lanes := keep, pastConfirm := true } }

/-- R102. -/
def execTurnConfirmDeadline (k : Lnk) (s : State) : Host.Outcome State Fault Refusal :=
  s.run fun c => c.confirmDeadline k

/-- A turning lane that is not ready: in its new direction, out of service, to be retrained (R102). -/
def Chip.abortTurnLane (k : Lnk) (c : Chip) (l : Nat) : Chip :=
  let c := if (c.lane l).released then c
    else if c.fld (LANE_STATUS.DIR l) = 1 then c.transmitterRelease l else c.receiverRelease l
  let c := (c.count (TURN_CNT.ABORTED l)).raiseOpen (evOf k 48 49)
  let c := c.modLane l fun x => { x with confirmed := false, released := false, txState := 0, out := .retrainWanted, partnerIn := false }
  c.queueLmc k 0x23 (toBytes 1 (c.linkLane l) ++ [0])

/-- At E1 + 4.0 µs every lane not ready is aborted. -/
def Chip.readyDeadline (c : Chip) (k : Lnk) : Chip := match (c.link k).turn with
  | none => c
  | some t =>
    if t.pastReady || t.epoch = 0 then c
    else
      let bad := t.lanes.filter fun l => !(c.lane l).ready
      let c := bad.foldl (Chip.abortTurnLane k) c
      c.modLink k fun x => { x with turn := some { t with lanes := t.lanes.filter fun l => !bad.contains l, pastReady := true } }

/-- R102. -/
def execTurnReadyDeadline (k : Lnk) (s : State) : Host.Outcome State Fault Refusal :=
  s.run fun c => c.readyDeadline k

/-- A lane enters service in its new group (R101, step 8). -/
def Chip.enterService (c : Chip) (l : Nat) : Chip :=
  let c := ((c.setFld (LANE_STATUS.SVC l) 1).count (TURN_CNT.DONE l)).setFld (LANE_STATUS.EQ_STATE l) 7
  c.modLane l fun x => { x with confirmed := false, released := false, ready := false, armedRx := 0, txState := 0, idle := false }

/-- A boundary of the deciding device during a turn: at E1 the locks of abandoned lanes go and the others leave their groups, at
E2 ready lanes enter service and everything is released (R101, R102). -/
def Chip.turnBoundary (c : Chip) (k : Lnk) : Chip := match (c.link k).turn with
  | none => c
  | some t =>
    let mine (h : MaintHold) : Bool := h.code == 0x03 && h.locks.any fun r => (pairs k).any fun l => r == .lane l
    if t.epoch = 0 then
      let c := c.confirmDeadline k
      let ls := (((c.link k).turn.map (·.lanes)).getD [])
      if ls.isEmpty then
        ((c.modLink k fun x => { x with turn := none }).maintDrop mine).setFld ⟨SCHED k.idx 0, 26, 1⟩ 0
      else
        let narrow (h : MaintHold) : MaintHold := if mine h then { h with locks := ls.map .lane } else h
        let c := { c with maint := { h0 := c.maint.h0.map narrow, h1 := c.maint.h1.map narrow } }
        let c := ls.foldl (fun c l => c.setFld (LANE_STATUS.SVC l) 0) c
        (c.modLink k fun x => { x with
          turn := x.turn.map fun t => { t with epoch := 1 }, partTurn := t.width == 2 && ls.length == 1 }).syncMaps k
    else
      let c := c.readyDeadline k
      let ls := (((c.link k).turn.map (·.lanes)).getD [])
      let c := ls.foldl Chip.enterService c
      let c := ((c.modLink k fun x => { x with turn := none }).maintDrop mine).setFld ⟨SCHED k.idx 0, 26, 1⟩ 0
      let c := { c with seq := { c.seq with turnDone := true } }
      (c.syncMaps k).modSched k fun s => { s with dwell := c.fld CIRC_TURN.DWELL }

end Sys2Proof.Machine
end

