-- ==== Sys2Proof/Machine/Router.lean ====
section
/-! DEFINITION. The cold-standby router: checkpoints, failure causes, fail-over, restart and the standby proof (R161, R162,
R386–R390). -/

namespace Sys2Proof.Machine

/-! ## Checkpoints (R387) -/

/-- The words a checkpoint holds beside the scheduler state: remainders and counts of every flow and the SCHED blocks. -/
def ckptAddrs : List Nat :=
  ((List.range 256).flatMap fun f => [FLOW_DEF f, FLOW_CNT f]) ++ (List.range 2).flatMap fun i => (List.range 8).map (SCHED i)

def Chip.takeCkpt (c : Chip) : Ckpt :=
  { epoch := c.epoch, scheds := c.scheds, turnUl := (c.link .ul).turn, turnCs := (c.link .cs).turn, arb := c.router.arb
    words := c.regs.filter fun p => ckptAddrs.contains p.1, ports := (List.range 16).map c.portSumWord }

/-- The arbiter's rotation pointer for each egress port. No rule says how it moves: a free value in each epoch (log entry 95). -/
def Chip.moveArbiter (c : Chip) : Chip :=
  let (n, c) := c.fresh
  { c with router := { c.router with arb := (List.range 16).map fun p => (Config.freeWord n).toNat / 4 ^ p % 16 } }

/-- The checkpoint of the computation made at this strobe goes to the half that is not the newest complete one. It counts as complete
from here on; CKPT_LATE takes that back (DESIGN CHOICE, log entry 95). -/
def Chip.checkpoint (c : Chip) : Chip :=
  if c.fld ROUT_STATUS.STATE = 1 then c
  else
    let h := if c.on STBY_STATUS.CKPT_VALID then 1 - c.fld STBY_STATUS.HALF else 0
    let c := c.moveArbiter
    let k := some c.takeCkpt
    let c := { c with router := if h = 0 then { c.router with halfA := k } else { c.router with halfB := k } }
    ((c.setFld STBY_STATUS.CKPT_VALID 1).setFld STBY_STATUS.HALF h).setFld STBY_STATUS.CKPT_EPOCH c.epoch

/-- The checkpoint of the computation at this epoch's strobe is not complete: the half does not count, and the other one is the newest
again. -/
def Chip.voidCkpt (c : Chip) : Chip :=
  let h := c.fld STBY_STATUS.HALF
  let newest := if h = 0 then c.router.halfA else c.router.halfB
  if !c.on STBY_STATUS.CKPT_VALID || newest.map (·.epoch) != some c.epoch then c
  else
    let r := if h = 0 then { c.router with halfA := none } else { c.router with halfB := none }
    let old := if h = 0 then r.halfB else r.halfA
    let c := (({ c with router := r }).setFld STBY_STATUS.CKPT_VALID old.isSome.toNat).setFld STBY_STATUS.HALF (1 - h)
    c.setFld STBY_STATUS.CKPT_EPOCH ((old.map (·.epoch)).getD 0)

/-- A turn after the load: the checkpoint's, in the state that the exchange and the lanes have reached since (R128, R162), and none where
the link has lost it. -/
def resumeTurn (saved live : Option Turn) : Option Turn := live.map fun t => match saved with
  | some s => { t with target := s.target, decider := s.decider, width := s.width }
  | none => t

/-- The turns of the links, with TURN_BUSY. -/
def Chip.loadTurn (c : Chip) (k : Lnk) (saved : Option Turn) : Chip :=
  let c := c.modLink k fun x => { x with turn := resumeTurn saved x.turn }
  c.setFld ⟨SCHED k.idx 0, 26, 1⟩ (c.schedules k && (c.link k).turn.isSome).toNat

/-- The configuration image restores what was committed; without one, before the first commit, nothing is lost with the copy (DESIGN
CHOICE, log entry 95). -/
def Chip.loadImage (c : Chip) : Chip := match c.router.image with
  | none => c
  | some x =>
    let at_ (a : Nat) : Word := cellsGet (regReset c.part) x.words a
    let c := (c.setReg CIRC_CTRL (at_ CIRC_CTRL)).setReg CIRC_TURN (at_ CIRC_TURN)
    let c := ((List.range 253).map (3 + ·)).foldl (fun (c : Chip) f =>
      let e := cellsGet (fun _ => FlowEnt.init) x.flows f
      (c.setReg (FLOW_CFG f) (at_ (FLOW_CFG f))).modFlow f fun y => { y with guar := e.guar, ceil := e.ceil, decl := e.decl }) c
    { c with copp := { c.copp with map := (c.copp.map.filter fun e => e.kind != kFlow) ++ x.spares } }

/-- The state that the image and a checkpoint restore; staged words never committed are gone. The port table follows from the entries
restored. -/
def Chip.loadCkpt (c : Chip) (k : Ckpt) : Chip :=
  let c := { c.loadImage with scheds := k.scheds }
  let c := ckptAddrs.foldl (fun (c : Chip) a => c.setReg a (cellsGet (regReset c.part) k.words a)) c
  let c := (c.loadTurn .ul k.turnUl).loadTurn .cs k.turnCs
  let c := { c with router := { c.router with arb := k.arb } }
  ((List.range 253).map (3 + ·)).foldl Chip.restoreStaging c

/-! ## Failure causes (R387) -/

/-- A failure of the active copy seen as a source; its reaction decides between fail-over and safe state (R397). -/
def Chip.routerFault (c : Chip) (src detail : Nat) : Chip := c.raise src (c.fld ROUT_STATUS.ACTIVE + detail)

/-- R387. -/
def execCkptLate (s : State) : Host.Outcome State Fault Refusal := s.run fun c => c.voidCkpt.routerFault 77 0
/-- R387. -/
def execStateErr (s : State) : Host.Outcome State Fault Refusal := s.run fun c => c.routerFault 75 0
/-- R387. -/
def execArbCheck (port : Fin 16) (s : State) : Host.Outcome State Fault Refusal := s.run fun c => c.routerFault 76 (256 * port)

/-- A fail-over is wanted for a cause (codes of ROUT_STATUS.CAUSE): the failure is handled by FAILOVER. None is begun in safe state
(R407). -/
def Chip.wantFailover (c : Chip) (cause : Nat) : Chip :=
  { c with router := { c.router with want := some cause, t0 := if c.router.phase = 0 then c.timeNs else c.router.t0 } }

/-- A write of ROUT_CTRL: FORCE acts in S0 with STATE NORMAL and is ignored otherwise, in safe state too (R407). -/
def Chip.writeRoutCtrl (c : Chip) (v : Word) : Chip :=
  let c := c.writeMasked ROUT_CTRL v
  if bit v 31 && c.sstate = 0 && c.fld ROUT_STATUS.STATE = 0 && !c.safe then c.wantFailover 5 else c

/-- R387. -/
def execForce (v : Word) (s : State) : Host.Outcome State Fault Refusal := s.run fun c => c.writeRoutCtrl v

/-! ## Fail-over (R388) -/

/-- HOLD goes into every block of a link that is up. -/
def Chip.holdLinks (c : Chip) (b : Bool) : Chip :=
  [Lnk.ul, Lnk.cs].foldl (fun c k => c.modLink k fun x => { x with
    holdTx := b && c.linkPresent k, holdAt := if b && !x.holdTx then c.epoch else x.holdAt }) c

/-- Steps 1–3. A confirmed turn goes on and an unconfirmed one is abandoned (R102). Without a standby, or with both halves or the
image bad, EV072 leads to safe state. -/
def Chip.failover (c : Chip) (cause : Nat) (badA badB badImage : Bool) : Chip :=
  let c := { c with router := { c.router with want := none, first := none } }
  let again := c.fld ROUT_STATUS.STATE == 1
  let held := c.on ROUT_STATUS.STBY_OK && c.fld ROUT_STATUS.STATE != 3
  let c := ((c.setFld ROUT_STATUS.CAUSE cause).setFld ROUT_STATUS.STATE 1).raiseOpen 71
  let c := c.holdLinks true
  let settle (c : Chip) : Chip := (c.confirmDeadline .ul).confirmDeadline .cs
  if again || !held then (settle c).raiseOpen 72
  else
    let newest := c.fld STBY_STATUS.HALF
    let (h0, b0, h1, b1) := if newest = 0 then (c.router.halfA, badA, c.router.halfB, badB)
      else (c.router.halfB, badB, c.router.halfA, badA)
    let c := c.when (b0 && h0.isSome) fun c => c.count STBY_CNT.CRC_ERR
    let c := c.when (b0 && b1 && h1.isSome) fun c => c.count STBY_CNT.CRC_ERR
    let use := match h0, b0 with
      | some k, false => some k
      | _, _ => if b1 then none else h1
    match use, badImage with
    | some k, false =>
      let c := settle (c.loadCkpt k)
      { c with router := { c.router with phase := 1 } }
    | _, _ => (settle c).raiseOpen 72

/-- R388. The operands say which checkpoint half or the configuration image fails its CRC. -/
def execFailover (badA badB badImage : Bool) (s : State) : Host.Outcome State Fault Refusal :=
  s.run fun c => match c.router.want with
    | some cause => if c.safe then c else c.failover cause badA badB badImage
    | none => c

/-! ## Restart (R162, R388 steps 4 and 5) -/

/-- The candidate count and DWELL of a scheduler begin again (R162, step 4). -/
def Chip.restartDecision (c : Chip) (k : Lnk) : Chip :=
  c.modSched k fun s => { s with cand := none, count := 0, only3 := false, dwell := c.fld CIRC_TURN.DWELL }

/-- The first computation of one scheduled link: declared demand for 16 epochs, no phases 3 and 4, a fresh ALLOT that ends
HOLD at the partner. -/
def Chip.restartLink (c : Chip) (k : Lnk) : Chip :=
  let c := if c.schedules k then c.restartDecision k else c
  if !c.schedules k || !c.linkUp k then c
  else
    let c := (c.setFld ⟨SCHED k.idx 0, 16, 8⟩ 16).setFld ⟨SCHED k.idx 0, 28, 1⟩ 1
    let c := (c.modSched k fun s => { s with restart := true }).syncSched k
    let c := (c.computeDir k 0 (c.capNow k 0)).computeDir k 1 (c.capNow k 1)
    ((c.sendAllot k (c.capNow k 0)).modSched k fun s => { s with restart := false }).countDecl k

/-- The restarted copy is active: HOLD ends, only CTRL cells are granted, the failed copy is held cold, commits that waited are made
(R162, R390), and functions refused for want of a router are ready (R259). -/
def Chip.restart (c : Chip) : Chip :=
  let c := (c.restartLink .ul).restartLink .cs
  let c := (c.holdLinks false).setFld ROUT_STATUS.ACTIVE (1 - c.fld ROUT_STATUS.ACTIVE)
  let c := ((c.setFld ROUT_STATUS.STATE 3).setFld ROUT_STATUS.STBY_OK 0).count ROUT_STATUS.FAILOVERS
  let c := { c with router := { c.router with phase := 2, proofDue := true } }
  let c := [Lnk.ul, Lnk.cs].foldl (fun c k => c.modLink k fun x =>
    { x with grants := [(ctrlShare, ctrlReserve (c.capNow k 1))] }) c
  let ds := c.deferred
  let c := ds.foldl (fun c d => c.commitFlow d.1 d.2) { c with deferred := [] }
  ((c.drainStalled .ul).drainStalled .cs).fabricReady

/-- E(j+2): all grants resume and the gap is recorded (R388, step 6). The failure lies within its epoch, so less than the whole epochs
between is a free value (log entry 69). -/
def Chip.endGap (c : Chip) : Chip :=
  if c.router.phase != 2 then c
  else
    let (n, c) := c.fresh
    let gap := min (c.timeNs - c.router.t0 - 1 - (Config.freeWord n).toNat % (Config.epochNs - 1)) 65535
    let c := { c with router := { c.router with phase := 0 } }
    (c.setFld ROUT_GAP.GAP_LAST gap).setFld ROUT_GAP.GAP_MAX (max gap (c.fld ROUT_GAP.GAP_MAX))

/-! ## The standby proof (R390) -/

/-- A copy is retired: recorded in the map, with EV237. -/
def Chip.retireCopy (c : Chip) (copy : Nat) : Chip :=
  let c := (c.setFld ROUT_STATUS.STATE 3).setFld ROUT_STATUS.STBY_OK 0
  let c := { c with router := { c.router with retired := c.router.retired ++ [copy], proofDue := false } }
  let e : RepEntry := { kind := kRouter, retired := true, unitNo := 0, orig := copy, spare := 0xFFFF, fuse := false, kept := false }
  (c.addEntry e).noteLast kRouter 0 copy

/-- A proof of the standby is due: after a fail-over, or the periodic one in S0 with STATE NORMAL. -/
def Chip.proofMayBegin (c : Chip) : Bool :=
  !c.safe && ((c.router.proofDue && c.fld ROUT_STATUS.STATE = 3 && c.router.phase = 0) ||
    (c.fld ROUT_STATUS.STATE = 0 && c.fld ROUT_CTRL.PROVE != 0 && c.sstate = 0))

/-- The proof's result: the copy is the standby, or it is retired. -/
def Chip.proofEnds (c : Chip) (pass : Bool) : Chip :=
  if pass then
    let c := ((c.count STBY_CNT.PROOF_PASS).setFld ROUT_STATUS.STATE 0).setFld ROUT_STATUS.STBY_OK 1
    { c with router := { c.router with proofDue := false } }
  else (c.count STBY_CNT.PROOF_FAIL).retireCopy (1 - c.fld ROUT_STATUS.ACTIVE)

/-- A proof begins, its gate closed and STATE PROVING, or the one in progress ends. A failure seen meanwhile abandons it: STATE is
FAILOVER from then on. -/
def Chip.proof (c : Chip) : ProofStep → Chip
  | .begins => if c.proofMayBegin then c.setFld ROUT_STATUS.STATE 2 else c
  | .ends pass => if c.fld ROUT_STATUS.STATE = 2 then c.proofEnds pass else c

/-- R390. -/
def execStandbyProof (x : ProofStep) (s : State) : Host.Outcome State Fault Refusal := s.run fun c => c.proof x

end Sys2Proof.Machine
end

