-- ==== Sys2Proof/Machine/Folios.lean ====
section
/-! DEFINITION. The Folio store: writes and verifies by the host and by the owners, the end of one, tap saves, power loss, and the
load at start-up (R62–R74, R383, R384). -/

namespace Sys2Proof.Machine

/-! ## Results (R70, FOLIO_STATUS) -/

def folioDone : Nat := 1
def folioConflict : Nat := 2
def folioBudget : Nat := 3
def folioVerifyFail : Nat := 4
def folioProgramFail : Nat := 5
def folioSrcError : Nat := 6

/-- RESULT is set, with EV007 for a failure of the write or verify itself. -/
def Chip.folioResult (c : Chip) (code : Nat) : Chip :=
  let c := c.setFld FOLIO_STATUS.RESULT code
  if folioVerifyFail ≤ code then c.raise 7 (c.reg FOLIO_STATUS).toNat else c

/-- What a refusal reports. -/
def refusalCode : MaintAnswer → Nat
  | .conflict => folioConflict
  | _ => folioBudget

/-! ## A host write (R69, R70) -/

/-- Offset of the staged image in the Stacks. -/
def Chip.stagedAt (c : Chip) : Nat := c.fld FOLIO_SRC.BASE * 0x10000

/-- A section as it is staged. -/
def Chip.staged (c : Chip) (lo hi : Nat) : Cells Byte :=
  let b := c.stagedAt
  (c.stkMem.filter fun p => decide (b + lo ≤ p.1) && decide (p.1 < b + hi)).map fun p => (p.1 - b, p.2)

/-- The sections SECT selects: the register image and the owner area. -/
def Chip.hostSections (c : Chip) : List (Nat × Nat) :=
  (if (c.fld FOLIO_CTRL.SECT).testBit 0 then [(0x100, 0x4000)] else []) ++
    (if (c.fld FOLIO_CTRL.SECT).testBit 1 then [(0x9000, 0xA000)] else [])

/-- The body of a host write. -/
def Chip.hostBody (c : Chip) : Cells Byte :=
  c.hostSections.foldl (fun m s => withSection m s.1 s.2 (c.staged s.1 s.2)) c.newestBody.1

/-- WRITE: the lock and unit are taken or the write is refused; an uncorrectable staged burst ends it with SRC_ERROR. -/
def Chip.hostWrite (c : Chip) : Chip :=
  match c.maintRequest 0x30 [.folio c.writeTarget] with
  | (.granted, c) =>
    let bad := (c.hostSections.flatMap fun s => burstsOf (c.stagedAt + s.1) (s.2 - s.1)).filter fun b => c.burstBad (64 * b)
    if !bad.isEmpty then
      ((c.maintDrop fun h => h.code == 0x30).count STAK_ECC.UNCOR bad.length).folioResult folioSrcError
    else (c.beginFolioWrite writerHost c.hostBody).setFld FOLIO_CTRL.WRITE 1
  | (a, c) => c.folioResult (refusalCode a)

/-- VERIFY reads back the copy that is not the newest, under its lock. -/
def Chip.hostVerify (c : Chip) : Chip :=
  let t := c.writeTarget
  match c.maintRequest 0x31 [.folio t] with
  | (.granted, c) =>
    let j : FolioJob := { target := t, writer := writerHost, image := c.copyOf t, before := c.copyOf t, wasValid := c.on (validFld t)
                          retried := false, verify := true }
    ({ c with folio := { c.folio with job := some j } }.setFld FOLIO_STATUS.BUSY 1).setFld FOLIO_CTRL.VERIFY 1
  | (a, c) => c.folioResult (refusalCode a)

/-- A write of FOLIO_CTRL: SECT, and WRITE or VERIFY unless it reads 1. Both are ignored and counted while LOCK is set. -/
def Chip.writeFolioCtrl (c : Chip) (v : Word) : Chip :=
  let w := bit v 0 && !c.on FOLIO_CTRL.WRITE
  let f := bit v 2 && !c.on FOLIO_CTRL.VERIFY
  let locked := c.pageLocked 1
  let sect := (FOLIO_CTRL.SECT).get v != c.fld FOLIO_CTRL.SECT
  let c := c.writeMasked FOLIO_CTRL v
  if locked then if (w || f) && !sect then c.countLockIgn 1 else c
  else
    let c := if w then c.hostWrite else c
    if f then c.hostVerify else c

/-- R70. -/
def execFolioWrite (v : Word) (s : State) : Host.Outcome State Fault Refusal := s.run fun c => c.writeFolioCtrl v
/-- R70. -/
def execFolioVerify (v : Word) (s : State) : Host.Outcome State Fault Refusal := s.run fun c => c.writeFolioCtrl v

/-! ## The owners (R69, R71, R355) -/

/-- The tap section as it stands in the store. -/
def Chip.tapSection (c : Chip) : Cells Byte := c.taps.map fun p => (0x4000 + p.1, p.2)

/-- 10 s in nanoseconds, and 60 s. -/
def tapStable : Nat := 10 ^ 10
def tapSpacing : Nat := 6 * 10 ^ 10

/-- A save falls due: the link has run long enough, and the last save is long enough ago (R72, R74). -/
def Chip.saveDue (c : Chip) (k : Lnk) : Bool :=
  c.linkUp k && c.sstate == 0 && !((pairs k).any fun l => (c.lane l).retraining) &&
    decide ((c.link k).stableNs + tapStable ≤ c.timeNs) &&
    !c.folio.lastTapSaveNs.any fun t => decide (c.timeNs < t + tapSpacing)

/-- The tap store asks for a write of its section: the time of a save is kept, and one that is refused is dropped (R71, R72). -/
def Chip.tapWrite (c : Chip) : MaintAnswer × Chip :=
  match c.ownerWrite writerTaps 0x4000 0x5000 c.tapSection with
  | (.granted, d) => (.granted, { d with folio := { d.folio with lastTapSaveNs := some d.timeNs } })
  | r => r

/-! ## The end of a write (R70) -/

/-- The NVM sector repair that a failed read-back brings in, whatever COPP_CTRL.EN: a spare sector of the copy, or none left (R375). -/
def Chip.sectorRepair (c : Chip) (t sector : Nat) : Bool × Chip :=
  match c.nextSpare kSector t with
  | some s => (true, c.noteRepair kSector t sector s)
  | none => (false, c.noteExhausted kSector t sector)

/-- An image whose commit mark is wrong: a torn copy. -/
def tornImage (m : Cells Byte) : Cells Byte :=
  imgPart m 0 0xFFFC ++ imgOf 0xFFFC ((imgBytes m 0xFFFC 4).map fun b => ~~~b)

/-- Lock and unit are released; a soft reset of the page that waited is made (R60). -/
def Chip.closeJob (c : Chip) (j : FolioJob) : Chip :=
  let c := { c with folio := { c.folio with job := none } }
  let c := (c.maintDrop fun h => h.code == (if j.verify then 0x31 else 0x30)).setFld FOLIO_STATUS.BUSY 0
  if j.verify then c.setFld FOLIO_CTRL.VERIFY 0
  else if j.writer = writerHost then c.setFld FOLIO_CTRL.WRITE 0
  else c

/-- The copy read back sound: it is valid and newest. -/
def Chip.folioDoneOk (c : Chip) (j : FolioJob) : Chip :=
  let c := c.closeJob j
  if j.verify then c.folioResult folioDone
  else
    let t := j.target
    let c := ((c.setCopy t j.image).setFld (validFld t) 1).setReg (accReg t) (BitVec.ofNat 32 (imgAccession j.image))
    let c := (c.setFld FOLIO_STATUS.NEWEST t).folioResult folioDone
    if j.writer = writerMuniment then c.keyWriteEnded true else c

/-- A write that failed with its retry used or no spare left: the target is torn. A verify reports its RESULT only: VALID, the
accession register and NEWEST stay as they were whichever way it ends (DEDUCED, log entry 65). -/
def Chip.folioFailed (c : Chip) (j : FolioJob) : Chip :=
  let c := c.closeJob j
  if j.verify then c.folioResult folioVerifyFail
  else
    let c := (c.setCopy j.target (tornImage j.image)).folioResult folioProgramFail
    if j.writer = writerMuniment then c.keyWriteEnded false else c

/-- Read-back ends: `bad` names a failing sector. A verify also fails on a copy that is not valid by R64. -/
def Chip.folioEnds (c : Chip) (bad : Option Nat) : Chip :=
  match c.folio.job, bad with
  | none, _ => c
  | some j, none => if j.verify && !imgValid (c.copyOf j.target) then c.folioFailed j else c.folioDoneOk j
  | some j, some sector =>
    if j.verify || j.retried then c.folioFailed j
    else match c.sectorRepair j.target sector with
      | (true, c) => { c with folio := { c.folio with job := some { j with retried := true } } }
      | (false, c) => c.folioFailed j

/-- A page soft reset of FOLIO: its PAGE-domain registers. -/
def Chip.resetPageRegs (c : Chip) (p : Nat) (keep : Nat → Bool) : Chip :=
  { c with regs := c.regs.filter fun x => !(pageOf x.1 == p && regDomain x.1 == .page && !keep x.1) }

/-- The deferred soft reset of page FOLIO (R60, R420). -/
def Chip.deferredReset (c : Chip) : Chip :=
  if c.folio.job.isNone && c.folio.deferredSrst then
    let c := { c with folio := { c.folio with deferredSrst := false } }
    (c.resetPageRegs 1 fun _ => false).setFld (PAGE_CTRL.SRST 1) 0
  else c

/-- R70. `bad` is the failing sector found by the read-back, none when it succeeds. -/
def execFolioWriteDone (bad : Option (Fin 16)) (s : State) : Host.Outcome State Fault Refusal :=
  s.run fun c => (c.folioEnds (bad.map (·.val))).deferredReset

/-! ## Tap records (R74) -/

/-- The taps of a tap set as numbers: the coefficients of both transmitters, peaking and gain codes, the receive FFE and h1. -/
def tapValues (ws : List Word) : List Int :=
  let w (i : Nat) : Nat := (ws.getD i 0).toNat
  let half (i : Nat) : List Int := [(BitVec.ofNat 16 (w i)).toInt, (BitVec.ofNat 16 (w i / 65536)).toInt]
  ffeOf (ws.getD 0 0) ++ [((w 1 % 256 : Nat) : Int), ((w 1 / 256 % 256 : Nat) : Int)] ++ (List.range 12).flatMap (fun i => half (2 + i)) ++
    [(BitVec.ofNat 16 (w 14)).toInt] ++ ffeOf (ws.getD 17 0)

/-- Some tap differs by more than one step. -/
def tapsDiffer (a b : List Word) : Bool := (tapValues a).zip (tapValues b) |>.any fun p => decide (1 < (p.1 - p.2).natAbs)

/-- The record that holds an identity, whatever its RATE. -/
def Chip.recordFor (c : Chip) (k : Lnk) (id : List Byte) : Option Nat :=
  (List.range 4).find? fun r => c.tapBytes (recordAt k r) 16 == id

/-- The record a new identity replaces: the lowest use count, the lowest offset among equals. -/
def Chip.leastUsed (c : Chip) (k : Lnk) : Nat :=
  let uses (r : Nat) : Nat := ofBytes (c.tapBytes (recordAt k r + 0x14) 2)
  (List.range 4).foldl (fun b r => if uses r < uses b then r else b) 0

/-- The 512 bytes of a record as the link runs now. -/
def Chip.recordBytes (c : Chip) (k : Lnk) (id : List Byte) (uses : Nat) : List Byte :=
  let set (ll : Nat) : List Word := c.tapWords (c.pairOf k ll)
  let pre := ((List.range 4).map fun ll => ((set ll).getD 1 0).toNat / 65536 % 4 * 4 ^ ll).sum
  id ++ toBytes 1 (c.fld (LINK_STATUS.RATE k.idx)) ++ toBytes 1 (c.fld (LINK_STATUS.VERSION k.idx)) ++ toBytes 2 pre ++
    toBytes 2 uses ++ List.replicate 42 0 ++ (List.range 4).flatMap fun ll => (set ll).flatMap fun w => toBytes 4 w.toNat

/-- The save itself; one refused its lock or unit is dropped. -/
def Chip.saveTaps (c : Chip) (k : Lnk) (id : List Byte) : Chip :=
  let held := c.recordFor k id
  let r := held.getD (c.leastUsed k)
  let uses := if held.isSome then ofBytes (c.tapBytes (recordAt k r + 0x14) 2) else 0
  let changed := held.isNone || (List.range 4).any fun ll => tapsDiffer (c.recordTaps k r ll) (c.tapWords (c.pairOf k ll))
  if !changed then c
  else
    let d := c.setTapBytes (recordAt k r) (c.recordBytes k id uses)
    match d.tapWrite with
    | (.granted, d) => d
    | (_, d) => { d with taps := c.taps }

/-- The tap store saves what a link runs with, if a save is due and its cable has an identity (R72, R74). -/
def Chip.saveLink (c : Chip) (k : Lnk) : Chip := match c.cableId k with
  | some id => if c.saveDue k then c.saveTaps k id else c
  | none => c

/-- R74. -/
def execTapSave (k : Lnk) (s : State) : Host.Outcome State Fault Refusal := s.run fun c => c.saveLink k

/-! ## Owners' writes (R69) -/

/-- An owner asks for a write of its own section; the tap store as R74 lets it. -/
def Chip.ownerRequest (c : Chip) (o : FolioOwner) : Chip :=
  match o with
  | .coppice => c.requestMapWrite
  | .muniment => (c.ownerWrite writerMuniment 0x7000 0x9000 (c.keySection c.muni.slots)).2
  | .tapStore => (c.saveLink .ul).saveLink .cs
  | .munimentClear => c.clearKeyFolios

/-- R69. -/
def execFolioOwnerWrite (o : FolioOwner) (s : State) : Host.Outcome State Fault Refusal :=
  s.run fun c => if c.folio.job.isSome && o == .munimentClear then c else c.ownerRequest o

/-! ## Power loss (R73) -/

/-- What the target of a write holds when the supply fails in a step of R70. -/
def jobRemains (j : FolioJob) (step : Nat) : Cells Byte :=
  if j.verify then j.before
  else if step ≤ 2 then if j.retried then [] else j.before
  else if step = 3 then []
  else if step ≤ 6 then tornImage j.image
  else j.image

/-- The copies after a power loss. -/
def Chip.losePower (c : Chip) (step : Nat) : Chip :=
  match c.folio.job with
  | some j => c.setCopy j.target (jobRemains j step)
  | none => c

/-! ## The load at step 3 (R64–R68, R73) -/

/-- TORN_WRITER: of the torn copy, or of the newer one of two. -/
def tornWriter (a b : Cells Byte) : Nat :=
  match imgTorn a, imgTorn b with
  | false, false => 0xF
  | true, false => imgWriter a
  | false, true => imgWriter b
  | true, true => if newerAcc (imgAccession b) (imgAccession a) then imgWriter b else imgWriter a

/-- The copy a load makes active. -/
def newestCopy (a b : Cells Byte) : Option Nat :=
  match imgValid a, imgValid b with
  | true, true => some (if newerAcc (imgAccession b) (imgAccession a) then 1 else 0)
  | true, false => some 0
  | false, true => some 1
  | false, false => none

/-- An entry of a register image is applied only to a FOLIO-domain register of a local page. -/
def entryApplies (part : Part) (a : Nat) : Bool :=
  a % 4 == 0 && decide (a < 0x40000) && pagePresent part (pageOf a) && (accessOf a).any fun d => d.dom == .folio

/-- The entries of the register image, up to its end. -/
def imageEntries (m : Cells Byte) : Nat → Nat → List (Nat × Nat)
  | 0, _ => []
  | fuel + 1, i =>
    let a := imgNat m (0x100 + 8 * i) 4
    if a = 0xFFFFFFFF then [] else (a, imgNat m (0x104 + 8 * i) 4) :: imageEntries m fuel (i + 1)

/-- The flags of FOLIO_STATUS after a load. -/
def Chip.loadFlags (c : Chip) : Chip :=
  let a := c.folio.copyA
  let b := c.folio.copyB
  let one (x : Bool) : Nat := if x then 1 else 0
  let n := newestCopy a b
  let c := ((c.setFld FOLIO_STATUS.VALID_A (one (imgValid a))).setFld FOLIO_STATUS.VALID_B (one (imgValid b)))
  let c := ((c.setFld FOLIO_STATUS.TORN_A (one (imgTorn a))).setFld FOLIO_STATUS.TORN_B (one (imgTorn b)))
  let c := (c.setFld FOLIO_STATUS.TORN_WRITER (tornWriter a b)).setFld FOLIO_STATUS.SHELF (one n.isNone)
  let c := (c.setFld FOLIO_STATUS.NEWEST (n.getD 0)).setFld FOLIO_STATUS.ACTIVE (n.getD 0)
  let c := if imgValid a then c.setReg FOLIO_ACC_A (BitVec.ofNat 32 (imgAccession a)) else c
  if imgValid b then c.setReg FOLIO_ACC_B (BitVec.ofNat 32 (imgAccession b)) else c

/-- EV005 with no valid copy, EV006 with a torn one, EV229 with a torn write of a key command. -/
def Chip.loadEvents (c : Chip) : Chip :=
  let a := c.folio.copyA
  let b := c.folio.copyB
  let w := (c.reg FOLIO_STATUS).toNat
  let c := if (newestCopy a b).isNone then c.raise 5 w else c
  let c := if imgTorn a || imgTorn b then c.raise 6 w else c
  if (imgTorn a && imgWriter a == writerMuniment) || (imgTorn b && imgWriter b == writerMuniment) then c.raise 229 0 else c

/-- An entry of the map in force is applied again (R384): a key slot stays moved. A flow's spare shows in the spare table, which is read
from the map. -/
def Chip.applyEntry (c : Chip) (e : RepEntry) : Chip :=
  let c := c.when (poolSpares e.kind e.unitNo ≤ c.poolUsed e.kind e.unitNo) fun c => c.setFld ⟨COPP_STATUS, 11 + e.kind, 1⟩ 1
  if e.kind = kSlot then
    (List.range 64).foldl (fun c s => if (c.slot s).phys = e.orig then c.setSlot s { c.slot s with phys := e.spare } else c) c
  else c

/-- An entry as the section holds it. -/
def sectionEntry (m : Cells Byte) (i : Nat) : RepEntry :=
  let a := 0x5800 + 8 * i
  { kind := imgNat m a 1, retired := (imgNat m (a + 1) 1) % 2 == 1, unitNo := imgNat m (a + 2) 2, orig := imgNat m (a + 4) 2
    spare := imgNat m (a + 6) 2, fuse := false, kept := true }

/-- The map in force at step 3: fuse entries and those of the loaded section, with BAR and the baselines (R382, R384). -/
def Chip.loadMap (c : Chip) : Chip :=
  let fuses := c.copp.map.filter fun e => e.fuse
  match c.folio.active.filter holdsMap with
  | none =>
    let c := c.modCopp fun x => { x with map := fuses, base := [] }
    fuses.foldl (fun c e => c.applyEntry e) c
  | some m =>
    let es := fuses ++ (List.range (min 768 (imgNat m 0x5004 2))).map (sectionEntry m)
    let c := c.modCopp fun x => { x with map := es, base := (List.range 9).map fun i => imgNat m (0x5100 + 4 * i) 4 }
    es.foldl (fun c e => c.applyEntry e) (c.setFld MON_STATUS.BAR (imgNat m 0x5008 4))

/-- Step 3: the newest valid copy becomes active, or shelf defaults are loaded. -/
def Chip.loadFolio (c : Chip) : Chip :=
  let n := newestCopy c.folio.copyA c.folio.copyB
  let c := { c with folio := { c.folio with active := n.map c.copyOf } }
  let c := c.loadFlags
  let m := c.folio.active.getD []
  let es := if c.folio.active.isSome then imageEntries m 2016 0 else []
  let skipped := (es.filter fun e => !entryApplies c.part e.1).length
  let c := c.setFld FOLIO_SKIP.SKIPPED skipped
  let taps := (imgPart m 0x4000 0x5000).map fun p => (p.1 - 0x4000, p.2)
  ({ c with taps := taps }.loadEvents).loadMap

/-- The word a register takes from the image: its writable bits (R67). A reaction that the source does not permit stays as it was
(R395). -/
def Chip.imageWord (c : Chip) (d : RegDesc) (a : Nat) (v : Word) : Word :=
  let src := (a - EVT_SRC 0) / 4
  let isSrc := EVT_SRC 0 ≤ a && a < EVT_SRC 256
  if isSrc && !(evSource src).permit.testBit ((EVT_SRC.REACT src).get v) then c.reg a
  else maskedWord { d with w1c := 0 } false (c.reg a) v

/-- The FOLIO-domain values of the pages of a step are applied, and marked pages are locked (R67, R421). -/
def Chip.applyPages (c : Chip) (pages : List Nat) : Chip :=
  let all : List (Nat × Nat) := match c.folio.active with
    | some m => imageEntries m 2016 0
    | none => []
  let es := all.filter fun e => entryApplies c.part e.1 && pages.contains (pageOf e.1)
  let c := es.foldl (fun (c : Chip) e => match accessOf e.1 with
    | some d => c.setReg e.1 (c.imageWord d e.1 (BitVec.ofNat 32 e.2))
    | none => c) c
  let marks := (c.reg AUTOLOCK_LO).toNat + (c.reg AUTOLOCK_HI).toNat * 2 ^ 32
  (pages.filter fun p => marks.testBit p && pagePresent c.part p).foldl (fun c p => c.setFld (PAGE_CTRL.LOCK p) 1) c

/-! ## Persistent slots (R353–R355, R360) -/

/-- A record that is not blank: its physical slot and bytes. -/
def slotRecords (m : Cells Byte) : List (Nat × List Byte) :=
  ((List.range 72).map fun i => (i, imgBytes m (0x7000 + 64 * i) 64)).filter fun r => r.2.any (· != 0)

/-- A record's mode and life-cycle code are those in force. -/
def Chip.recordMatches (c : Chip) (r : Nat × List Byte) : Bool :=
  let f := (r.2.getD 59 0).toNat
  f % 2 == (if c.masked then 0 else 1) && f / 2 % 8 == c.fld LC_STATUS.STATE

/-- The records of the active copy are loaded; those of another mode or state are skipped. -/
def Chip.loadSlots (c : Chip) : Chip :=
  let rs := match c.folio.active with
    | some m => slotRecords m
    | none => []
  let c := (c.modMuni fun m => { m with loading := rs.filter c.recordMatches }).setFld MUNI_STATUS.LOADED 0
  let c := c.setFld MUNI_STATUS.SKIPPED 0
  c.skipRecords (rs.filter fun r => !c.recordMatches r).length

/-- Step 4: the root is selected, the slots are loaded, the entropy test starts, and RETURN and SCRAPPED clear the copies' slots. -/
def Chip.startMuniment (c : Chip) : Chip :=
  let c := c.modMuni fun m => { m with root := rootOf c.fuses.state c.fuses.seeds }
  let c := { c with folio := { c.folio with keyClear := c.fuses.state == 3 || c.fuses.state == 4 } }
  (c.setFld MUNI_STATUS.ENT 0).loadSlots

end Sys2Proof.Machine
end

