-- ==== Sys2Proof/Machine/Startup.lean ====
section
/-! DEFINITION. Power good and the straps, the steps of start-up with their staggered enables, and the power-on and warm resets
(R41–R46, R53–R61, R67, R75, R406, R423, R424). -/

namespace Sys2Proof.Machine

/-! ## Straps (R41–R43) -/

/-- The value a strap takes: the one two samples share, else open. -/
def strapValue (s : StrapSamples) : StrapTie :=
  if s.a == s.b || s.a == s.c then s.a else if s.b == s.c then s.b else .opn

def strapUnstable (s : StrapSamples) : Bool := !(s.a == s.b && s.b == s.c)

/-- STRAP_STATUS takes the samples; EV001 when one strap's disagreed. -/
def Chip.sampleStraps (c : Chip) (role testEn : StrapSamples) : Chip :=
  let r := match strapValue role with | .gnd => 1 | .hi => 2 | .opn => 0
  let u := strapUnstable role || strapUnstable testEn
  let c := (c.setFld STRAP_STATUS.CASC_ROLE r).setFld STRAP_STATUS.TEST_EN (if strapValue testEn == .hi then 1 else 0)
  let c := c.setFld STRAP_STATUS.UNSTABLE (if u then 1 else 0)
  if u then c.raise 1 (c.reg STRAP_STATUS).toNat else c

/-- Power good: step 1. -/
def Chip.powerGood (c : Chip) (role testEn : StrapSamples) : Chip :=
  if c.boot.step != 0 then c
  else
    let c := c.sampleStraps role testEn
    (({ c with boot := { c.boot with step := 1 } }).clearCable 1).walk

/-- R53. -/
def execPowerGood (role testEn : StrapSamples) (s : State) : Host.Outcome State Fault Refusal :=
  s.run fun c => c.powerGood role testEn

/-! ## Staggered enables (R55) -/

/-- The three runs of staggered enables: VBUS, DP_PWR, M2_3V3. -/
def Supply.run : Supply → Nat
  | .ds _ => 0
  | .dp _ => 1
  | .m2 _ => 2
  | _ => 3

/-- A socket that is to be powered. -/
def Chip.wantsSocket (c : Chip) (p : Nat) : Bool :=
  (c.pep p).asked && c.granted (itSock p) && !(c.pep p).cycled && decide (10 ≤ c.boot.step) && c.domainOn 10 && !c.safe &&
    c.pageOn (0x2C + p) && c.switchWorks (3 + p) && !c.on (PEP_STATUS.PWR_ON p)

/-- The enable itself: the ramp begins, or waits for the one in progress. A DP switch that has tripped stays open until PWR_EN is written
(R237). -/
def Chip.enableOne (c : Chip) : Supply → Chip
  | .ds p => if c.wantsVbus p && !c.on (PORT_STATUS.VBUS_ON p) then c.askRamp (.ds p) else c
  | .dp o => if c.on (DPTX_CTRL.PWR_EN o) && !(c.dp o).tripped then c.dpPowerOn o else c
  | .m2 p => if c.wantsSocket p then c.rampSocket p else c
  | _ => c

/-- The next enable of a run. -/
def Chip.enableNext (c : Chip) (run : Nat) : Chip :=
  match c.boot.stagger.find? fun x => x.run == run with
  | none => c
  | some x => ({ c with boot := { c.boot with stagger := c.boot.stagger.filter (· != x) } }).enableOne x

/-- R55. -/
def execStaggeredEnable (kind : Fin 3) (s : State) : Host.Outcome State Fault Refusal := s.run fun c => c.enableNext kind

/-- Enables that fall due one after another. -/
def Chip.addStagger (c : Chip) (xs : List Supply) : Chip :=
  { c with boot := { c.boot with stagger := c.boot.stagger ++ xs } }

/-! ## The steps (R54) -/

/-- The last step: the MH4142 has no cascade. -/
def Chip.lastStep (c : Chip) : Nat := match c.part with | .mh4160 => 12 | .mh4142 => 11

/-- The pages whose FOLIO-domain values a step applies: those of the blocks it starts (R54, R67; DEDUCED, log
entry 22). -/
def stepPages : Nat → List Nat
  | 3 => [0x00, 0x01, 0x02, 0x03, 0x04, 0x05, 0x06, 0x30, 0x31, 0x32, 0x33, 0x34, 0x3D]
  | 4 => [0x35, 0x36, 0x37, 0x38]
  | 5 => [0x07, 0x08, 0x09, 0x0A, 0x0B, 0x0C, 0x0D, 0x0E, 0x0F, 0x1A, 0x1B, 0x1D, 0x1E, 0x3B, 0x3C]
  | 6 => [0x39, 0x3A]
  | 7 => [0x10, 0x11, 0x12, 0x13, 0x18]
  | 8 => [0x28, 0x29, 0x2A]
  | 9 => [0x1F, 0x20, 0x21, 0x22, 0x23, 0x24, 0x25, 0x26, 0x27]
  | 10 => [0x2B, 0x2C, 0x2D]
  | 11 => [0x2E, 0x2F]
  | 12 => [0x14, 0x15, 0x16, 0x17, 0x19, 0x1C]
  | _ => []

/-- A ramp of a power domain (PDOM). -/
def Chip.countRamp (c : Chip) (d : Nat) : Chip := c.count ⟨PDOM_TBL d, 0, 16⟩

/-- A sink that held vSafe5V until the policy was loaded asks for what it takes; one that has received no Source_Capabilities asks for
them (R284). -/
def Chip.askSink (c : Chip) (p : Nat) : Chip :=
  if !c.sourceOn p then c
  else if (c.pdPort p).caps.isEmpty then c.sendPd p .getSourceCaps
  else c.requestPower p

def Chip.askSinks (c : Chip) : Chip := if c.boot.kind = 0 then (c.askSink 0).askSink 2 else c

/-- Step 4: the sinks ask, and the security domain starts. -/
def Chip.startSecurity (c : Chip) : Chip := (c.askSinks.applyPages (stepPages 4)).startMuniment

/-- A router copy that the map retires is neither active nor standby (R386, R390). -/
def Chip.dropRetired (c : Chip) : Chip :=
  let gone := (c.copp.map.filter fun e => e.kind == kRouter && e.retired).map (·.orig)
  let c := { c with router := { c.router with retired := gone } }
  match gone.head? with
    | some x => ((c.setFld ROUT_STATUS.ACTIVE (1 - x)).setFld ROUT_STATUS.STATE 3).setFld ROUT_STATUS.STBY_OK 0
    | none => c

/-- The core leaves reset and ALIVE starts. -/
def Chip.startAlive (c : Chip) : Chip :=
  { c with boot := { c.boot with warmRun := false }, ev := { c.ev with aliveOn := true, tokens := 0, tokenFree := true, tokenHeld := false } }

/-- Step 5 ends: the core leaves reset with the active router, ALIVE starts, and EV000 names the reset. -/
def Chip.coreStarts (c : Chip) : Chip :=
  let c := (c.applyPages (stepPages 5)).dropRetired.startAlive
  (c.raise 0 c.boot.kind).syncCirc

/-- Every granule counts as filled. -/
def Chip.allFilled (c : Chip) : Chip := { c.setFld STAK_STATUS.FILLED 1 with stkFilled := [] }

/-- Step 6 ends: the Stacks interface is trained. A reset that keeps the Stacks has nothing to fill. -/
def Chip.stacksUp (c : Chip) : Chip :=
  let c := ((c.setFld STAK_STATUS.TRAINED 1).setFld STAK_STATUS.CH_OK 0xFF).raiseVisl 1
  let c := c.applyPages (stepPages 6)
  if c.boot.kind = 1 || c.boot.kind = 3 then c.allFilled else c

/-- Every port is to be powered, DS0 first. -/
def Chip.askPorts (c : Chip) : Chip :=
  ((List.range 6).foldl (fun c p => c.modPort p fun x => { x with asked := true }) c).addStagger ((List.range 6).map .ds)

/-- Step 8: the hub leaves reset, and the ports are powered. -/
def Chip.startHub (c : Chip) : Chip := (((c.applyPages (stepPages 8)).askPorts).walk.enableNext 0).syncUpstream

/-- Heads that the Folio enables rise as by a write of EN. -/
def Chip.clearHeads (c : Chip) (hs : List Nat) : Chip := hs.foldl (fun c h => c.setFld (HEAD_CTRL.EN h) 0) c
def Chip.raiseHeads (c : Chip) (hs : List Nat) : Chip := hs.foldl (fun c h => (c.setFld (HEAD_CTRL.EN h) 1).enableHead h) c

/-- DP_PWR of every output with PWR_EN is due, DP0 first. -/
def Chip.askOutputs (c : Chip) : Chip :=
  c.addStagger (((List.range 4).filter fun o => c.hasOut o && c.on (DPTX_CTRL.PWR_EN o)).map .dp)

/-- Outputs whose sink is there start. -/
def Chip.startOutputs (c : Chip) : Chip :=
  ((List.range 4).filter fun o => c.hasOut o && c.on (DPTX_STATUS.HPD o)).foldl (fun c o => c.dpStart o) c

/-- Step 9: heads whose EN the Folio sets start as by a write; DP_PWR of DP0 first. -/
def Chip.startDisplay (c : Chip) : Chip :=
  let c := c.applyPages (stepPages 9)
  let hs := c.headList.filter fun h => c.on (HEAD_CTRL.EN h)
  ((((c.clearHeads hs).askOutputs).raiseHeads hs).enableNext 1).startOutputs

/-- Sockets with AUTO_PWR are to be powered. -/
def Chip.askSockets (c : Chip) : Chip :=
  let ps := c.pepList.filter fun p => c.on (PEP_CTRL.AUTO_PWR p)
  (ps.foldl (fun c p => c.modPep p fun x => { x with asked := true }) c).addStagger (ps.map .m2)

/-- OFF_DELAY runs from the start outside native mode. -/
def Chip.startOffDelay (c : Chip) : Chip := { c with pcie := { c.pcie with offDelay := !c.native .ul } }

/-- Step 10: the switch starts, and sockets with AUTO_PWR are powered. -/
def Chip.startSockets (c : Chip) : Chip := (((c.applyPages (stepPages 10)).askSockets).startOffDelay).walk.enableNext 2

/-- Step 11: the MAC and PHY start. -/
def Chip.startEthernet (c : Chip) : Chip :=
  let c := c.applyPages (stepPages 11)
  if c.ethRuns then c.emit .autoneg else c

/-- Step 12: the cascade's SerDes, and CS may source vSafe5V for a sink attached since step 1 (R56). A paired follower's CS link runs
without a mode to enter (R50, R338). -/
def Chip.startCascade (c : Chip) : Chip :=
  let c := ((c.applyPages (stepPages 12)).walk).closeSource 1
  if c.pairedFollower && !c.native .cs then (c.setFld (PD_STATUS.MODE 1) 2).enterLink .cs else c

/-- After S3 a link whose mode is kept sends the wake pattern before it trains (R326). -/
def Chip.wakeAfterOff (c : Chip) (k : Lnk) : Chip := if c.boot.kind = 2 && c.native k then c.emit (.wakePattern k) else c

/-- A step begins. -/
def Chip.beginStep (c : Chip) (n : Nat) : Chip :=
  match n with
  | 2 => (if c.boot.kind = 0 then c.clearRegs [EPOCH_LO, EPOCH_HI] else c).countRamp 1
  | 3 => (((c.countRamp 2).loadFolio).applyPages (stepPages 3)).refeed
  | 4 => (c.countRamp 3).startSecurity
  | 5 => (c.countRamp 4).askRamp .vcore
  | 6 => (c.countRamp 6).askRamp .vstk
  | 7 => ((c.countRamp 7).applyPages (stepPages 7)).wakeAfterOff .ul
  | 8 => (c.countRamp 8).startHub
  | 9 => (c.countRamp 9).startDisplay
  | 10 => (c.countRamp 10).startSockets
  | 11 => (c.countRamp 11).startEthernet
  | 12 => (c.countRamp 12).startCascade.wakeAfterOff .cs
  | _ => c

/-- The rail of the step in progress is still to reach regulation. -/
def Chip.railDue (c : Chip) : Bool := c.rampDue .vcore || c.rampDue .vstk

/-- The last step of an exit from S3 ends it (R326). -/
def Chip.exitEnds (c : Chip) : Chip := ({ c with seq := { c.seq with exiting := none } }).setFld PS_STATUS.BUSY 0

/-- 100 µs after a step has ended the next one begins. -/
def Chip.startupStep (c : Chip) : Chip :=
  let n := c.boot.step + 1
  if c.boot.step = 0 || c.lastStep < n || c.railDue || c.safe then c
  else
    let c := ({ c with boot := { c.boot with step := n } }).beginStep n
    if n = c.lastStep && c.seq.exiting = some 3 then c.exitEnds else c

/-- R54. -/
def execStartupStep (s : State) : Host.Outcome State Fault Refusal := s.run fun c => c.startupStep

/-- R75. The fill has reached every granule: scrub may start. -/
def execZeroFillDone (s : State) : Host.Outcome State Fault Refusal :=
  s.run fun c =>
    if c.on STAK_STATUS.TRAINED && !c.on STAK_STATUS.FILLED then c.allFilled else c

/-! ## Resets (R58, R59) -/

/-- Switched outputs open and the heads stop. -/
def Chip.stopOutputs (c : Chip) : Chip :=
  let c := c.headList.foldl (fun c h => c.stopHead h) c
  let c := (List.range 4).foldl (fun c o => c.dpPower o false) c
  c.pepList.foldl (fun c p => c.pepOff p) ((List.range 6).foldl (fun c p => c.openPort p) c)

/-- What every reset keeps: the part, the Folio copies, the fuses with the state burned for this reset, the certificate unless the
state changes, and fuse entries of the map. -/
def Chip.afterReset (c : Chip) (kind step : Nat) : Chip :=
  let cert := if c.fuses.state = c.fuses.pending then c.muni.cert else []
  { Chip.reset with
    part := c.part
    out := c.out
    timeNs := c.timeNs
    free := c.free
    folio := { Folio.init with
      copyA := c.folio.copyA
      copyB := c.folio.copyB }
    fuses := { c.fuses with state := c.fuses.pending }
    muni := { Muni.init with cert := cert }
    copp := { Copp.init with map := c.copp.map.filter fun e => e.fuse }
    boot := { Boot.init with
      step := step
      kind := kind
      warmRun := kind == 1 || kind == 3
      svcVref := c.boot.svcVref } }

/-- A register of the PD ports or the power path that shows what a warm reset keeps: contracts, roles, modes, cables, the feed. -/
def pdLive (a : Nat) : Bool :=
  let p := pageOf a
  decide (0x30 ≤ p) && decide (p ≤ 0x33) && decide (0x400 ≤ a % 0x1000) && !(a == PP_CNT || (p != 0x33 && a % 0x1000 == 0x418))

/-- A register whose value a reset other than power-on keeps. -/
def keptWarm (a : Nat) : Bool := regDomain a == .por || pdLive a || pageOf a == 0x03 && decide (0x800 ≤ a % 0x1000)

/-- GANGED of the ports in the ganged group, which they stay in until power-on reset (R252). -/
def Chip.gangPorts (c : Chip) : Chip :=
  ((List.range 6).filter fun p => c.copp.ganged.contains (0, p)).foldl (fun c p => c.setFld (PORT_STATUS.GANGED p) 1) c

/-- What a warm reset and an exit from S3 keep of Coppice beside its map: the ganged ports (R252), and the lost segments of a switch
that stays open until power-on reset (R380). -/
def Copp.kept (x : Copp) : List (Nat × Nat) × List (Nat × Nat) :=
  (x.ganged.filter fun g => g.1 == 0, x.lostSegments.filter fun e => decide (4 < (x.lostSegments.filter fun y => y.1 == e.1).length))

/-- What a warm reset and an exit from S3 keep beside it: kept registers, PD, the grants of roles, ALIVE's level, the Ledger's
numbering, and LAST_STATUS, which shows a discarded request (R257). -/
def Chip.keepWarm (c d : Chip) : Chip :=
  let c := c.discardSvcf.setFld SVCF_STATUS.CONFIGURED 0
  let ev := { EvSt.init with
    aliveLevel := c.ev.aliveLevel
    nextId := c.ev.nextId
    lastSeq := c.ev.lastSeq
    junctionHot := c.ev.junctionHot
    junctionCrit := c.ev.junctionCrit }
  let d := { d with
    regs := c.regs.filter fun x => keptWarm x.1
    pd := c.pd
    budget := { c.budget with granted := c.budget.granted.filter fun i => i == 0 || i == itUl || i == itCasc }
    folio := { d.folio with lastTapSaveNs := c.folio.lastTapSaveNs }
    svcf := { Svcf.init with lastAddr := c.svcf.lastAddr }
    copp := { d.copp with ganged := c.copp.kept.1, lostSegments := c.copp.kept.2 }
    ev := ev }
  let d := d.gangPorts
  (List.range 8).foldl (fun d l => d.setFld (LANE_STATUS.TURN_MEDIA l) (c.fld (LANE_STATUS.TURN_MEDIA l))) d

/-- The Stacks keep their contents and their uncorrectable bursts. -/
def Chip.keepStacks (c d : Chip) : Chip := { d with stkMem := c.stkMem, stkBad := c.stkBad, stkFilled := c.stkFilled }

/-- The life-cycle fuses as they read after a reset. -/
def Chip.showFuses (c : Chip) : Chip :=
  let st := c.fuses.state
  (((c.setFld LC_STATUS.STATE st).setFld LC_STATUS.PENDING st).setFld LC_STATUS.PEND 0).setFld LC_STATUS.SEED_USED c.fuses.seeds.length

/-- R44. VSYS has fallen below 4.3 V, in the given step of R70 when a Folio write runs: power-on reset. -/
def execBrownOut (folioStep : Fin 8) (s : State) : Host.Outcome State Fault Refusal :=
  s.run fun c => (((c.losePower folioStep).stopOutputs).afterReset 0 0).showFuses

/-- RST_CAUSE after a reset, with the path of its WARM write. -/
def Chip.setCause (c : Chip) (kind path : Nat) : Chip :=
  let c := (c.setFld RST_CAUSE.KIND kind).setFld RST_CAUSE.PATH path
  if kind = 1 || kind = 3 then c.count RST_CAUSE.WARM_CNT else c

/-- A warm reset begins, of kind 1 or 3: steps 3–12 follow, after step 2 when the reference is off (R322). -/
def Chip.warmReset (c : Chip) (kind path : Nat) : Chip :=
  let c := c.stopOutputs
  let d := c.keepStacks (c.keepWarm (c.afterReset kind (if c.domainOn 1 then 2 else 1)))
  (((d.showFuses).setFld SAFE_STATUS.ACTIVE 0).setCause kind path).walk

/-- An exit from S3: steps 2–12 follow, and the Stacks are filled anew (R318, R326). -/
def Chip.exitReset (c : Chip) : Chip :=
  let d := ((c.keepWarm (c.afterReset 2 1)).showFuses).setCause 2 7
  ({ d with seq := { d.seq with exiting := some 3 } }).setFld PS_STATUS.BUSY 1

/-- A warm reset waits for the end of a Folio write, and in safe state for the junction (R60, R406). -/
def Chip.mayReset (c : Chip) : Bool := !c.folioWrites && !(c.safe && c.ev.junctionCrit)

/-- R58. -/
def execWarmReset (s : State) : Host.Outcome State Fault Refusal :=
  s.run fun c => match c.boot.warm with
    | some path => if c.mayReset then c.warmReset (if c.safe then 3 else 1) path else c
    | none => c

/-- PATH of a WARM write (R423). -/
def warmPath : Path → Nat
  | .flow1Ul | .flow1Cs => 0
  | .bridge => 1
  | .svcf => 2
  | .svcp => 3

/-- A warm reset is wanted, unless one is pending or in progress (R424). -/
def Chip.wantWarm (c : Chip) (path : Nat) : Chip :=
  if c.boot.warm.isSome || c.boot.warmRun then c else { c with boot := { c.boot with warm := some path } }

/-- A write of RST_CTRL: WARM reads 0. -/
def Chip.writeRstCtrl (c : Chip) (p : Path) (v : Word) : Chip := if bit v 0 then c.wantWarm (warmPath p) else c

/-- R60. -/
def execWarm (p : Path) (v : Word) (s : State) : Host.Outcome State Fault Refusal := s.run fun c => c.writeRstCtrl p v

end Sys2Proof.Machine
end

