-- ==== Sys2Proof/Machine/Pages.lean ====
section
/-! DEFINITION. The common page header: page soft reset, disable and enable, and the page lock, with what each does to the block
behind the page (R59, R60, R104, R419–R421). -/

namespace Sys2Proof.Machine

/-- Pages on which EN reads 1 and ignores writes, and SRST ignores writes (R419). -/
def fixedPage (p : Nat) : Bool := [0x00, 0x02, 0x04, 0x05, 0x06, 0x08, 0x09, 0x0F, 0x3C].contains p

/-! ## Registers -/

/-- A PAGE-domain register that shows a live state which no reset of its page overrides: of a lane (R104), of an output's HPD, of a PD
port. -/
def pageKeeps (p a : Nat) : Bool :=
  if 0x10 ≤ p && p ≤ 0x17 then a == LANE_STATUS (p - 0x10) || (decide (TAP_SET (p - 0x10) 0 ≤ a) && decide (a ≤ TAP_SET (p - 0x10) 27))
  else if 0x24 ≤ p && p ≤ 0x27 then a == DPTX_STATUS (p - 0x24)
  else pdLive a

def Chip.pageRegs (c : Chip) (p : Nat) : Chip := c.resetPageRegs p (pageKeeps p)

/-! ## The condition that ends a page soft reset (R59, R419) -/

/-- A plane swap that is due is given up. -/
def Chip.dropPlane (c : Chip) : Chip := c.modCopp fun x => { x with planeDue := none }

/-- In-service repairs of the Stacks and of lanes end, with their locks. -/
def Chip.stopRepairs (c : Chip) : Chip :=
  (c.modCopp fun x => { x with running := [], waiting := [], repairLanes := [] }).maintDrop fun h =>
    h.code == 0x04 || h.code == 0x11 || h.code == 0x12

/-- A verify ends without a result, with its lock. -/
def Chip.stopVerify (c : Chip) : Chip := match c.folio.job with
  | some j => if j.verify then c.closeJob j else c
  | none => c

/-- The schedulers lose what they keep, and turns end. -/
def Chip.stopCirc (c : Chip) : Chip := ((({ c with scheds := [] }).dropTurn .ul).dropTurn .cs).syncCirc

/-- The flows of one page of the flow table are free; flows 0–2 exist again at once. -/
def Chip.stopFlows (c : Chip) (page : Nat) : Chip :=
  let fs := (List.range 64).map (64 * (page - 0x0B) + ·)
  let c := fs.foldl (fun c f => (if f < 3 then c.dropCells f else c.freeFlow f).setFlow f FlowEnt.init) c
  { c with deferred := c.deferred.filter fun d => !fs.contains d.1 }

/-- A lane's activities end; the lane itself keeps running. -/
def Chip.stopLane (c : Chip) (l : Nat) : Chip := (c.endLaneActivity l 0x06).clearEyeResults l

/-- Requests of some askers are forgotten. -/
def Chip.forgetReqs (c : Chip) (p : FwdReq → Bool) : Chip :=
  ({ c with fwd := { c.fwd with reqs := c.fwd.reqs.filter fun r => !p r } }).syncTags

def Chip.stopSurfaces (c : Chip) : Chip :=
  let c := (List.range 4).foldl (fun c k => c.endStream k) c
  ({ c with surf := Surf.init }).drainIngress

/-- Page SDSC loses its descriptors: no surface is valid. -/
def Chip.stopDescs (c : Chip) : Chip :=
  ((List.range 64).filter c.surfValid).foldl (fun c n => c.loseSurface n) c

def Chip.stopHub (c : Chip) : Chip :=
  let c := c.clearHub.resetFunction
  if c.fld HUB_STATUS.UP = 0 then c
  else ((c.setFld HUB_STATUS.UP 0).setFld HUB_STATUS.SUSPENDED 0).emit (.hubUp 0)

def Chip.stopPorts (c : Chip) : Chip :=
  ((List.range 6).foldl (fun c p => (c.openPort p).modPort p fun x => { x with asked := false, heldReq := false, babbles := [] }) c).walk

/-- Every flow bound in the key/crypto engine waits for a new key (R368). -/
def Chip.unbindFlows (c : Chip) : Chip :=
  (List.range 256).foldl (fun c f => match (c.keyFlow f).cur with
    | some s => Chip.loseFlowKey s none (c.slot s).key c f
    | none => c) c

/-- Every slot is cleared; a persistent command in progress leaves nothing. -/
def Chip.stopMuniment (c : Chip) : Chip :=
  let c := c.unbindFlows.modMuni fun m => { m with slots := [], after := none, invalidated := none, loading := [] }
  if c.on KD_STATUS.BUSY then (c.setFld KD_STATUS.BUSY 0).setFld KD_CMD.GO 0 else c

def KeyCmd.isKd : KeyCmd → Bool
  | .kd _ => true
  | _ => false
def KeyCmd.isLc : KeyCmd → Bool
  | .lc .. => true
  | _ => false

def Chip.dropKeyCmds (c : Chip) (p : KeyCmd → Bool) : Chip :=
  c.modMuni fun m => { m with queue := m.queue.filter fun q => !p q }

/-- The switch's tunnel closes. -/
def Chip.stopTunnel (c : Chip) : Chip :=
  let c := ((c.setFld PCIE_TUN.EN 0).setFld PCIE_STATUS.UP 0).discardAhead fun _ => true
  { c with pcie := { c.pcie with upReqs := [] } }

/-- The Marginalia plane of a head goes off with the block: MARG_STATUS shows no live plane (log entry 74). -/
def Chip.hideMarg (c : Chip) (h : Nat) : Chip := c.modHead h fun x => { x with margCtrl := 0 }

/-- What an output's status keeps of the past returns to reset; HPD and the live fields follow the output. -/
def Chip.clearDpStatus (c : Chip) (o : Nat) : Chip :=
  (((c.setFld (DPTX_STATUS.PWR_OC o) 0).setFld (DPTX_STATUS.FIT_ERR o) 0).setFld (DPTX_STATUS.AUX_RES o) 0).setFld (DPTX_STATUS.IRQ_CNT o) 0

/-- What a page's block loses. -/
def Chip.stopPage (c : Chip) (p : Nat) : Chip :=
  if p = 0x01 then c.stopVerify
  else if p = 0x07 then c.stopRepairs.dropPlane
  else if p = 0x0A then c.stopCirc
  else if 0x0B ≤ p && p ≤ 0x0E then c.stopFlows p
  else if 0x10 ≤ p && p ≤ 0x17 then c.stopLane (p - 0x10)
  else if p = 0x18 then c.linkDown .ul 0
  else if p = 0x19 then c.linkDown .cs 0
  else if p = 0x1A then (c.forgetReqs FwdReq.bridged).discardPrefetch fun _ _ => true
  else if p = 0x1B then c.discardPrefetch fun _ _ => true
  else if p = 0x1C then c.forgetReqs fun r => r.asker == .relay || r.asker == .poll || r.asker == .assign
  else if p = 0x1D then c.stopSurfaces
  else if p = 0x1E then c.stopDescs
  else if p = 0x1F then (List.range 4).foldl (fun c h => (c.clearMargArm h).hideMarg h) c
  else if 0x20 ≤ p && p ≤ 0x23 then (c.clearArm (p - 0x20)).stopHead (p - 0x20)
  else if 0x24 ≤ p && p ≤ 0x27 then (c.dpStop (p - 0x24)).clearDpStatus (p - 0x24)
  else if p = 0x28 then c.stopHub
  else if p = 0x29 then c.stopPorts
  else if p = 0x2A then c.resetFunction
  else if p = 0x2B then c.stopTunnel
  else if p = 0x2C || p = 0x2D then c.socketOff (p - 0x2C)
  else if p = 0x2E || p = 0x2F then c.ethDown
  else if 0x30 ≤ p && p ≤ 0x32 then c.hardReset (p - 0x30) true
  else if p = 0x35 then c.stopMuniment
  else if p = 0x36 then c.unbindFlows.dropKeyCmds KeyCmd.isKd |>.modMuni fun m => { m with flows := [] }
  else if p = 0x37 then c.dropKeyCmds fun q => !q.isKd && !q.isLc
  else if p = 0x38 then (c.dropKeyCmds KeyCmd.isLc).modMuni fun m => { m with seedWritten := 0 }
  else if p = 0x39 then c.stopRepairs
  else c

/-! ## The restart (R59) -/

/-- Entries of some kinds of the map in force are applied again (R384). -/
def Chip.reapply (c : Chip) (kind : Nat) : Chip := (c.copp.map.filter fun e => e.kind == kind).foldl (fun c e => c.applyEntry e) c

def Chip.restartMuniment (c : Chip) : Chip :=
  let c := c.loadSlots
  let c := if entReady c then c.liveRecords else c
  c.reapply kSlot

/-- A head whose EN is 1 and whose grant is in force starts again. -/
def Chip.restartHead (c : Chip) (h : Nat) : Chip :=
  if c.on (HEAD_CTRL.EN h) && c.granted (itHead h) then c.riseHead h else c

/-- DP_PWR comes back after 25 ms, and a plugged sink is trained. -/
def Chip.restartOutput (c : Chip) (o : Nat) : Chip :=
  let c := if c.on (DPTX_CTRL.PWR_EN o) then c.addStagger [.dp o] else c
  if c.on (DPTX_STATUS.HPD o) && c.dpRuns o then c.dpStart o else c

/-- The six ports are powered again from DS0 (R249). -/
def Chip.restartPorts (c : Chip) : Chip :=
  let c := c.gangPorts
  if c.boot.step < 8 then c
  else (((List.range 6).foldl (fun c p => c.modPort p fun x => { x with asked := true }) c).walk).syncDsPorts

/-- A socket with AUTO_PWR is powered again (R270). -/
def Chip.restartSocket (c : Chip) (p : Nat) : Chip :=
  if c.on (PEP_CTRL.AUTO_PWR p) && 10 ≤ c.boot.step then ((c.modPep p fun x => { x with asked := true }).walk).syncPep p else c

def Chip.restartPage (c : Chip) (p : Nat) : Chip :=
  if p = 0x0A || (0x0B ≤ p && p ≤ 0x0E) then c.syncCirc
  else if 0x20 ≤ p && p ≤ 0x23 then c.restartHead (p - 0x20)
  else if 0x24 ≤ p && p ≤ 0x27 then c.restartOutput (p - 0x24)
  else if p = 0x28 then c.syncUpstream
  else if p = 0x29 then c.restartPorts
  else if p = 0x2C || p = 0x2D then c.restartSocket (p - 0x2C)
  else if p = 0x2E || p = 0x2F then if c.ethRuns then c.emit .autoneg else c
  else if p = 0x33 then c.refeed
  else if p = 0x35 then c.restartMuniment
  else c

/-! ## PAGE_CTRL (R418–R421) -/

/-- The block stops, and the PAGE-domain registers return to their reset values; page FOLIO waits for the end of a write (R60). -/
def Chip.endPage (c : Chip) (p : Nat) : Chip :=
  if p = 0x01 && c.folioWrites then { c with folio := { c.folio with deferredSrst := true } }
  else (c.stopPage p).pageRegs p

/-- A page soft reset: SRST reads 1 only while it is deferred. -/
def Chip.pageReset (c : Chip) (p : Nat) : Chip :=
  let c := c.endPage p
  let c := if c.folio.deferredSrst && p = 0x01 then c.setFld (PAGE_CTRL.SRST p) 1 else c
  if c.pageOn p then c.restartPage p else c

/-- A write of PAGE_CTRL. -/
def Chip.writePageCtrl (c : Chip) (p : Nat) (v : Word) : Chip :=
  if !pagePresent c.part p then c
  else
    let c := if bit v 2 then c.setFld (PAGE_CTRL.LOCK p) 1 else c
    if fixedPage p then c
    else
      let was := c.on (PAGE_CTRL.EN p)
      let c := c.setFld (PAGE_CTRL.EN p) (if bit v 0 then 1 else 0)
      if bit v 1 then c.pageReset p
      else if was && !bit v 0 then c.endPage p
      else if !was && bit v 0 then c.restartPage p
      else c

/-- The word of a write that keeps EN and asks for something beside it. -/
def Chip.ctrlWord (c : Chip) (p n : Nat) : Word := BitVec.ofNat 32 (c.fld (PAGE_CTRL.EN p) + n)

/-- R420. -/
def execSrst (p : Fin 64) (s : State) : Host.Outcome State Fault Refusal := s.run fun c => c.writePageCtrl p (c.ctrlWord p 2)
/-- R419. -/
def execPageDisable (p : Fin 64) (s : State) : Host.Outcome State Fault Refusal := s.run fun c => c.writePageCtrl p 0
/-- R419. -/
def execPageEnable (p : Fin 64) (s : State) : Host.Outcome State Fault Refusal := s.run fun c => c.writePageCtrl p 1
/-- R421. -/
def execLock (p : Fin 64) (s : State) : Host.Outcome State Fault Refusal := s.run fun c => c.writePageCtrl p (c.ctrlWord p 4)

end Sys2Proof.Machine
end

