-- ==== Sys2Proof/Machine/Power.lean ====
section
/-! DEFINITION. The power sequencer: commands, entries and their roll-back, wakes and exits, domain ramps, operating points and VISL,
and the end of a ramp (R55, R315–R333). -/

namespace Sys2Proof.Machine

/-! ## Commands (R321, R322) -/

def psDone : Nat := 1
def psRefused : Nat := 2
def psBadParam : Nat := 3
def psNoFit : Nat := 4
def psSafe : Nat := 5
def psNoWake : Nat := 6

/-- A command ends with a RESULT. -/
def Chip.endCmd (c : Chip) (result : Nat) : Chip :=
  let c := { c with seq := { c.seq with cmd := none } }
  (((c.setFld PS_STATUS.RESULT result).setFld PS_STATUS.REFUSER 0).setFld PS_STATUS.DETAIL 0).setFld PS_STATUS.BUSY 0

/-- A command is refused at once. -/
def Chip.refuseCmd (c : Chip) (result : Nat) : Chip := (c.endCmd result).count PS_CNT.REFUSALS

/-- A write of PS_WAIT: the command in PS_MODE is accepted, unless one is in progress. -/
def Chip.writePsWait (c : Chip) (v : Word) : Chip :=
  if !bit v 0 then c
  else if c.on PS_STATUS.BUSY then c.count PS_CNT.REFUSALS
  else
    let w := c.reg PS_MODE
    match PS_MODE.CMD.get w with
    | 0 => c
    | 3 => c.refuseCmd psBadParam
    | _ => ({ c with seq := { c.seq with cmd := some w } }).setFld PS_STATUS.BUSY 1

/-- The command accepted, when it is of one kind. -/
def Chip.cmdOf (c : Chip) (kind : Nat) : Option Word := c.seq.cmd.filter fun w => PS_MODE.CMD.get w == kind

/-! ## Entering a state (R323) -/

/-- The blocks an entry asks, by order number. Outside native mode the uplink's step is passed; the MH4142 has no cascade. -/
def Chip.blocks (c : Chip) (t : Nat) : List Nat :=
  let all := match t with
    | 1 => [1, 2, 7, 8]
    | 2 => [1, 2, 3, 4, 5, 6, 7, 8, 9, 10, 11]
    | _ => [1, 2, 3, 4, 5, 6, 7, 8, 9, 10, 11, 12]
  all.filter fun b => !(b == 7 && c.part == .mh4142) && !(b == 8 && !c.native .ul)

/-- The level at which a link sleeps for a state: DORMANT on version 2 if the partner's ADV offers it (R123, R132, R315). -/
def Chip.sleepLevelFor (c : Chip) (k : Lnk) (t : Nat) : Nat :=
  let both := c.fld (LINK_STATUS.VERSION k.idx) == 2 && (c.link k).partner.any fun a => a.cap.getLsbD 2
  if t = 1 || !both then 1 else 2

/-- A link is asked to sleep. -/
def Chip.askSleep (c : Chip) (k : Lnk) (t : Nat) : Chip :=
  if !c.linkUp k then c
  else
    let level := c.sleepLevelFor k t
    (c.modLink k fun x => { x with sleepWant := some level }).queueLmc k 0x40 (toBytes 1 level)

/-- A link whose lanes are not all in their reset direction. -/
def Chip.turned (c : Chip) (k : Lnk) : Bool :=
  c.schedules k && c.linkUp k && (pairs k).any fun l => c.inService l && c.fld (LANE_STATUS.DIR l) != resetDir l

/-- The token test is suspended, and no token is awaited (R410). -/
def Chip.holdTokens (c : Chip) : Chip := { c with ev := { c.ev with tokens := 0, tokenFree := true, tokenHeld := true } }

/-- The device is back in S0: the token test runs again from the next boundary on (R410). -/
def Chip.freeTokens (c : Chip) : Chip := { c with ev := { c.ev with tokenHeld := false } }

/-- A block is asked: CIRC seeks 2+2, a link sends SLEEP_REQ, and from the question to CORE on the token test is suspended. -/
def Chip.askBlock (c : Chip) (b : Nat) : Chip :=
  let t := c.seq.target
  let c := { c with seq := { c.seq with block := b } }
  if b = 11 then c.holdTokens
  else if b = 2 then
    [Lnk.ul, Lnk.cs].foldl (fun c k => if c.turned k then c.modLink k fun x => { x with sleepAsk := some t } else c) c
  else if b = 7 then c.askSleep .cs t
  else if b = 8 then c.askSleep .ul t
  else c

/-- What a block answers. -/
inductive BlockAnswer where
  | agrees
  | refuses (code : Nat)
  | waits
  deriving DecidableEq, Repr

/-- SEQ's checks. -/
def Chip.seqCheck (c : Chip) : BlockAnswer :=
  let other := c.maint.holds.any fun h => !(c.seq.target != 1 && (h.code == 0x10 || h.code == 0x20))
  if c.fld ROUT_STATUS.STATE = 1 || c.router.phase != 0 then .refuses 1
  else if c.linkState .ul = 3 || c.linkState .cs = 3 then .refuses 2
  else if (c.link .ul).turn.isSome || (c.link .cs).turn.isSome then .refuses 3
  else if c.folio.job.isSome then .refuses 4
  else if other then .refuses 5
  else .agrees

/-- CIRC's answer: the codes are those counted under R158, LOCK where the lanes' locks or the unit would be refused. -/
def Chip.circCheck (c : Chip) : BlockAnswer :=
  let ks := [Lnk.ul, Lnk.cs].filter c.turned
  let code (k : Lnk) : Option Nat := match c.turnForbidden k .a22 with
    | some r => if r = refGuar then some 1 else if r = refFit then some 2 else none
    | none => if c.maintAnswer ((c.turnedBy k .a22).map .lane) == .granted then none else some 3
  if ks.isEmpty then .agrees
  else match ks.findSome? code with
    | some r => .refuses r
    | none => .waits

/-- `l2` says that every powered downstream port's link is in L2. ULNK agrees by its partner's SLEEP_ACK alone, or when the uplink sleeps
already (DEDUCED, log entry 96). -/
def Chip.blockAnswer (c : Chip) (b : Nat) (l2 : Bool) : BlockAnswer :=
  let only (bad : Bool) : BlockAnswer := if bad then .refuses 1 else .agrees
  if b = 1 then c.seqCheck
  else if b = 2 then c.circCheck
  else if b = 3 then only (!l2 && c.pepList.any fun p => c.on (PEP_STATUS.PWR_ON p))
  else if b = 4 then only (c.fld HUB_STATUS.UP != 0 && !c.on HUB_STATUS.SUSPENDED)
  else if b = 6 then only (c.fallback && (List.range 4).any fun k => c.on (RX_STATUS.ACTIVE k))
  else if b = 7 then if c.linkUp .cs then .waits else .agrees
  else if b = 8 then if c.linkAsleep .ul then .agrees else .waits
  else .agrees

/-- A domain's supply: off, or held at its retention level. -/
def Chip.domainOff (c : Chip) (d : Nat) : Chip :=
  let w := c.fld PS_DOMAIN.PWR
  (if w.testBit d then c.setFld PS_DOMAIN.PWR (w - 2 ^ d) else c).setFld ⟨PS_DOMAIN, 16 + d, 1⟩ 0
def Chip.retain (c : Chip) (d : Nat) : Chip := c.setFld ⟨PS_DOMAIN, 16 + d, 1⟩ 1

/-- Retention in S2, off in S3. -/
def Chip.restDomain (c : Chip) (d : Nat) : Chip := if c.seq.target = 2 then c.retain d else c.domainOff d

/-- An output goes idle, with DP_PWR kept in S2. -/
def Chip.idleOutput (c : Chip) (o : Nat) : Chip :=
  let c := (c.modDp o fun x => { x with training := false }).setFld (DPTX_CTRL.RETRAIN o) 0
  (((c.untrain o).endAux o auxTimeout).syncAux o)

/-- PCIE stops: sockets keep their power in S2. -/
def Chip.stopPcie (c : Chip) : Chip :=
  let c := if c.seq.target = 2 then
      (c.pepList.filter fun p => c.on (PEP_STATUS.PWR_ON p)).foldl (fun c p =>
        ((c.assertPerst p).modPep p fun x => { x with refclk := false }).emit (.refclk p false)) c
    else c.pepList.foldl (fun c p => c.pepOff p) c
  c.domainOff 10

def Chip.stopDisplay (c : Chip) : Chip :=
  let c := c.headList.foldl (fun c h => c.stopHead h) c
  let os := (List.range 4).filter c.hasOut
  let c := os.foldl (fun c o => c.idleOutput o) c
  (if c.seq.target = 3 then os.foldl (fun c o => (c.dropRamp (.dp o)).dpPower o false) c else c).domainOff 9

/-- A block that agreed stops. -/
def Chip.stopBlock (c : Chip) (b : Nat) : Chip :=
  let deep := c.seq.target == 3
  let c := { c with seq := { c.seq with stopped := c.seq.stopped ++ [b] } }
  if b = 2 then { c with seq := { c.seq with heldTurns := true } }
  else if b = 3 then c.stopPcie
  else if b = 4 then if deep then (((List.range 6).foldl (fun c p => c.openPort p) c).domainOff 8).syncUpstream else c
  else if b = 5 then c.ethDown.domainOff 11
  else if b = 6 then c.stopDisplay
  else if b = 7 then if deep then c.domainOff 12 else c
  else if b = 8 then if deep then c.domainOff 7 else c
  else if b = 9 then (if deep then c else c.setFld STAK_STATUS.SELF_REFRESH 1).restDomain 6
  else if b = 10 then c.restDomain 3
  else if b = 11 then c.restDomain 4
  else if b = 12 then c.domainOff 1
  else c

/-! ## Wakes and exits (R325–R328) -/

/-- PS_SLEPT takes the length of the stay that ends. -/
def Chip.noteStay (c : Chip) : Chip :=
  let us := (c.timeNs - c.seq.enteredNs) / 1000
  if us ≤ 2 ^ 30 then (c.setFld PS_SLEPT.UNIT 0).setFld PS_SLEPT.VALUE (min us (2 ^ 30 - 1))
  else (c.setFld PS_SLEPT.UNIT 1).setFld PS_SLEPT.VALUE (min (us / 1000) (2 ^ 30 - 1))

/-- The order in which domains restart after S2. -/
def Chip.restartOrder (c : Chip) : List Nat := [4, 3, 6, 7, 8, 9, 10, 11, 12].filter fun d => !(d == 12 && c.part == .mh4142)

/-- An exit from a state is in progress. -/
def Chip.beginExit (c : Chip) (st : Nat) : Chip :=
  ({ c with seq := { c.seq with exiting := some st, woke := false } }).setFld PS_STATUS.BUSY 1

/-- The domains that restart after S2 wait for their ramps. -/
def Chip.queueRamps (c : Chip) : Chip := { c with seq := { c.seq with ramps := c.restartOrder } }

/-- The exit begins, but not in safe state (R407): links wake from S1, domains restart from S2, and S3 ends in a reset. -/
def Chip.startExit (c : Chip) : Chip :=
  let st := c.sstate
  if st = 0 || !c.seq.woke || c.seq.exiting.isSome || c.safe then c
  else
    let c := c.noteStay
    if st = 3 then c.exitReset
    else if st = 1 then (((c.beginExit st).sendWake .ul).sendWake .cs).lightExit
    else (c.beginExit st).queueRamps

/-- An armed source fires. `src` none is the exit that a source latched by its own command starts. -/
def execWake (src : Option (Fin 11)) (s : State) : Host.Outcome State Fault Refusal :=
  s.run fun c => match src with
    | some b => (c.latchWake b).startExit
    | none => c.startExit

/-- R325. -/
def execPsTimerExpiry (s : State) : Host.Outcome State Fault Refusal :=
  s.run fun c => if c.sstate != 0 && c.reg PS_TIMER != 0 then (c.latchWake 10).startExit else c

/-- No link is asked to sleep any more. -/
def Chip.endAsking (c : Chip) : Chip :=
  [Lnk.ul, Lnk.cs].foldl (fun c k => c.modLink k fun x => { x with sleepAsk := none, sleepWant := none, wakeDue := x.wakeDue && x.sleepGo.isSome }) c

/-- The sequencer is at rest in a state. -/
def Chip.seqRests (c : Chip) : Chip :=
  ({ c with seq := { c.seq with target := 0, block := 0, stopped := [], enteredNs := c.timeNs } }).endAsking

/-- What S2 and S3 switch off last. -/
def Chip.lastOff (c : Chip) (t : Nat) : Chip :=
  let c := if 2 ≤ t then c.domainOff 2 else c
  if t = 3 then ((c.maintDrop fun _ => true).openSource 1).dropContract 1 |>.setReg PS_DOMAIN 1 else c

/-- An event record waits for flow 2: a UL_TX wake source (R325, R400). -/
def Chip.recordWaits (c : Chip) : Bool := c.flow2Part && (!c.ev.queue.isEmpty || c.ev.closed.any fun m => !m.f2)

/-- Every block has agreed: the device is in the target state. A source that fired meanwhile ends the stay at once, as does an event
record still waiting for flow 2. -/
def Chip.enterState (c : Chip) : Chip :=
  let t := c.seq.target
  let c := ((((c.endCmd psDone).setFld PS_STATUS.STATE t).count PS_CNT.ENTRIES).seqRests).lastOff t
  let c := if c.recordWaits then c.latchWake 1 else c
  if c.seq.woke then ((c.setFld WAKE_CAUSE.COINCIDENT 1).raiseOpen 17).startExit else c

/-! ## Roll-back (R324) -/

/-- The domain that a stopped block left unpowered or in retention. -/
def blockDomain : Nat → Option Nat
  | 3 => some 10
  | 4 => some 8
  | 5 => some 11
  | 6 => some 9
  | 7 => some 12
  | 8 => some 7
  | 9 => some 6
  | 10 => some 3
  | 11 => some 4
  | _ => none

/-- A link that slept for an entry is woken, at once if its domain is still supplied and after the domain's restart if not (R324, R328). -/
def Chip.wakeStopped (c : Chip) (k : Lnk) : Chip :=
  if c.domainOn (if k == .ul then 7 else 12) then c.sendWake k else c

/-- A block refuses: the blocks stopped restart in reverse, and links that slept are woken. -/
def Chip.rollBack (c : Chip) (code : Nat) : Chip :=
  let b := c.seq.block
  let ramps := (c.seq.stopped.reverse.filterMap blockDomain).filter c.resting
  let c := (c.endCmd psRefused).count PS_CNT.REFUSALS
  let c := ((c.setFld PS_STATUS.REFUSER b).setFld PS_STATUS.DETAIL code).raise 16 (256 * b + code)
  let c := ({ c with seq := { c.seq with target := 0, block := 0, stopped := [], woke := false, ramps := ramps } }).setFld
    PS_STATUS.BUSY (if ramps.isEmpty then 0 else 1)
  let c := ((c.wakeStopped .ul).wakeStopped .cs).endAsking
  if ramps.isEmpty then c.freeTokens else c

/-- The block asked has agreed and stops; the next is asked, or the state is entered. -/
def Chip.agreed (c : Chip) : Chip :=
  let b := c.seq.block
  let c := c.stopBlock b
  match (c.blocks c.seq.target).find? fun x => b < x with
  | some n => c.askBlock n
  | none => c.enterState

/-- The block asked answers. -/
def Chip.answerBlock (c : Chip) (l2 : Bool) : Chip :=
  if c.seq.target = 0 then c
  else match c.blockAnswer c.seq.block l2 with
    | .agrees => c.agreed
    | .refuses code => c.rollBack code
    | .waits => c

/-- R323. -/
def execBlockAgrees (l2 : Bool) (s : State) : Host.Outcome State Fault Refusal := s.run fun c => c.answerBlock l2

/-- R323: the bound has passed without an answer. -/
def execAgreementTimeout (s : State) : Host.Outcome State Fault Refusal :=
  s.run fun c => if c.seq.target = 0 then c else c.rollBack 0xFF

/-- The partner answers this end's SLEEP_REQ. -/
def Chip.sleepAcked (c : Chip) (k : Lnk) (code : Nat) : Chip :=
  let mine := c.seq.target != 0 && c.seq.block == (if k == .ul then 8 else 7)
  match (c.link k).sleepWant with
  | none => c
  | some level =>
    let c := c.modLink k fun x => { x with sleepWant := none, wakeDue := x.wakeDue && code == 0 }
    if code = 0 then
      let c := if c.linkUp k then c.linkSleep k level else c
      if mine then c.agreed else c
    else if mine then c.rollBack code
    else c

/-- R132. -/
def execSleepAck (k : Lnk) (code : BitVec 8) (s : State) : Host.Outcome State Fault Refusal := s.run fun c => c.sleepAcked k code.toNat

/-- A STATE command begins. -/
def Chip.stateCmd (c : Chip) : Chip :=
  match c.cmdOf 1 with
  | none => c
  | some w =>
    let t := PS_MODE.STATE.get w
    if c.safe then c.refuseCmd psSafe
    else if t = 0 || (t = 1 && !c.native .ul) then c.refuseCmd psBadParam
    else if 2 ≤ t && c.fld PS_WAKE_EN.EN = 0 && c.reg PS_TIMER == 0 then c.refuseCmd psNoWake
    else
      let latched := (List.range 10).any fun b => (c.fld WAKE_CAUSE.CAUSE).testBit b && c.endsEntry t b
      let c := { c with seq := { c.seq with cmd := none, target := t, stopped := [], woke := latched } }
      c.askBlock 1

/-- R323. -/
def execStateCmd (s : State) : Host.Outcome State Fault Refusal := s.run fun c => c.stateCmd

/-! ## Domain ramps (R326, R328) -/

/-- The next domain ramp begins. -/
def Chip.domainRamp (c : Chip) : Chip :=
  match c.seq.ramps with
  | d :: ds => ({ c with seq := { c.seq with ramps := ds } }).askRamp (.domain d)
  | [] => c

/-- R328. -/
def execDomainRamp (s : State) : Host.Outcome State Fault Refusal := s.run fun c => c.domainRamp

/-- Outputs restart: DP_PWR that an entry into S3 opened is due again (R328), and a plugged sink is trained. -/
def Chip.restartOutputs (c : Chip) : Chip :=
  let os := (List.range 4).filter c.hasOut
  let c := c.addStagger ((os.filter fun o => c.on (DPTX_CTRL.PWR_EN o) && !c.on (DPTX_STATUS.PWR_ON o)).map .dp)
  (os.filter fun o => c.on (DPTX_STATUS.HPD o) && c.dpRuns o).foldl (fun c o => c.dpStart o) c

/-- Sockets that kept their power have REFCLK again and leave L2; those that an entry into S3 powered off wait for their ramps. -/
def Chip.restartPcie (c : Chip) : Chip :=
  let on := c.pepList.filter fun p => c.on (PEP_STATUS.PWR_ON p)
  let c := on.foldl (fun c p => (c.modPep p fun x => { x with refclk := true, ready := true }).emit (.refclk p true)) c
  c.pepList.foldl (fun c p => c.syncPep p) c

/-- The block of a domain whose supply is back in regulation restarts. A re-mask is due after S2 (R326). -/
def Chip.restartBlock (c : Chip) (d : Nat) : Chip :=
  if d = 3 then c.modMuni fun m => { m with remaskDone := false }
  else if d = 6 then c.setFld STAK_STATUS.SELF_REFRESH 0
  else if d = 7 then c.sendWake .ul
  else if d = 8 then c.syncDsPorts.syncUpstream
  else if d = 9 then (c.headList.foldl (fun c h => c.restartHead h) c).restartOutputs
  else if d = 10 then c.restartPcie
  else if d = 11 then if c.ethRuns then c.emit .autoneg else c
  else if d = 12 then c.sendWake .cs
  else c

/-- The last domain of an exit or a roll-back is up. -/
def Chip.rampsDone (c : Chip) : Chip :=
  let more := !c.seq.ramps.isEmpty || (List.range 13).any fun d => c.rampDue (.domain d)
  if more then c
  else
    let c := if c.seq.exiting = some 2 then (c.setFld PS_STATUS.STATE 0).setFld ⟨PS_DOMAIN, 2, 1⟩ 1 else c
    (({ c with seq := { c.seq with exiting := none } }).setFld PS_STATUS.BUSY 0).freeTokens

def Chip.domainUp (c : Chip) (d : Nat) : Chip :=
  let c := ((c.setFld ⟨PS_DOMAIN, d, 1⟩ 1).setFld ⟨PS_DOMAIN, 16 + d, 1⟩ 0).countRamp d
  (c.restartBlock d).rampsDone

/-! ## The end of a ramp (R55) -/

def Chip.supplyUp (c : Chip) : Supply → Chip
  | .vcore => c.coreStarts
  | .vstk => c.stacksUp
  | .ds p => if c.wantsVbus p then c.closePort p else c
  | .dp o => c.dpPower o true
  | .m2 p => c.socketUp p
  | .domain d => c.domainUp d

/-- R55. The ramp in progress ends; the one that waited for it begins. -/
def execRampEnd (s : State) : Host.Outcome State Fault Refusal :=
  s.run fun c => match c.boot.rampNow with
    | some x => (c.nextRamp).supplyUp x
    | none => c

/-! ## Operating points (R329) -/

/-- An OPPOINT command begins. The point does not change in S1–S3 (R316). -/
def Chip.oppoint (c : Chip) : Chip :=
  match c.cmdOf 2 with
  | none => c
  | some w =>
    let t := PS_MODE.OP.get w
    let c' := { c with seq := { c.seq with cmd := none, toOp := some t } }
    if c.safe then c.refuseCmd psSafe
    else if c.sstate != 0 then c.refuseCmd psBadParam
    else if t = c.op then c.endCmd psDone
    else if c.op < t then { c' with seq := { c'.seq with ramping := true } }
    else if !c.pointFits t then (c.refuseCmd psNoFit).raiseOpen 18
    else c'.setFld PS_STATUS.LOWERING 1

/-- R329. -/
def execOppoint (s : State) : Host.Outcome State Fault Refusal := s.run fun c => c.oppoint

/-- The change of point is over, made or not. -/
def Chip.endPoint (c : Chip) (result : Nat) : Chip :=
  (({ c with seq := { c.seq with toOp := none, ramping := false, settled := false } }).setFld PS_STATUS.LOWERING 0).endCmd result

/-- A lane-direction change takes effect in this epoch: lanes are between their groups, or a turn has just completed (R23). -/
def Chip.swinging (c : Chip) : Bool :=
  c.seq.turnDone || [Lnk.ul, Lnk.cs].any fun k => match (c.link k).turn with
    | some t => t.epoch != 0
    | none => false

/-- Step 3 of a lowering, at the first epoch boundary after any turnaround; a raise that waited for such a boundary takes effect
(R23, R329). -/
def Chip.lowerBoundary (c : Chip) : Chip :=
  match c.seq.toOp with
  | some t =>
    if c.seq.settled then (if c.swinging then c else (c.setFld PS_STATUS.OP t).endPoint psDone)
    else if !c.on PS_STATUS.LOWERING || c.seq.ramping || (c.link .ul).turn.isSome || (c.link .cs).turn.isSome || c.seq.turnDone then c
    else if c.pointFits t then { c with seq := { c.seq with ramping := true } }
    else ((c.endPoint psNoFit).count PS_CNT.REFUSALS).raiseOpen 18
  | none => c

/-- VCORE has settled at the new point. A raise does not take effect in an epoch in which a turn does (R23; log entry 85). -/
def Chip.vcoreSettled (c : Chip) : Chip :=
  match c.seq.toOp with
  | some t =>
    if !c.seq.ramping then c
    else if c.swinging then { c with seq := { c.seq with settled := true } }
    else (c.setFld PS_STATUS.OP t).endPoint psDone
  | none => c

/-- R329. -/
def execVcoreSettled (s : State) : Host.Outcome State Fault Refusal := s.run fun c => c.vcoreSettled

/-! ## VISL (R330) -/

/-- The largest need among the islands that run, lanes that adapt among them. -/
def Chip.vislNeed (c : Chip) : Nat :=
  let busy (l : Nat) : Bool := c.domainOn (if l < 4 then 7 else 12) && (c.inService l || c.fld (LANE_STATUS.EQ_STATE l) != 0)
  let lanes := ((List.range 8).filter busy).map fun l => vislOfLane (c.fld (LANE_STATUS.RATE l))
  let outs := ((List.range 4).filter fun o => c.on (DPTX_STATUS.TRAINED o)).map fun o => vislOfOutput (c.fld (DPTX_STATUS.RATE o))
  let ports := (c.pepList.filter fun p => c.on (PEP_STATUS.LINK_UP p)).map fun p => vislOfPort (c.fld (PEP_STATUS.SPEED p))
  let pix := (c.headList.filter c.scanning).map fun h => vislOfPixels (c.raster h).pclk
  let stk := if c.on STAK_STATUS.TRAINED && c.domainOn 6 then 1 else 0
  let eth := if c.on ENET_STATUS.LINK && c.fld ENET_STATUS.SPEED = 5 then 1 else 0
  (lanes ++ outs ++ ports ++ pix ++ [stk, eth]).foldl max 0

/-- An island asks before it raises its frequency: VISL rises to what it needs, and the raise stands until the island runs at it. The
raises that the model's own commands need, in training and at a start, are asked for within those commands (`Chip.raiseVisl`). -/
def execVislRaiseRequest (need : Fin 4) (s : State) : Host.Outcome State Fault Refusal :=
  s.run fun c => { c.raiseVisl need with seq := { c.seq with visl := max need c.seq.visl } }

/-- VISL falls to the largest need, but not below a raise granted to an island that does not run at it yet. -/
def Chip.lowerVisl (c : Chip) : Chip :=
  let n := min (max c.vislNeed c.seq.visl) (c.fld PS_ISL.VISL)
  let c := if c.seq.visl ≤ c.vislNeed then { c with seq := { c.seq with visl := 0 } } else c
  (c.setFld PS_ISL.NEED n).setFld PS_ISL.VISL n

/-- An island has lowered its frequency. -/
def execVislLower (s : State) : Host.Outcome State Fault Refusal := s.run fun c => c.lowerVisl

/-! ## Safe state (R322, R407) -/

/-- Entry into safe state abandons every entry, exit and change of point. -/
def Chip.abandonSeq (c : Chip) : Chip :=
  let s := { Seq.init with enteredNs := c.seq.enteredNs, heldTurns := c.seq.heldTurns }
  (({ c with seq := s }).setFld PS_STATUS.LOWERING 0).setFld PS_STATUS.BUSY 0

end Sys2Proof.Machine
end

