-- ==== Sys2Proof/Machine/Events.lean ====
section
/-! DEFINITION. What happens when a source fires: merging, the Ledger, delivery, fail-over, escalation and safe state; event messages,
the heartbeat, and fault injection (R394–R415). -/

namespace Sys2Proof.Machine

/-! ## The Ledger (R401, R402) -/

/-- An event that is to be logged: its entry's index and SEQ, or none while the Ledger is frozen. An entry whose reaction taken is SAFE
freezes the Ledger. -/
def Chip.logEntry (c : Chip) (f : Firing) (taken : Nat) (esc : Bool) : Option (Nat × Nat) × Chip :=
  if c.on LEDG_STATUS.FROZEN then (none, c.count LEDG_STATUS.LOST)
  else
    let i := c.fld LEDG_STATUS.NEXT_IDX
    let seq := (c.ev.lastSeq + 1) % 256
    let flags := 2 ^ 31 + esc.toNat * 2 ^ 30 + f.forced.toNat * 2 ^ 29 + (evSource f.src).cls * 2 ^ 25 + taken * 2 ^ 22
    let c := (c.setReg (LEDGER i 0) (BitVec.ofNat 32 c.epoch)).setReg (LEDGER i 1) (BitVec.ofNat 32 (flags + c.epoch / 2 ^ 32 % 2 ^ 16))
    let c := (c.setReg (LEDGER i 2) (BitVec.ofNat 32 f.detail)).setReg (LEDGER i 3) (BitVec.ofNat 32 (f.src * 2 ^ 24 + seq * 2 ^ 16))
    let c := { c.setFld LEDG_STATUS.NEXT_IDX ((i + 1) % 32) with ev := { c.ev with lastSeq := seq } }
    if taken = 5 then
      let c := { c with ev := { c.ev with targets := c.ev.targets.filter fun t => t.entry.isNone } }
      (some (i, seq), ((c.setFld LEDG_STATUS.FROZEN 1).setFld LEDG_STATUS.FREEZE_IDX i).raise 243 seq)
    else (some (i, seq), c)

/-- A write of LEDG_REL: the SEQ of the freezing entry releases the Ledger. -/
def Chip.writeLedgRel (c : Chip) (v : Word) : Chip :=
  let i := c.fld LEDG_STATUS.FREEZE_IDX
  let lost := c.fld LEDG_STATUS.LOST
  if c.on LEDG_STATUS.FROZEN && LEDG_REL.SEQ.get v = c.fld ⟨LEDGER i 3, 16, 8⟩ then
    let c := (c.setFld LEDG_STATUS.FROZEN 0).setFld LEDG_STATUS.LOST 0
    if lost = 0 then c else c.raise 244 lost
  else c.count LEDG_STATUS.REL_BAD

/-- R402. -/
def execLedgRel (v : Word) (s : State) : Host.Outcome State Fault Refusal := s.run fun c => c.writeLedgRel v

/-! ## The delivery queue (R399, R400) -/

/-- The interrupt endpoint takes part. -/
def Chip.usbPart (c : Chip) : Bool := c.on SVCF_STATUS.CONFIGURED && (!c.native .ul || c.on EVT_CTRL.USB_EN)

/-- Records in the queue, closed or not. -/
def Chip.queued (c : Chip) : Nat := c.ev.queue.length + (c.ev.closed.map fun m => m.records.length).sum

/-- Up to 28 records are closed into a message while some path takes part. -/
def Chip.closeMessage (c : Chip) : Chip :=
  if c.ev.queue.isEmpty || !(c.flow2Part || c.usbPart) then c
  else
    let m : EvMessage := { epoch := c.epoch, records := c.ev.queue.take 28, f2 := false, usb := false }
    { c with ev := { c.ev with queue := c.ev.queue.drop 28, closed := c.ev.closed ++ [m] } }

/-- Every queued record is closed, at most 28 in a message. -/
def Chip.closeAll (c : Chip) : Chip := c.closeMessage.closeMessage.closeMessage

/-- A record is queued, unless 64 are; EV_ENABLE 0 suppresses it. -/
def Chip.queueRecord (c : Chip) (f : Firing) (taken : Nat) (entry : Option (Nat × Nat)) (esc : Bool) : Option Nat × Chip :=
  let s := evSource f.src
  if !c.on ⟨EV_ENABLE s.page, s.bit, 1⟩ then (none, c)
  else if 64 ≤ c.queued then
    (none, { c.count EVT_CNT.QUEUE_LOST with ev := { c.ev with lostNow := c.ev.lostNow + 1 } })
  else
    let n := c.ev.nextId
    let r : EvRecord := { id := n, epoch := c.epoch, src := f.src, cls := s.cls, react := taken, detail := f.detail, repeats := 0
                          seq := (entry.map (·.2)).getD 0, logged := entry.isSome, esc := esc, forced := f.forced }
    let c : Chip := { c with ev := { c.ev with queue := c.ev.queue ++ [r], nextId := n + 1 } }
    let c : Chip := if c.flow2Part && (!c.linkUp .ul || c.sstate != 0 || c.seq.target != 0) then c.latchWake 1 else c
    let d : Chip := if 28 ≤ c.ev.queue.length then c.closeMessage else c
    (some n, d)

/-- The 16 bytes of a record. -/
def EvRecord.bytes (r : EvRecord) : List Byte :=
  toBytes 6 r.epoch ++ toBytes 1 r.src ++ toBytes 1 (r.cls * 32 + r.react * 4) ++ toBytes 4 r.detail ++ toBytes 2 r.repeats ++
    toBytes 1 r.seq ++ toBytes 1 (r.logged.toNat + 2 * r.esc.toNat + 4 * r.forced.toNat)

/-- The header of a flow-2 message. -/
def Chip.evHeader (c : Chip) (op count epoch : Nat) : List Byte :=
  let origin := match c.position with
    | some p => 128 + p
    | none => 0
  toBytes 1 op ++ toBytes 1 origin ++ toBytes 2 count ++ toBytes 4 epoch

/-- An EVENTS message: 7 records in each cell, 8 zero bytes after those of a later full cell. -/
def Chip.eventsBytes (c : Chip) (m : EvMessage) : List Byte :=
  let body (rs : List EvRecord) : List Byte := rs.flatMap EvRecord.bytes
  let later := (chunks 7 (m.records.drop 7)).flatMap fun rs => body rs ++ (if rs.length = 7 then List.replicate 8 0 else [])
  c.evHeader 0x60 m.records.length m.epoch ++ body (m.records.take 7) ++ later

/-- The same as a transfer of the interrupt endpoint: nothing after the last record. -/
def Chip.eventsTransfer (c : Chip) (m : EvMessage) : List Byte :=
  let n := m.records.length
  let bs := c.eventsBytes m
  if 7 < n && n % 7 = 0 then bs.take (bs.length - 8) else bs

/-- Messages that every path taking part has taken leave the queue. -/
def Chip.sweepMessages (c : Chip) : Chip :=
  let f := c.flow2Part
  let u := c.usbPart
  { c with ev := { c.ev with closed := c.ev.closed.filter fun m => !((m.f2 || !f) && (m.usb || !u) && (m.f2 || m.usb)) } }

/-- A peer's message on flow 2 is being forwarded and not complete: no cell of another may come between its cells (R112, R341). -/
def Chip.forwards2 (c : Chip) : Bool := !c.paired && (c.link .cs).asm.any fun e => e.1 / 8 == 2

/-- Flow 2 can take a message of so many cells. -/
def Chip.flow2Ready (c : Chip) (cells : Nat) : Bool :=
  c.linkUp .ul && !c.on (LINK_STATUS.HOLD_RX 0) && !(c.link .ul).holdTx && (c.outQ .ul 2).isEmpty && cells ≤ (c.link .ul).credits.mgt &&
    !c.safe && !c.forwards2

/-- The next message goes on flow 2: a pending beam record first, then the oldest message flow 2 has not taken. -/
def Chip.sendFlow2 (c : Chip) : Chip :=
  match c.ev.beam with
  | some b =>
    if c.native .ul && c.flow2Ready 1 then
      { c.queueMsg .ul 2 clsMgmt (c.evHeader 0x61 0 (ofBytes (b.take 4)) ++ b) with ev := { c.ev with beam := none } }
    else c
  | none =>
    match c.ev.closed.find? fun m => !m.f2 with
    | none => c
    | some m =>
      if c.flow2Part && c.flow2Ready ((m.records.length + 6) / 7) then
        let d := c.queueMsg .ul 2 clsMgmt (c.eventsBytes m)
        ({ d with ev := { d.ev with closed := d.ev.closed.map fun x => if x == m then { x with f2 := true } else x } }).sweepMessages
      else c

/-- R400. -/
def execFlow2MessageSend (s : State) : Host.Outcome State Fault Refusal := s.run fun c => c.sendFlow2

/-- Registers can be reached: the core runs, and not in S2 or S3 (R56, R319). -/
def Chip.regsOpen (c : Chip) : Bool := c.coreUp && decide (c.sstate ≤ 1) && !c.resting 4

/-- A management path is served: in safe state only the service port's (R405). -/
def Chip.pathOpen (c : Chip) (p : Path) : Bool := c.regsOpen && (!c.safe || p == .svcp)

/-- The service function's endpoints can be reached (R446): registers run, no safe state, the hub serves its upstream connection,
which is not suspended, and the page is enabled. -/
def Chip.svcfOpen (c : Chip) : Bool :=
  c.regsOpen && !c.safe && c.fld HUB_STATUS.UP != 0 && !c.on HUB_STATUS.SUSPENDED && c.pageOn 0x2A

/-- The host polls the interrupt endpoint, which answers NAK while no router is active (R259). -/
def Chip.interruptPoll (c : Chip) : Chip :=
  match c.ev.closed.find? fun m => !m.usb with
  | none => c
  | some m =>
    if !c.usbPart || !c.svcfOpen then c
    else if c.noRouter then c.notReady .notice
    else
      let c := c.emit (.interrupt (c.eventsTransfer m))
      ({ c with ev := { c.ev with closed := c.ev.closed.map fun x => if x == m then { x with usb := true } else x } }).sweepMessages

/-- R400. -/
def execInterruptPoll (s : State) : Host.Outcome State Fault Refusal := s.run fun c => c.interruptPoll

/-! ## Merging (R398) -/

/-- The merge target of a source whose every part is still open. -/
def Chip.openTarget (c : Chip) (src : Nat) : Option MergeTarget :=
  c.ev.targets.find? fun t =>
    t.src == src && t.epoch == c.epoch &&
      (match t.entry with
        | none => true
        | some (i, seq) => !c.on LEDG_STATUS.FROZEN && c.fld ⟨LEDGER i 3, 16, 16⟩ == src * 256 + seq) &&
      (match t.record with
        | none => true
        | some n => c.ev.queue.any fun r => r.id == n)

/-- A later firing adds 1 to REPEAT in each part. -/
def Chip.addRepeat (c : Chip) (t : MergeTarget) : Chip :=
  let c := match t.entry with
    | some (i, _) => c.count ⟨LEDGER i 3, 0, 16⟩
    | none => c
  match t.record with
  | some n =>
    { c with
        ev := { c.ev with queue := c.ev.queue.map fun r =>
        if r.id == n then { r with repeats := min (r.repeats + 1) 65535 } else r } }
  | none => c

def Chip.mergeInto (c : Chip) (t : MergeTarget) : Chip := (c.addRepeat t).count EVT_CNT.MERGED

/-- A firing with a reaction of LOG or above that is not SAFE: it merges, or starts a target of its own. -/
def Chip.report (c : Chip) (f : Firing) (react : Nat) : Chip :=
  match c.openTarget f.src with
  | some t => c.mergeInto t
  | none =>
    let (e, c) := c.logEntry f react false
    let (n, c) := if 2 ≤ react then c.queueRecord f react e false else (none, c)
    if e.isNone && n.isNone then c
    else
      let t : MergeTarget := { src := f.src, epoch := c.epoch, entry := e, record := n }
      { c with ev := { c.ev with targets := (c.ev.targets.filter fun x => x.src != f.src && x.epoch == c.epoch) ++ [t] } }

/-! ## Safe state (R403–R407) -/

/-- Ramps and enables of switched outputs and domains are given up. -/
def Chip.dropRamps (c : Chip) : Chip :=
  let keep (x : Supply) : Bool := x == .vcore || x == .vstk
  let now := c.boot.rampNow.filter keep
  let wait := c.boot.rampWait.filter keep
  let b := if now.isNone then { c.boot with rampNow := wait.head?, rampWait := wait.tail }
    else { c.boot with rampNow := now, rampWait := wait }
  { c with boot := { b with stagger := [] } }

/-- Every maintenance activity but a Folio write ends, a verify among them (R405), and repairs in progress are abandoned. -/
def Chip.endMaint (c : Chip) : Chip :=
  let c := (List.range 8).foldl (fun c l => c.endLaneActivity l 0x06) c
  c.stopVerify.stopRepairs.dropPlane.maintDrop fun h => h.code != 0x30

/-- What safe state forces (R404). -/
def Chip.forceSafe (c : Chip) : Chip :=
  let c := ((c.abandonSeq.linkDown .ul 0).linkDown .cs 0).syncUpstream
  let c := { c with router := { c.router with want := none, first := none, phase := 0 } }
  let c := ((c.sourceStop 0).sourceStop 1).endMaint
  let c := (List.range 6).foldl (fun c p => c.openPort p) c
  let c := c.headList.foldl (fun c h => c.stopHead h) c
  let c := ((List.range 4).filter c.hasOut).foldl (fun c o => c.dpStop o) c
  let c := c.pepList.foldl (fun c p => c.pepOff p) c
  let c := (List.range 4).foldl (fun c k => c.endStream k) c
  (c.ethDown.dropRamps).setFld PS_STATUS.OP 0

/-- Entry into safe state with a cause; one already in force keeps its own. -/
def Chip.enterSafe (c : Chip) (cause src : Nat) : Chip :=
  if c.safe then c
  else
    let c := ((c.setFld SAFE_STATUS.ACTIVE 1).setFld SAFE_STATUS.CAUSE cause).setFld SAFE_STATUS.SOURCE src
    let c := (c.count SAFE_STATUS.ENTRIES).setReg SAFE_EPOCH (BitVec.ofNat 32 c.epoch)
    ({ c with ev := { c.ev with safeNs := c.timeNs } }).forceSafe

/-- CAUSE of an entry. -/
def safeCause (src : Nat) (esc : Bool) : Nat :=
  if esc then 3 else if src = 13 then 4 else if (evSource src).cls = 5 then 1 else 2

/-- A firing whose reaction taken is SAFE. -/
def Chip.fireSafe (c : Chip) (f : Firing) (esc : Bool) : Chip :=
  let (e, c) := c.logEntry f 5 esc
  let (_, c) := c.queueRecord f 5 e esc
  c.enterSafe (safeCause f.src esc) f.src

/-! ## Escalation and fail-over (R408, R409) -/

/-- An event that the recovery in progress raises as its own outcome. -/
def Chip.ownOutcome (c : Chip) (f : Firing) : Bool :=
  let kind := f.detail / 2 ^ 24
  let unitNo := f.detail / 2 ^ 8 % 2 ^ 16
  let bank := c.copp.running.any fun r => r.kind == kBank && r.unitNo == unitNo
  let pool := (kind == kBank && bank) || (kind == kSlice && c.copp.repairLanes.contains unitNo)
  f.src == 72 || ((f.src == 237 || f.src == 238) && pool) ||
    ((f.src == 133 || f.src == 137) && c.copp.running.any fun r => r.kind == kBank)

/-- An event of class UNCOR or FATAL during a recovery. -/
def Chip.escalates (c : Chip) (f : Firing) : Bool := c.recovering && 4 ≤ (evSource f.src).cls && !c.ownOutcome f

def isRouterFault (src : Nat) : Bool := 75 ≤ src && src ≤ 78

/-- The first event of a router failure that is not yet handled, for another event that names the same copy: one failure, of which only
the first event is logged (R409). -/
def Chip.sameFailure (c : Chip) (f : Firing) : Option MergeTarget :=
  if isRouterFault f.src && c.react f.src == 4 && c.router.want.isSome && f.detail % 2 == c.fld ROUT_STATUS.ACTIVE then c.router.first
  else none

/-- A later event of the failure adds to REPEAT of the first: in its Ledger entry while that stands, and in its record. -/
def Chip.repeatFirst (c : Chip) (t : MergeTarget) : Chip :=
  let stands (e : Nat × Nat) : Bool := !c.on LEDG_STATUS.FROZEN && c.fld ⟨LEDGER e.1 3, 16, 16⟩ == t.src * 256 + e.2
  c.addRepeat { t with entry := t.entry.filter stands }

/-- CAUSE of ROUT_STATUS for a source. -/
def failCause : Nat → Nat
  | 75 => 2
  | 76 => 3
  | 77 => 1
  | _ => 4

/-- A failure of the active copy is to be handled by fail-over: its first cause stands, with the target of its first event. In safe state
none is begun (R407). -/
def Chip.noteFailure (c : Chip) (src : Nat) : Chip :=
  if c.safe then c
  else
    let c := if c.router.want.isSome then c else c.wantFailover (failCause src)
    { c with router := { c.router with first := c.router.first.orElse fun _ => c.ev.targets.find? fun t => t.src == src } }

/-! ## A firing (R394, R398) -/

/-- A source fires and takes its reaction. -/
def Chip.fire (c : Chip) (f : Firing) : Chip :=
  let s := evSource f.src
  if s.cls = 0 then c
  else
    let c := c.setFld ⟨EV_STICKY s.page, s.bit, 1⟩ 1
    let r := c.react f.src
    if c.escalates f then c.fireSafe f true
    else if r = 5 then c.fireSafe f false
    else if r = 0 then c
    else match c.sameFailure f with
      | some t => c.repeatFirst t
      | none =>
        let c := c.report f r
        if r = 4 then c.noteFailure f.src else c

/-- The oldest firing takes its reaction; or a source fires whose condition lies outside the model. -/
def Chip.eventFiring (c : Chip) (ext : Option (Nat × Nat)) : Chip :=
  match ext with
  | some (src, detail) =>
    if c.pageOn (evSource src).page then c.fire { src := src, detail := detail, forced := false } else c
  | none =>
    match c.firings with
    | f :: fs => ({ c with firings := fs }).fire f
    | [] => c

/-- R398. -/
def execEventFiring (ext : Option (Fin 256 × Word)) (s : State) : Host.Outcome State Fault Refusal :=
  s.run fun c => c.eventFiring (ext.map fun x => (x.1.val, x.2.toNat))

/-! ## Event registers (R398, R400, R415) -/

/-- INT_N is driven low: some source is sticky, enabled and NOTIFY or above, or safe state is in force. -/
def Chip.groupPending (c : Chip) (g : Nat) : Bool :=
  (List.range 32).any fun i =>
    let n := 32 * g + i
    let s := evSource n
    s.cls != 0 && c.on ⟨EV_STICKY s.page, s.bit, 1⟩ && c.on ⟨EV_ENABLE s.page, s.bit, 1⟩ && 2 ≤ c.react n

/-- INT_N is driven low (R400). Without SVC_VREF it is high-impedance (R46), and with the core off it is released (R320); in retention
the core's state, and so the pin, is kept (log entry 93). -/
def Chip.intLow (c : Chip) : Bool := c.boot.svcVref && c.coreUp && c.domainOn 4 && (c.safe || (List.range 8).any c.groupPending)

/-- R400. -/
def execEvStickyClear (p : Fin 64) (v : Word) (s : State) : Host.Outcome State Fault Refusal :=
  s.run fun c => c.writeMasked (EV_STICKY p) v

/-- A write of a source's word: REACT, if the source permits it. -/
def Chip.writeReact (c : Chip) (src : Nat) (v : Word) : Chip :=
  let s := evSource src
  let r := (EVT_SRC.REACT src).get v
  if s.cls = 0 then c
  else if c.pageLocked 0x04 then if r = c.react src then c else c.countLockIgn 0x04
  else if s.permit.testBit r then c.setFld (EVT_SRC.REACT src) r
  else c.count EVT_CNT.REACT_IGN

/-- R395. -/
def execReactWrite (src : Fin 256) (v : Word) (s : State) : Host.Outcome State Fault Refusal := s.run fun c => c.writeReact src v

/-- A write of EVT_CTRL. -/
def Chip.writeEvtCtrl (c : Chip) (v : Word) : Chip :=
  let c := c.writeMasked EVT_CTRL v
  if bit v 8 then c.clearRegs [EVT_CNT] else c

/-- R415. -/
def execEvtCntClr (v : Word) (s : State) : Host.Outcome State Fault Refusal := s.run fun c => c.writeEvtCtrl v

/-! ## Commanded entry, test access and the automatic warm reset (R403, R406, R413, R414) -/

/-- A write of SAFE_CTRL: AUTO_WARM, and ENTER. -/
def Chip.writeSafeCtrl (c : Chip) (v : Word) : Chip :=
  let c := c.writeMasked SAFE_CTRL v
  if bit v 31 then c.fire { src := 13, detail := 0, forced := false } else c

/-- R403. -/
def execSafeCtrlEnter (v : Word) (s : State) : Host.Outcome State Fault Refusal := s.run fun c => c.writeSafeCtrl v

/-- Fault injection is armed. -/
def Chip.armed (c : Chip) : Bool := c.fld LC_STATUS.STATE == 0 && c.on STRAP_STATUS.TEST_EN

/-- The source at a bit of a page. -/
def sourceAt (p n : Nat) : Option Nat := (List.range 256).find? fun s => (evSource s).cls != 0 && (evSource s).page == p && (evSource s).bit == n

/-- A write of EV_FORCE: forced firings, or an ignored write with EV010. -/
def Chip.writeEvForce (c : Chip) (p : Nat) (v : Word) : Chip :=
  let srcs := ((List.range (pageSourceCount p)).filter fun n => bit v n).filterMap (sourceAt p)
  if srcs.isEmpty || !pagePresent c.part p then c
  else if c.armed then
    if c.pageOn p then
      { c with firings := c.firings ++ srcs.map fun s => { src := s, detail := (c.reg FTST_DETAIL).toNat, forced := true } }
    else c
  else (c.count FTST_STATUS.IGNORED).raise 10 p

/-- R413. -/
def execEvForce (p : Fin 64) (v : Word) (s : State) : Host.Outcome State Fault Refusal := s.run fun c => c.writeEvForce p v

/-- IDCODE (R414). -/
def Part.idcode : Part → Word
  | .mh4160 => 0x0416009D
  | .mh4142 => 0x0414209D

/-- What the register that the port's instruction selects holds: IDCODE's word, the one bit of BYPASS, none for the boundary cells, whose
contents no rule gives. -/
def Chip.tapWord (c : Chip) : Option Word := match c.tap with
  | .idcode => some c.part.idcode
  | .bypass => some 0
  | .sample | .extest => none

/-- The boundary cells hold the balls, once EXTEST is loaded (R414). -/
def Chip.ballsTaken (c : Chip) : Bool := c.tap == .extest

/-- EXTEST is loaded after safe state is entered; outside the armed condition BYPASS is loaded in its place. -/
def Chip.extest (c : Chip) : Chip :=
  if c.armed then { c.fire { src := 13, detail := 1, forced := false } with tap := .extest } else { c with tap := .bypass }

/-- R414. -/
def execExtest (s : State) : Host.Outcome State Fault Refusal := s.run fun c => c.extest

/-- AUTO_WARM seconds after the entry. -/
def Chip.autoWarm (c : Chip) : Chip :=
  if !c.safe || c.fld SAFE_CTRL.AUTO_WARM = 0 || 3 ≤ c.fld SAFE_STATUS.AUTO_USED || c.boot.warm.isSome then c
  else (c.setFld SAFE_STATUS.AUTO_USED (c.fld SAFE_STATUS.AUTO_USED + 1)).wantWarm 4

/-- R406. -/
def execAutoWarm (s : State) : Host.Outcome State Fault Refusal := s.run fun c => c.autoWarm

/-! ## The heartbeat (R317, R410, R411) -/

/-- ALIVE is held: safe state, or a warm reset in progress. -/
def Chip.aliveHeld (c : Chip) : Bool := c.safe || c.boot.warmRun

/-- ALIVE makes an edge, seen on the pin while SVC_VREF is there. -/
def Chip.toggleAlive (c : Chip) : Chip :=
  let level := !c.ev.aliveLevel
  let c := { c with ev := { c.ev with aliveLevel := level } }
  if c.boot.svcVref then c.emit (.alive level) else c

/-- The token test is suspended: from the moment CORE is asked to stop until the exit, or the roll-back, has reached S0. -/
def Chip.tokenOff (c : Chip) : Bool := 2 ≤ c.sstate || c.ev.tokenHeld

/-- The boundary of every 128th epoch: a token is sent at each, and ALIVE toggles if the earlier ones have returned. -/
def Chip.aliveBoundary (c : Chip) : Chip :=
  if !c.ev.aliveOn || c.aliveHeld || c.sstate = 3 || c.epoch % 128 != 0 then c
  else if c.tokenOff then { c.toggleAlive with ev := { c.toggleAlive.ev with tokens := 0, tokenFree := true, lateRun := 0 } }
  else if c.ev.tokens != 0 && !c.ev.tokenFree then
    let n := c.ev.lateRun + 1
    let c := { c.count ALIVE_STATUS.LATE with ev := { c.ev with lateRun := n, tokens := c.ev.tokens + 1 } }
    if 2 ≤ n then c.raise 4 (c.fld ALIVE_STATUS.LATE) else c
  else { c.toggleAlive with ev := { c.toggleAlive.ev with tokens := 1, tokenFree := false, lateRun := 0 } }

/-- R410. -/
def execAliveBoundary (s : State) : Host.Outcome State Fault Refusal := s.run fun c => c.aliveBoundary

/-- R410. -/
def execHeartbeatTokenReturn (s : State) : Host.Outcome State Fault Refusal :=
  s.run fun c => if c.coreUp && !c.tokenOff then { c with ev := { c.ev with tokens := c.ev.tokens - 1 } } else c

/-- In S3 a toggle of the ALIVE oscillator is what time passes by (log entry 6). -/
def Chip.aliveTick (c : Chip) : Chip := { c with timeNs := c.timeNs + 1048576 }

/-- R317. From entry into S3 until step 5 of the exit ends. -/
def execAliveOscillatorToggle (s : State) : Host.Outcome State Fault Refusal :=
  s.run fun c =>
    let c := if c.sstate = 3 then c.aliveTick else c
    if (c.sstate = 3 || (c.boot.kind = 2 && !c.coreUp)) && !c.aliveHeld then c.toggleAlive else c

/-! ## Sensors (R397, R440) -/

/-- The junction temperature in units of 0.1 °C. EV002 above 110 °C, again only after it has been below 105 °C; EV003 at 125 °C, whose
condition holds down to 115 °C. -/
def Chip.temperature (c : Chip) (t : Nat) : Chip :=
  let hot := decide (1100 < t)
  let crit := decide (1250 ≤ t)
  let c := if hot && !c.ev.junctionHot then c.raise 2 t else c
  let c := if crit && !c.ev.junctionCrit then c.raise 3 t else c
  let h := hot || (c.ev.junctionHot && !decide (t < 1050))
  let k := crit || (c.ev.junctionCrit && !decide (t < 1150))
  { ((c.setRaw 2 h).setRaw 3 k) with ev := { c.ev with junctionHot := h, junctionCrit := k } }

/-- R440. The readings of the four sensors, in 0.1 °C, the lowest 0. -/
def execTemperatureSample (a b d e : BitVec 12) (s : State) : Host.Outcome State Fault Refusal :=
  s.run fun c => c.temperature (max (max a.toNat b.toNat) (max d.toNat e.toNat))

/-- The rail of EV008 is in a ramp (R435): VCORE and VSTK in start-up, in a change of point and in a restart of their domains. A ramp of
VISL under R330 lies within the command that asks for it, and V1P8 has none. -/
def Chip.railRamps (c : Chip) (rail : Nat) : Bool :=
  (rail == 0 && (c.boot.rampNow == some .vcore || c.seq.ramping || c.boot.rampNow == some (.domain 4))) ||
    (rail == 2 && (c.boot.rampNow == some .vstk || c.boot.rampNow == some (.domain 6)))

/-- A lasting condition whose end no command shows: its event, and its EV_RAW bit from then to the next reset (DESIGN CHOICE, log
entry 96). -/
def Chip.lasting (c : Chip) (src detail : Nat) : Chip := (c.raise src detail).setRaw src true

/-- R397. A rail outside ±5 % for 10 µs; a rail that ramps is not watched. -/
def execRailFault (rail : Fin 4) (s : State) : Host.Outcome State Fault Refusal :=
  s.run fun c => if c.railRamps rail then c else c.lasting 8 rail

/-- R397. The reference's error in ppm. -/
def execReferenceFault (ppm : Word) (s : State) : Host.Outcome State Fault Refusal :=
  s.run fun c => if c.domainOn 1 && 2 ≤ c.boot.step then c.lasting 9 ppm.toNat else c

end Sys2Proof.Machine
end

