-- ==== Sys2Proof/Machine/RegReads.lean ====
section
/-! DEFINITION. What a read of a register returns: the stored word, and the fields that show a live state (R393, R415, R418, R425,
R430). -/

namespace Sys2Proof.Machine

/-! ## The common header (R418) -/

/-- The step of R54 that starts a page's block. -/
def stepOfPage (p : Nat) : Nat := ((List.range 13).find? fun n => (stepPages n).contains p).getD 5

/-- A step of start-up has completed. -/
def Chip.stepDone (c : Chip) (n : Nat) : Bool := decide (n < c.boot.step) || (n == c.boot.step && !c.railDue)

/-- A register's offsets in its page. -/
def RegDesc.offsets (d : RegDesc) : List Nat := (List.range d.count).map fun i => d.off + d.stride * i

/-- A command field of the page reads 1. -/
def Chip.pageBusy (c : Chip) (p : Nat) : Bool :=
  c.on (PAGE_CTRL.SRST p) || (Sys2Proof.Machine.pageRegs p).any fun d =>
    d.w1s != 0 && d.offsets.any fun o => c.reg (0x1000 * p + o) &&& BitVec.ofNat 32 d.w1s != 0

/-- A lock of a resource of the page is held. -/
def Chip.pageMaintLocked (c : Chip) (p : Nat) : Bool :=
  c.maint.holds.any fun h => h.locks.any fun r => match r with
    | .lane l => p == 0x10 + l
    | .bank _ _ => p == 0x39
    | .keys => p == 0x35
    | .folio _ => p == 0x01

def Chip.pageStatus (c : Chip) (p : Nat) : Word :=
  let ready := c.on (PAGE_CTRL.EN p) && c.stepDone (stepOfPage p)
  let fault := (c.reg (EV_STICKY p) &&& c.reg (EV_ENABLE p)) != 0
  BitVec.ofNat 32 (ready.toNat * 2 ^ 31 + (c.pageBusy p).toNat * 2 ^ 30 + fault.toNat * 2 ^ 29 + (c.pageMaintLocked p).toNat * 2 ^ 28 +
    c.fld (PAGE_STATUS.LOCK_IGN p))

/-! ## Events and ALIVE (R415) -/

/-- A source's word with the mirrors of its EV_STICKY and EV_RAW bits. -/
def Chip.sourceWord (c : Chip) (n : Nat) : Word :=
  let s := evSource n
  let m (a : Nat) : Nat := if s.cls = 0 then 0 else c.fld ⟨a, s.bit, 1⟩
  BitVec.ofNat 32 (m (EV_STICKY s.page) * 2 ^ 31 + m (EV_RAW s.page) * 2 ^ 30 + (c.reg (EVT_SRC n)).toNat % 2 ^ 30)

def Chip.groupSummary (c : Chip) : Word :=
  BitVec.ofNat 32 (c.safe.toNat * 256 + ((List.range 8).map fun g => (c.groupPending g).toNat * 2 ^ g).sum)

/-- LEVEL reads 0 while the pin is high-impedance. -/
def Chip.aliveWord (c : Chip) : Word :=
  BitVec.ofNat 32 ((c.ev.aliveLevel && c.boot.svcVref).toNat * 2 ^ 31 + c.aliveHeld.toNat * 2 ^ 30 + c.fld ALIVE_STATUS.LATE)

/-! ## Power (R333, R430) -/

def Chip.maintWord (c : Chip) : Word :=
  let code (h : Option MaintHold) : Nat := (h.map (·.code)).getD 0
  BitVec.ofNat 32 (c.unitsHeld * 2 ^ 30 + code c.maint.h1 * 2 ^ 8 + code c.maint.h0)

/-- The domain's supply ramps. -/
def Chip.domainRamping (c : Chip) (d : Nat) : Bool :=
  c.boot.rampNow == some (.domain d) || (d == 4 && (c.boot.rampNow == some .vcore || c.seq.ramping)) ||
    (d == 6 && c.boot.rampNow == some .vstk)

/-- A domain's supply is on. The Folio store's is on while the store is read or written, and the standby router's from its gate's
closing until the copy is active, and during a proof (R319, R386, R388, R390). -/
def Chip.suppliedNow (c : Chip) (d : Nat) : Bool :=
  if d = 2 then c.domainOn 2 && (c.boot.step < 4 || c.folio.job.isSome)
  else if d = 5 then c.router.phase == 1 || c.fld ROUT_STATUS.STATE == 2
  else c.domainOn d

/-- PS_DOMAIN with the bits of the two domains that follow what runs in them. -/
def Chip.domainsWord (c : Chip) : Word :=
  let f (b : Nat) : Fld := ⟨PS_DOMAIN, b, 1⟩
  (f 5).put ((f 2).put (c.reg PS_DOMAIN) (c.suppliedNow 2).toNat) (c.suppliedNow 5).toNat

/-- A word of the PDOM table as it is sampled; a domain that is off or in retention is clamped (R320). -/
def Chip.domainWord (c : Chip) (d : Nat) : Word :=
  let on := c.suppliedNow d && decide (1 ≤ c.boot.step)
  let ret := (c.fld PS_DOMAIN.RET).testBit d
  BitVec.ofNat 32 (on.toNat * 2 ^ 31 + ret.toNat * 2 ^ 30 + (!on || ret).toNat * 2 ^ 29 + (c.domainRamping d).toNat * 2 ^ 28 +
    c.fld ⟨PDOM_TBL d, 0, 16⟩)

/-- Whether a rail is on, and its setting in 10 mV, by R45. The spec gives no rule for V1P8, V3P3 and V5DS: on while what they feed may
run (DEDUCED, log entry 13). -/
def Chip.railSetting (c : Chip) (r : Nat) : Bool × Nat :=
  let src (p : Nat) : Bool × Nat := ((c.pdPort p).switch, c.fld (PD_CONTRACT.VOLT p) * 2)
  match r with
  | 0 => (decide (1 ≤ c.boot.step), 0)
  | 1 => (decide (1 ≤ c.boot.step), 180)
  | 2 => (c.coreUp && c.sstate != 3, if c.sstate = 2 then 50 else Config.coreVolts c.op)
  | 3 => ([1, 7, 8, 9, 10, 11, 12].any c.domainOn, 75 + 5 * c.fld PS_ISL.VISL)
  | 4 => (decide (6 ≤ c.boot.step) && c.domainOn 6, 110)
  | 5 => (c.coreUp && c.sstate != 3, 180)
  | 6 => (decide (9 ≤ c.boot.step) && c.sstate != 3, 330)
  | 7 => (decide (8 ≤ c.boot.step) && c.sstate != 3, 500)
  | 8 => src 0
  | _ => src 1

/-- A word of the VCNV table as it is sampled. What a converter measures is a free value (log entry 3), new every 1 ms. -/
def Chip.railWord (c : Chip) (r : Nat) : Word :=
  let (on, set) := c.railSetting r
  let m := Config.railMeasured r (c.timeNs / 1000000) % 8192
  let set := if on then set else 0
  let inReg := on && r != 0 && decide (20 * m ≤ 21 * set) && decide (19 * set ≤ 20 * m)
  BitVec.ofNat 32 (on.toNat * 2 ^ 31 + inReg.toNat * 2 ^ 30 + set % 8192 * 2 ^ 16 + m)

/-- Every 1 ms the words of both tables are updated, domains first; until then they are zero (R430). -/
def Chip.sampleSupplies (c : Chip) : Chip :=
  { c with samples := (List.range 13).map c.domainWord ++ (List.range 10).map c.railWord }

/-! ## Keys (R371, R374) -/

/-- A word of the slot table. -/
def Chip.slotWord (c : Chip) (s w : Nat) : Word :=
  let x := c.slot s
  match w with
  | 0 => BitVec.ofNat 32 x.word0
  | 1 => BitVec.ofNat 32 (x.gen % 65536 * 65536 + (c.boundFlows s).length)
  | _ => 0

def Chip.muniWord (c : Chip) : Word :=
  let valid := ((List.range 64).filter fun s => (c.slot s).state == 1).length
  let w := MUNI_STATUS.MODE.put (c.reg MUNI_STATUS) (c.fld MUNI_CTRL.MODE)
  MUNI_STATUS.VALID.put w valid

/-- Word `i` of bytes. -/
def wordAt (bs : List Byte) (i : Nat) : Word := BitVec.ofNat 32 (ofBytes ((bs.drop (4 * i)).take 4))

/-! ## Coppice (R383, R393) -/

/-- A word of the inventory. -/
def Chip.spareWord (c : Chip) (k w : Nat) : Word :=
  if k = 0 || 11 < k || c.boot.step < 5 then 0
  else
    let pools := List.range (poolCount c.part k)
    let total := (pools.map fun u => poolSpares k u).sum
    let used := (c.copp.map.filter fun e => e.kind == k).length
    let out := (pools.filter fun u => decide (poolSpares k u ≤ c.poolUsed k u)).length
    if w = 0 then BitVec.ofNat 32 (total * 65536 + used) else BitVec.ofNat 32 (pools.length * 65536 + out)

/-- The in-service entries in force. -/
def Chip.serviceEntries (c : Chip) : List RepEntry := c.copp.map.filter fun e => !e.fuse

def Chip.mapWord (c : Chip) (i w : Nat) : Word := match c.serviceEntries[i]? with
  | some e => wordAt (e.bytes false) w
  | none => 0

/-! ## The cascade (R351) -/

/-- The A-link's partner is an AP2080 (R135, R349), while it has one. -/
def Chip.apLast (c : Chip) : Bool := c.aLink.any c.partnerAp

def Chip.cascWord (c : Chip) : Word :=
  let role := if c.pairedMaster then 1 else if c.pairedFollower then 2 else 0
  let up := (c.aLink.map c.upNow).getD false
  let part := (c.aLink.map c.partnerPart).getD 0
  BitVec.ofNat 32 (role * 2 ^ 30 + c.position.isSome.toNat * 2 ^ 29 + c.position.getD 0 * 2 ^ 26 + c.fld CASC_STATUS.BEYOND * 2 ^ 24 +
    c.fld CASC_STATUS.PRESENT * 2 ^ 21 + c.apLast.toNat * 2 ^ 20 + up.toNat * 2 ^ 19 + part % 65536)

/-! ## A register -/

/-- Index of the entry of a table of `n` entries of `stride` bytes from `base` on. -/
def entryOf (base stride n a : Nat) : Option Nat :=
  if base ≤ a && a < base + stride * n then some ((a - base) / stride) else none

/-- A register whose word is computed whole. -/
def Chip.liveWord (c : Chip) (a : Nat) : Option Word :=
  let o := a % 0x1000
  match pageOf a with
  | 0x02 => if a = PS_MAINT then some c.maintWord else if a = PS_DOMAIN then some c.domainsWord else none
  | 0x03 => (entryOf (PDOM_TBL 0) 4 13 a).map fun d => c.samples.getD d 0
  | 0x04 => if a = EVT_GSUM then some c.groupSummary else (entryOf (EVT_SRC 0) 4 256 a).map c.sourceWord
  | 0x06 => if a = ALIVE_STATUS then some c.aliveWord else none
  | 0x07 =>
    if a = COPP_STATUS then some (COPP_STATUS.ENTRIES.put (c.reg a) c.inService?.length)
    else match entryOf (COPP_INV 0 0) 8 12 a with
      | some k => some (c.spareWord k (o / 4 % 2))
      | none => (entryOf (COPP_MAP 0 0) 8 128 a).map fun i => c.mapWord i (o / 4 % 2)
  | 0x0A => match entryOf (SCHED 0 0) 4 16 a with
    | some i => some (c.schedWord (if i < 8 then .ul else .cs) (i % 8))
    | none => match entryOf (PORT_SUM 0) 4 16 a with
      | some p => some (c.portSumWord p)
      | none => (entryOf (SPARE_TBL 0) 4 16 a).map c.spareTblWord
  | 0x0B | 0x0C | 0x0D | 0x0E =>
    let f := 64 * (pageOf a - 0x0B) + (o - 0x810) / 0x20
    if 0x810 ≤ o && a = FLOW_STATE f then some (c.flowStateWord f) else none
  | 0x1D => if a = SURF_STATUS then some c.surfStatusWord else none
  | 0x1C => if a = CASC_STATUS then some c.cascWord else none
  | 0x34 => (entryOf (VCNV_TBL 0) 4 10 a).map fun r => c.samples.getD (13 + r) 0
  | 0x35 =>
    if a = MUNI_STATUS then some c.muniWord else (entryOf (SLOT_TBL 0 0) 16 64 a).map fun s => c.slotWord s (o / 4 % 4)
  | 0x37 =>
    if a = ATST_STATUS then some (ATST_STATUS.CERT_LEN.put (c.reg a) c.muni.cert.length)
    else match entryOf (ATST_IDPUB 0) 4 24 a with
      | some i => some (wordAt c.identityPublic i)
      | none => (entryOf (ATST_CERT 0) 4 512 a).map (wordAt c.muni.cert)
  | 0x3D => if a = FTST_STATUS then some (FTST_STATUS.ARMED.put (c.reg a) c.armed.toNat) else none
  | p =>
    if 0x10 ≤ p && p ≤ 0x17 then (entryOf (TAP_SET (p - 0x10) 0) 4 28 a).map (c.liveTap (p - 0x10)) else none

/-- Bits that read 0 because the part lacks what they are for (R213, R241, R281). -/
def Chip.absentBits (c : Chip) (a : Nat) : Word :=
  match c.part with
  | .mh4160 => 0
  | .mh4142 =>
    if a = EPHY_CTRL then 0x00180000
    else if a = SURF_CTRL then (SURF_CTRL.BEAM_EN).put 0 0xC
    else if MARG_CTRL 2 ≤ a && a < MARG_CTRL 4 || MARG_STATUS 2 ≤ a && a < MARG_STATUS 4 then 0xFFFFFFFF
    else 0

/-- The word a register reads as; WO fields read 0, absent pages and offsets without a register 0 (R4, R7, R416). -/
def Chip.readWord (c : Chip) (a : Nat) : Word :=
  let p := pageOf a
  if !pagePresent c.part p then 0
  else if a % 0x1000 = 0x008 then c.pageStatus p
  else match c.liveWord a with
    | some w => w
    | none => match regDesc a with
      | some d => if 0x24 ≤ p && p ≤ 0x27 && a % 0x1000 = 0x040 && c.dpHeldOff (p - 0x24) then
          (DPTX_CTRL.PWR_EN (p - 0x24)).put (c.reg a) 0
        else c.reg a &&& ~~~(BitVec.ofNat 32 d.wo) &&& ~~~(c.absentBits a)
      | none => if a % 0x1000 < 0x020 then c.reg a else 0

/-! ## 64-bit counters (R425, R426) -/

/-- The HI word of a counter's LO word. -/
def hiOf (a : Nat) : Option Nat :=
  if a = EPOCH_LO then some EPOCH_HI
  else if (pageOf a = 0x18 || pageOf a = 0x19) && [0x800, 0x840, 0x880, 0x8C0].contains (a % 0x1000) then some (a + 4)
  else none

/-- A marked word of a read-sensitive map. -/
def readSensitive (a : Nat) : Bool := (hiOf a).isSome

def pathNo : Path → Nat
  | .flow1Ul => 0
  | .flow1Cs => 1
  | .bridge => 2
  | .svcf => 3
  | .svcp => 4

/-- A path's latch: the HI word's address and its value at the last LO read. -/
def Chip.latch (c : Chip) (p : Path) : Option (Nat × Word) := cellsGet (fun _ => none) c.latches (pathNo p)

/-- A read by a path: a LO word latches its HI word, and a HI word reads as latched when the last LO read of the path was of the same
counter. An absent page reads 0 (R4). -/
def Chip.readReg (c : Chip) (p : Path) (a : Nat) : Word × Chip :=
  if !pagePresent c.part (pageOf a) then (0, c)
  else match hiOf a with
  | some h => (c.readWord a, { c with latches := cellsSet (fun _ => none) c.latches (pathNo p) (some (h, c.readWord h)) })
  | none => match c.latch p with
    | some (h, w) => (if h = a then w else c.readWord a, c)
    | none => (c.readWord a, c)

/-- The LO word of a counter. -/
def loAddr : Counter64 → Nat
  | .epoch => EPOCH_LO
  | .cw k l => FEC k.idx l.val 0

/-- R425. -/
def execCounterLoRead (p : Path) (n : Counter64) (s : State) : Host.Outcome State Fault Refusal :=
  s.run fun c =>
    if !c.pathOpen p then c
    else
      let (w, c) := c.readReg p (loAddr n)
      c.emit (.regData p w)

end Sys2Proof.Machine
end

