-- ==== Sys2Proof/Machine/Epoch.lean ====
section
/-! DEFINITION. The epoch strobe: boundaries of lanes, links and turns, the Circulation cycle, what waits for a boundary, beam
records and the closing of event messages (R150, with R99–R102, R124–R129, R143, R146–R158, R207, R329, R369, R375, R400). -/

namespace Sys2Proof.Machine

/-! ## Time -/

/-- An epoch of each scheduler's dwell has passed, whatever its link does meanwhile (R158, R162). -/
def Chip.dwellTick (c : Chip) : Chip := [Lnk.ul, .cs].foldl (fun c k => c.modSched k fun s => { s with dwell := s.dwell - 1 }) c

/-- The next epoch begins (R425): 48 bits of epoch count, 1,024 reference periods later. The supply tables follow at the epoch in which
another 1 ms ends (R430). -/
def Chip.nextEpoch (c : Chip) : Chip :=
  let m := (c.epoch + 1) % 2 ^ 48
  let ms := c.timeNs / 1000000
  let c := { c with timeNs := c.timeNs + Config.epochNs }
  let c := c.when (ms != c.timeNs / 1000000) Chip.sampleSupplies
  ((c.setReg EPOCH_LO (BitVec.ofNat 32 m)).setReg EPOCH_HI (BitVec.ofNat 32 (m / 2 ^ 32))).pdTick.dwellTick

/-- The receiver of the lane tracks: in TRACK, in service and LOCKED (R92). -/
def Chip.tracks (c : Chip) (l : Nat) : Bool :=
  c.fld (LANE_STATUS.EQ_STATE l) == 7 && c.fld (LANE_STATUS.DIR l) == 0 && c.inService l && c.laneLocked l

/-- The next block of every lane carries EPB (R110), tracking receivers have moved (R92), and epochs of a received HOLD are counted
(R131). -/
def Chip.markEpoch (c : Chip) : Chip :=
  let c := (List.range 8).foldl (fun c l => c.modLane l fun x =>
    { x with epbDue := true, tracked := x.tracked + (c.tracks l).toNat }) c
  [Lnk.ul, Lnk.cs].foldl (fun c k =>
    if c.on (LINK_STATUS.HOLD_RX k.idx) then c.modLink k fun x => { x with holdEpochs := x.holdEpochs + 1 } else c) c

/-! ## Lanes leave and rejoin their groups (R127, R379) -/

/-- A lane named by LANE_OUT leaves its group; slices that wait are swapped. -/
def Chip.leaveGroup (c : Chip) (l : Nat) : Chip :=
  if (c.lane l).out == .leaving then
    ((c.setFld (LANE_STATUS.SVC l) 0).modLane l fun x => { x with out := .retrainWanted }).swapSlices l
  else c

/-- The retrain of a lane out of service starts; a lane repair holds the lock already, and a refused retrain is asked for again at
the next boundary. -/
def Chip.startRetrain (c : Chip) (l : Nat) : Chip :=
  if (c.lane l).out != .retrainWanted then c
  else if c.maint.holds.any fun h => h.code == 0x04 && h.locks.contains (.lane l) then
    c.beginRetrain l
  else (c.retrainLane l).2

/-- A lane enters service in the group of its direction; a transmitter takes the block count of its group. -/
def Chip.joinGroup (c : Chip) (l : Nat) : Chip :=
  let b := match (c.group (lnkOf l) 1).find? (· != l) with
    | some g => (c.lane g).txBcnt
    | none => (c.lane l).txBcnt
  let c := (c.setFld (LANE_STATUS.SVC l) 1).setFld (LANE_STATUS.EQ_STATE l) 7
  let c := { c with copp := { c.copp with repairLanes := c.copp.repairLanes.filter (· != l) } }
  c.modLane l fun x => { x with out := .in_, partnerIn := false, txState := 0, idle := false, txBcnt := b }

/-- The committed rates of a link with these lanes in service are within the port floor of the point in force (R21, R22). -/
def Chip.lanesFit (c : Chip) (ls : List Nat) : Bool :=
  [0, 1].all fun d => decide (((ls.filter fun l => c.fld (LANE_STATUS.DIR l) = d).map fun l =>
    Config.laneRate (c.fld (LANE_STATUS.RATE l))).sum ≤ Config.portFloor c.fitOp)

/-- A receiving lane that exceeds the skew of R87 is not joined to its group. -/
def Chip.joinable (c : Chip) (l : Nat) : Bool := c.fld (LANE_STATUS.DIR l) = 1 || c.deskewed l

/-- A lane for which both LANE_IN cells are known rejoins, if it is deskewed (R87) and the operating point, not barred, still fits with it (R22,
R381; log entry 85); otherwise it waits for a boundary at which it may. -/
def Chip.rejoinGroup (c : Chip) (l : Nat) : Chip :=
  let k := lnkOf l
  if (c.lane l).out == .laneInSent && (c.lane l).partnerIn && c.joinable l && !c.opBarred &&
      c.lanesFit (l :: (c.group k 0 ++ c.group k 1)) then
    c.joinGroup l
  else c

/-- A boundary of the scheduling end, as the lanes of a link see it: turns, lanes leaving, retrains and lanes rejoining. -/
def Chip.laneBoundary (c : Chip) (k : Lnk) : Chip :=
  let c := c.turnBoundary k
  if !c.linkUp k then c
  else
    let c := (pairs k).foldl Chip.leaveGroup c
    let c := (pairs k).foldl Chip.rejoinGroup c
    (pairs k).foldl Chip.startRetrain (c.syncMaps k)

/-- R149. The epoch of the end that schedules the link begins here: its grants take effect and its lanes' boundary is passed. -/
def execPartnerEpochBegin (k : Lnk) (s : State) : Host.Outcome State Fault Refusal :=
  s.run fun c =>
    if c.schedules k || !c.linkUp k then c
    else
      let c := c.laneBoundary k
      if c.linkUp k then c.partnerEpoch k else c

/-! ## A link comes up (R124 step 8, R129 step 6) -/

/-- The lanes that enter service: trained and not left out (R125). A transmitter serves in training if the partner reported the
lane locked; a receiver must be LOCKED and deskewed (R84, R87). -/
def Chip.upLanes (c : Chip) (k : Lnk) : List Nat :=
  if c.linkState k = 1 then
    ((c.usedLanes k).map (c.pairOf k)).filter fun l =>
      if c.fld (LANE_STATUS.DIR l) = 0 then c.fld (LANE_STATUS.EQ_STATE l) = 7 && c.laneLocked l && c.deskewed l
      else ((c.link k).partner.map fun a => a.lanes.toNat.testBit (c.linkLane l)).getD false
  else
    (pairs k).filter fun l =>
      (c.lane l).out == .in_ && c.fld (LANE_STATUS.EQ_STATE l) = 7 && !(c.lane l).idle &&
        (c.fld (LANE_STATUS.DIR l) = 1 || (c.laneLocked l && c.deskewed l))

/-- CREDIT_INIT has been exchanged. -/
def Chip.readyUp (c : Chip) (k : Lnk) : Bool :=
  (c.link k).creditRx && ((c.linkState k = 1 && (c.link k).step = 7) || (c.linkState k = 3 && (c.link k).recStep = 5))

/-- What a scheduler begins with after a training or recovery (R152): 16 epochs of declared demand. -/
def Chip.declareLink (c : Chip) (k : Lnk) (trained : Bool) : Chip :=
  if !c.schedules k then c
  else
    let c := (c.setFld ⟨SCHED k.idx 0, 16, 8⟩ 16).setFld ⟨SCHED k.idx 0, 28, 1⟩ 1
    let c := c.setFld ⟨SCHED k.idx 0, 27, 1⟩ 0
    c.modSched k fun s =>
      { s with
        stale := 0, demand := if trained then none else s.demand, collect := [], received := [], sentIn := [], extraIn := []
        resIn := ctrlReserve (c.capNow k 0), nextRes := ctrlReserve (c.capNow k 0)
        nextIn := [], nextOut := [], nextExtraIn := [], cand := none, count := 0, only3 := false }

/-- The lanes of a link that comes up enter service; the others idle. -/
def Chip.enterLanes (c : Chip) (k : Lnk) (ls : List Nat) : Chip :=
  (pairs k).foldl (fun c l => if ls.contains l then c.joinGroup l else c.modLane l fun x => { x with idle := true }) c

/-- STATE reads UP; what was asked of the link and its steps are over. -/
def Chip.markUp (c : Chip) (k : Lnk) : Chip :=
  let c := (c.setFld (LINK_STATUS.STATE k.idx) 2).setFld (LINK_STATUS.SCHED k.idx) (c.schedules k).toNat
  let c := (c.setFld (LINK_CTRL.RETRAIN k.idx) 0).setFld (LINK_CTRL.RECOVER k.idx) 0
  (c.modLink k fun x => { x with
    step := 0, recStep := 0, creditRx := false, upSinceMode := true, stableNs := c.timeNs, grants := []
    grant := { epoch := 0, parts := [], epochNow := 0, known := false, res := 0, extra := [] } }).syncMaps k

/-- An end that does not schedule the link begins with what the reserve gives it. -/
def Chip.firstGrants (c : Chip) (k : Lnk) : Chip :=
  if c.schedules k then c else c.modLink k fun x => { x with grants := c.partnerGrants k 0 [] }

/-- The link is UP: its lanes enter service, its requests and steps are over, its reduced-link event is raised. -/
def Chip.comeUp (c : Chip) (k : Lnk) (ls : List Nat) : Chip :=
  let training := c.linkState k = 1
  let reduced := decide (ls.length < (c.usedLanes k).length)
  let c := ((c.enterLanes k ls).markUp k).firstGrants k
  let c := if training && (reduced || c.on (LINK_STATUS.CAPPED k.idx)) then c.raiseOpen (evOf k 55 61) else c
  ((c.declareLink k training).syncCirc.cascadeUp k).lightExit

/-- A training may bring these lanes up: the point in force fits them, and, where it is barred, the rate is that of the fallback to
version 1, which R123 ties to no point (R22, R381). -/
def Chip.mayComeUp (c : Chip) (k : Lnk) (ls : List Nat) : Bool :=
  c.lanesFit ls && (!c.opBarred || c.linkState k != 1 || c.fld (LINK_STATUS.VERSION k.idx) == 1)

/-- The boundary after CREDIT_INIT: the link comes up if each direction keeps a lane and the operating point in force fits the lanes
(R22); otherwise a training attempt fails. A recovery whose rate no longer fits goes on to full training (log entry 85). -/
def Chip.linkBoundary (c : Chip) (k : Lnk) : Chip :=
  if !c.readyUp k then c
  else
    let ls := c.upLanes k
    let both := [0, 1].all fun d => ls.any fun l => c.fld (LANE_STATUS.DIR l) = d
    if both && c.mayComeUp k ls then c.comeUp k ls
    else if c.linkState k = 1 then c.attemptFails k false
    else if both then (c.startTraining k).setFld (LINK_CTRL.RECOVER k.idx) 0
    else c

/-! ## Circulation (R150) -/

/-- Step 5: what the strobe before computed takes effect. -/
def Chip.takeEffect (c : Chip) (k : Lnk) : Chip :=
  let s := c.sched k
  let c := c.modLink k fun x => { x with grants := s.nextOut }
  let c := (([1, 2] ++ c.liveFlows).filter fun f => c.crosses k f && c.ownerLink f == k).foldl (fun (c : Chip) f =>
    let a := min (lookup s.nextIn f) 4095
    let b := min (lookup s.nextOut f) 4095
    let (i, o) := if c.flowDir k 0 f = 0 then (a, b) else (b, a)
    (c.setFld (FLOW_STATE.A_IN f) i).setFld (FLOW_STATE.A_OUT f) o) c
  c.modSched k fun s => { s with extraIn := s.nextExtraIn, resIn := s.nextRes, sentIn := [] }

/-- DEMAND has not come for 4 epochs (R151). -/
def Chip.countStale (c : Chip) (k : Lnk) : Chip :=
  let n := min ((c.sched k).stale + 1) 5
  let c := c.modSched k fun s => { s with stale := n }
  let f : Fld := ⟨SCHED k.idx 0, 27, 1⟩
  if 5 ≤ n && !c.on f then (c.setFld f 1).raise 65 (k.idx * 2 ^ 30) else c

/-- The capacity of a direction in the epoch to come: a turn just decided leaves its gap arrangement, one in its gap the target. -/
def Chip.capNext (c : Chip) (k : Lnk) (dir : Nat) : Nat :=
  match (c.link k).turn with
  | some t =>
    if t.epoch = 0 then c.capGap k dir t.lanes
    else c.capNow k dir + c.capOf (t.lanes.filter fun l => c.arrDir k t.target (c.linkLane l) == dir)
  | none => c.capNow k dir

/-- Steps 1–5 for one scheduled link that is UP. -/
def Chip.circulate (c : Chip) (k : Lnk) : Chip :=
  if !c.schedules k || !c.linkUp k then c
  else
    let c := ((c.takeEffect k).countStale k).syncSched k
    let c := c.decideTurn k
    let ci := c.capNext k 0
    let co := c.capNext k 1
    (((c.computeDir k 0 ci).computeDir k 1 co).sendAllot k ci).countDecl k

/-- Circulation at the strobe, while a router is active; the checkpoint follows the computation (R387, R388). -/
def Chip.circulation (c : Chip) : Chip :=
  if c.fld ROUT_STATUS.STATE = 1 then c
  else
    let c := { c with lateNow := [] }
    (((c.circulate .ul).circulate .cs).checkpoint).endGap

/-! ## Flows that drain (R143) -/

/-- A draining flow is FREE when nothing of it is held, also no message in the key/crypto engine, or 64 epochs after its commit. -/
def Chip.drainFlow (c : Chip) (f : Nat) : Chip :=
  if !c.draining f then c
  else if c.holdsNone f && (c.keyFlow f).held.isEmpty || (c.flow f).drain ≤ 1 then c.freeFlow f
  else c.modFlow f fun e => { e with drain := e.drain - 1 }

def Chip.drainFlows (c : Chip) : Chip := (c.liveFlows.foldl Chip.drainFlow c)

/-! ## What was refused a lock or a unit is asked for again (R71, R355, R375) -/

def Chip.retryMaint (c : Chip) : Chip :=
  let c := c.copp.waiting.foldl (fun c r => if c.repairOn && !c.deferredRepair r then c.startStkRepair r else c) c
  let c := (List.range 8).foldl Chip.laneRepair c
  let c := c.copp.waitSlots.foldl Chip.repairSlot c
  let c := if c.folio.retryCoppice && c.maintAnswer [.folio c.writeTarget] == .granted then c.requestMapWrite else c
  if c.folio.job.isSome then c else c.clearKeyFolios

/-! ## Beam records (R207) -/

/-- The entry of one head. -/
def Chip.beamEntry (c : Chip) (h : Nat) : List Byte :=
  if !((c.fld SURF_CTRL.BEAM_EN).testBit h && c.headList.contains h) then List.replicate 16 0
  else
    let x := c.head h
    let r := c.raster h
    let scan := c.scanning h
    let shown := scan && (HEAD_PLANE.MAIN_EN h).get x.plane = 1 && c.headMode h != modeFollow
    let next := if r.vactive ≤ 16 * x.nextBand then 0 else x.nextBand
    let flags := scan.toNat + 2 * (c.on (HEAD_STATUS.VBLANK h)).toNat + 4 * (c.headMode h != modeSurface).toNat +
      8 * (c.panelTimed h).toNat + 16 * (c.on (HEAD_STATUS.MISSED h)).toNat
    toBytes 1 flags ++ toBytes 1 (if shown then c.fld (HEAD_STATUS.LIVE_SURF h) else 0xFF) ++ toBytes 2 (c.fld (HEAD_POS.LINE h)) ++
      toBytes 2 r.vtotal ++ toBytes 2 (c.fld (HEAD_POS.FRAME h)) ++ toBytes 4 (rasterTline r) ++ toBytes 2 next ++
      toBytes 2 (min x.late 65535)

/-- A record replaces one not yet sent; lateness of every head is counted anew. None is queued during a fail-over (R389). -/
def Chip.beamRecord (c : Chip) : Chip :=
  let en := ((c.headList.filter (c.fld SURF_CTRL.BEAM_EN).testBit).map (2 ^ ·)).sum
  if !c.native .ul || en = 0 || c.epoch % (c.fld SURF_CTRL.BEAM_INT + 1) != 0 || c.safe || c.sstate != 0 || !c.pageOn 0x1D ||
      c.noRouter || c.router.phase != 0 then c
  else
    let b := toBytes 4 c.epoch ++ toBytes 1 en ++ [0, 0, 0] ++ (List.range 4).flatMap c.beamEntry
    let c := c.headList.foldl (fun c h => c.modHead h fun x => { x with late := 0 }) c
    { c with ev := { c.ev with beam := some b } }

/-! ## Events at the strobe (R398–R400) -/

/-- Losses of the epoch that ends are reported, its merge targets close, and every queued record goes into a message. -/
def Chip.closeEpoch (c : Chip) : Chip :=
  let lost := c.ev.lostNow
  let c := { c with ev := { c.ev with lostNow := 0, targets := c.ev.targets.filter fun t => t.epoch == c.epoch } }
  (if lost = 0 then c else c.raise 245 lost).closeAll.sweepMessages

/-! ## The strobe -/

/-- Turns held by an entry into a power state go on once the device is back in S0 (R323, R326). -/
def Chip.freeTurns (c : Chip) : Chip :=
  if c.sstate = 0 && !c.on PS_STATUS.BUSY && c.seq.target = 0 then { c with seq := { c.seq with heldTurns := false } } else c

/-- A link's boundaries at this device's own strobe. -/
def Chip.ownBoundary (c : Chip) (k : Lnk) : Chip :=
  let c := if c.schedules k then c.laneBoundary k else c
  c.linkBoundary k

/-- Everything the core does at a strobe. -/
def Chip.coreStrobe (c : Chip) : Chip :=
  let c := c.markEpoch.freeTurns
  let c := { c with seq := { c.seq with turnDone := false } }
  let c := ((c.ownBoundary .ul).ownBoundary .cs).circulation
  let c := c.drainFlows.applyRebinds
  let c := c.swapPlane.retryMaint
  c.lowerBoundary.beamRecord.closeEpoch.ethStrobe

/-- The strobe. The reference runs from start-up step 2 on and stops in S3 (R54, R317). -/
def Chip.strobe (c : Chip) : Chip :=
  if c.boot.step < 2 || c.sstate = 3 then c
  else
    let c := c.nextEpoch
    if c.coreUp && decide (c.sstate ≤ 1) then c.coreStrobe else c

/-- R150. -/
def execEpochStrobe (s : State) : Host.Outcome State Fault Refusal := s.run fun c => c.strobe

end Sys2Proof.Machine
end

