-- ==== Sys2Proof/Machine/RegWrites.lean ====
section
/-! DEFINITION. A 32-bit write to any register: each register that does something of its own goes to the one operation that does it,
every other takes the value under its access codes (R7, R28, R416). -/

namespace Sys2Proof.Machine

/-! ## Registers with a rule of their own for writes -/

/-- A write of MUNI_CTRL: one that changes MODE is ignored while any slot is not FREE (R359). -/
def Chip.writeMuniCtrl (c : Chip) (v : Word) : Chip :=
  let busy := (List.range 64).any fun s => (c.slot s).state != 0
  if busy && MUNI_CTRL.MODE.get v != c.fld MUNI_CTRL.MODE then c else c.writeMasked MUNI_CTRL v

/-- A write of PD_SRC_CFG: the allocator walks again. -/
def Chip.writePdSrc (c : Chip) (a : Nat) (v : Word) : Chip := (c.writeMasked a v).walk

/-- A write of PD_SNK_CFG: INPUT_PWR is judged again. -/
def Chip.writePdSnk (c : Chip) (a : Nat) (v : Word) : Chip := (c.writeMasked a v).refeed

/-- PD_ALT_CFG: CARAX of CS is one of the conditions of discovery (R297). -/
def Chip.writePdAlt (c : Chip) (a : Nat) (v : Word) : Chip := c.thenDiscover fun c => c.writeMasked a v

/-- A write of a word of the flow table. -/
def Chip.writeFlowWord (c : Chip) (a : Nat) (v : Word) : Chip :=
  let o := a % 0x1000 - 0x800
  let f := 64 * (pageOf a - 0x0B) + o / 0x20
  if o % 0x20 = 0 then c.writeFlowCfg f v
  else if o % 0x20 ≤ 0xC then c.writeStaged f a v
  else c

/-- A write of a window's word. -/
def Chip.writeWindow (c : Chip) (a : Nat) (v : Word) : Chip :=
  let o := a % 0x1000 - 0x040
  if 256 ≤ o then c
  else if o % 16 = 0 then c.writeWinCtrl (o / 16) v
  else if o % 16 = 12 then c
  else c.writeWinWord (o / 16) a v

/-- A write of a surface descriptor's word. -/
def Chip.writeDescriptor (c : Chip) (a : Nat) (v : Word) : Chip :=
  let o := a % 0x1000 - 0x800
  if o % 0x20 = 0 then c.writeSdCtrl (o / 0x20) v
  else if o % 0x20 ≤ 0xC then c.writeSdWord (o / 0x20) a v
  else c

/-- A write of a Marginalia word. -/
def Chip.writeMarginalia (c : Chip) (a : Nat) (v : Word) : Chip :=
  let o := a % 0x1000 - 0x040
  if 128 ≤ o then c
  else if o % 0x20 = 0x10 then c.writeMargCommit (o / 0x20) v
  else if o % 0x20 < 0x10 then c.writeMargWord (o / 0x20) a v
  else c

/-- A write of a head's register. -/
def Chip.writeHead (c : Chip) (h a : Nat) (v : Word) : Chip :=
  match a % 0x1000 with
  | 0x040 => c.writeHeadCtrl h v
  | 0x080 => c.writeHeadPlane h v
  | 0x084 => c.writeHeadCommit h v
  | _ => c.writeHeadTiming h a v

/-- A write to the key/crypto engine: KD_IN takes the word, and reads 0 (R361). -/
def Chip.writeKdrv (c : Chip) (a : Nat) (v : Word) : Chip :=
  if a = KD_CMD then c.writeKdCmd v
  else if KD_IN 0 ≤ a && a < KD_IN 32 then c.setReg a v
  else match entryOf (FLOW_KEY 0) 4 256 a with
    | some f => c.writeFlowKey f v
    | none => c.writeMasked a v

/-- A write to page LCYC. -/
def Chip.writeLcyc (c : Chip) (a : Nat) (v : Word) : Chip :=
  if a = LC_CTRL then c.writeLcCtrl v true
  else match entryOf (LC_SEED 0) 4 12 a with
    | some i => c.writeLcSeed i v
    | none => c.writeMasked a v

/-- A write to a lane's page. -/
def Chip.writeLane (c : Chip) (l a : Nat) (v : Word) : Chip :=
  match a % 0x1000 with
  | 0x040 => c.writeLaneCtrl l v
  | 0x044 => c.writeLaneEqCtrl l v
  | 0x048 => c.writeEyeCtrl l v
  | _ => c.writeMasked a v

/-- A write to an output's page. -/
def Chip.writeOutput (c : Chip) (o a : Nat) (v : Word) : Chip :=
  match a % 0x1000 with
  | 0x040 => c.writeDptxCtrl o v
  | 0x044 => c.writeDptxSlots o v
  | 0x048 => c.writeDptxAux o v
  | _ => c.writeMasked a v

/-- A write to a PD port's page. -/
def Chip.writePdPage (c : Chip) (p a : Nat) (v : Word) : Chip :=
  match a % 0x1000 with
  | 0x040 => c.writePdCtrl p v
  | 0x044 => c.writePdSrc a v
  | 0x048 => c.writePdSnk a v
  | 0x054 => c.writePdAlt a v
  | _ => c.writeMasked a v

/-- A write to page CASC. -/
def Chip.writeCasc (c : Chip) (a : Nat) (v : Word) : Chip :=
  if a = CASC_CTRL then c.writeCascCtrl v
  else if a = CASC_POSN then c.writeCascPosn v
  else if a = CASC_RLY_CTRL then c.writeRlyCtrl v
  else c.writeMasked a v

/-- A write to page SURF. -/
def Chip.writeSurf (c : Chip) (a : Nat) (v : Word) : Chip :=
  if a = SURF_CTRL then c.writeSurfCtrl v
  else match entryOf (RX_CTRL 0) 4 4 a with
    | some k => c.writeRxCtrl k v
    | none => c.writeMasked a v

/-- A write to page PORTS. -/
def Chip.writePorts (c : Chip) (a : Nat) (v : Word) : Chip :=
  match entryOf (PORT_CTRL 0) 4 6 a with
  | some n => c.writePortCtrl n v
  | none => c.writeMasked a v

/-- A write to page EVT. -/
def Chip.writeEvt (c : Chip) (a : Nat) (v : Word) : Chip :=
  if a = EVT_CTRL then c.writeEvtCtrl v
  else match entryOf (EVT_SRC 0) 4 256 a with
    | some n => c.writeReact n v
    | none => c.writeMasked a v

/-! ## Any register -/

/-- A write beyond the common header, on the pages that hold one of each register. -/
def Chip.writeSingle (c : Chip) (p : Path) (a : Nat) (v : Word) : Chip :=
  if a = RST_CTRL then c.writeRstCtrl p v
  else if a = FOLIO_CTRL then c.writeFolioCtrl v
  else if a = PS_WAIT then c.writePsWait v
  else if a = LEDG_REL then c.writeLedgRel v
  else if a = SAFE_CTRL then c.writeSafeCtrl v
  else if a = COPP_CTRL then c.writeCoppCtrl v
  else if a = ROUT_CTRL then c.writeRoutCtrl v
  else if a = CIRC_CTRL then c.writeCircCtrl v
  else if a = BRDG_CTRL then c.writeBrdgCtrl v
  else if a = BRDG_LOG_REL then c.writeLogRel v
  else if a = HUB_CTRL then c.writeHubCtrl v
  else if a = PCIE_CTRL then c.writePcieCtrl v
  else if a = PCIE_TUN then c.writePcieTun v
  else if a = ENET_CTRL then c.writeEnetCtrl v
  else if a = EPHY_CTRL then c.writeEphyCtrl v
  else if a = PP_CTRL then c.writePpCtrl v
  else if a = MUNI_CTRL then c.writeMuniCtrl v
  else if a = ATST_CTRL then c.writeAtstCtrl v true
  else if a = SCRB_CTRL then c.writeScrbCtrl v
  else c.writeMasked a v

/-- A write beyond the common header. -/
def Chip.writeBody (c : Chip) (p : Path) (a : Nat) (v : Word) : Chip :=
  let g := pageOf a
  let o := a % 0x1000
  if g = 0x04 then c.writeEvt a v
  else if 0x0B ≤ g && g ≤ 0x0E then if o < 0x800 then c else c.writeFlowWord a v
  else if 0x10 ≤ g && g ≤ 0x17 then c.writeLane (g - 0x10) a v
  else if g = 0x18 || g = 0x19 then
    if o = 0x040 then c.writeLinkCtrl (if g = 0x18 then .ul else .cs) v else c.writeMasked a v
  else if g = 0x1B then c.writeWindow a v
  else if g = 0x1C then c.writeCasc a v
  else if g = 0x1D then c.writeSurf a v
  else if g = 0x1E then if o < 0x800 then c else c.writeDescriptor a v
  else if g = 0x1F then c.writeMarginalia a v
  else if 0x20 ≤ g && g ≤ 0x23 then c.writeHead (g - 0x20) a v
  else if 0x24 ≤ g && g ≤ 0x27 then c.writeOutput (g - 0x24) a v
  else if g = 0x29 then c.writePorts a v
  else if 0x30 ≤ g && g ≤ 0x32 then c.writePdPage (g - 0x30) a v
  else if g = 0x36 then c.writeKdrv a v
  else if g = 0x38 then c.writeLcyc a v
  else c.writeSingle p a v

/-- One 32-bit register write by a path. Absent pages ignore it (R4). -/
def Chip.performWrite (c : Chip) (p : Path) (a : Nat) (v : Word) : Chip :=
  let g := pageOf a
  if !pagePresent c.part g then c
  else match a % 0x1000 with
    | 0x004 => c.writePageCtrl g v
    | 0x01C => c.writeEvForce g v
    | o => if o < 0x040 then c.writeMasked a v else c.writeBody p a v

/-- R28. -/
def execRegisterWrite (p : Path) (a : BitVec 18) (v : Word) (s : State) : Host.Outcome State Fault Refusal :=
  s.run fun c => if c.pathOpen p && a.toNat % 4 = 0 then c.performWrite p a.toNat v else c

end Sys2Proof.Machine
end

