-- ==== Sys2Proof/Machine/Agent.lean ====
section
/-! DEFINITION. The management/register agent: the management address space, what an access is refused with, and the accesses it
performs (R26–R28, R173, R339). -/

namespace Sys2Proof.Machine

/-- What a management address names: a local register, a register of the peer at a position, the local Stacks, or the Stacks of the
peer at a position; the offset in the range. -/
inductive Target where
  | reg (a : Nat)
  | peerReg (pos a : Nat)
  | stkAt (a : Nat)
  | peerStacks (pos a : Nat)
  deriving DecidableEq, Repr

/-- The address space of R26. -/
def decodeTarget (t : Nat) : Option Target :=
  let slot := t / 0x100000
  let gib := t / 2 ^ 32
  if t < 0x40000 then some (.reg t)
  else if 0x11 ≤ slot && slot ≤ 0x13 && t % 0x100000 < 0x40000 then some (.peerReg (slot - 0x10) (t % 0x100000))
  else if gib = 1 then some (.stkAt (t % 2 ^ 32))
  else if 3 ≤ gib && gib ≤ 5 then some (.peerStacks (gib - 2) (t % 2 ^ 32))
  else none

/-- The target of bytes that all lie in one range. -/
def decodeSpan (t n : Nat) : Option Target :=
  match decodeTarget t, decodeTarget (t + n - 1) with
  | some (.reg a), some (.reg _) => some (.reg a)
  | some (.stkAt a), some (.stkAt _) => some (.stkAt a)
  | some (.peerReg p a), some (.peerReg q _) => if p = q then some (.peerReg p a) else none
  | some (.peerStacks p a), some (.peerStacks q _) => if p = q then some (.peerStacks p a) else none
  | _, _ => none

/-- A register range, local or of a peer. -/
def isRegister (t : Nat) : Bool := match decodeTarget t with
  | some (.reg _) | some (.peerReg ..) => true
  | _ => false

/-- A bit field of CASC_RFLOW (R351). -/
def rflowOf : Nat → Fld
  | 1 => CASC_RFLOW.RFLOW1
  | 2 => CASC_RFLOW.RFLOW2
  | _ => CASC_RFLOW.RFLOW3

/-- The status with which a management path is refused the peer at a position, 0 for none (R27, R173, R339): flow 1 of the CS link
serves position 1 only. -/
def Chip.peerStatus (c : Chip) (pos : Nat) : Nat :=
  let f := c.fld (rflowOf pos)
  if !c.decodesPeers then 1
  else if !(if f = 1 then pos == 1 else c.usablePflow f pos) then 6
  else if !c.present pos then 7
  else 0

/-- The request that carries a management path's register accesses to a peer. -/
def Chip.peerReq (c : Chip) (x : Asker) (write : Bool) (pos a here n : Nat) (data : List Byte) : FwdReq :=
  let f := c.fld (rflowOf pos)
  let k : Lnk := if f = 1 || c.on (FLOW_CFG.SIDE f) then .cs else .ul
  { asker := x, win := none, write := write, lnk := k, pflow := f, pos := pos, width := 2, count := n, addr := a, here := here
    data := data, tag := none }

/-- What a management path's aligned 32-bit accesses are refused with, 0 for none; a peer's Stacks are reached by windows only. -/
def Chip.pathStatus (c : Chip) (t n : Nat) : Nat :=
  match decodeSpan t n with
  | some (.reg _) | some (.stkAt _) => 0
  | some (.peerReg p _) => c.peerStatus p
  | _ => 1

/-! ## What the agent performs -/

/-- Words written to consecutive registers, in address order. -/
def Chip.writeWords (c : Chip) (p : Path) (a : Nat) : List (List Byte) → Chip
  | [] => c
  | w :: ws => (c.performWrite p a (BitVec.ofNat 32 (ofBytes w))).writeWords p (a + 4) ws

/-- Words read from consecutive registers, in address order. -/
def Chip.readWords (c : Chip) (p : Path) (a : Nat) : Nat → List Byte × Chip
  | 0 => ([], c)
  | n + 1 =>
    let r := c.readReg p a
    let rest := r.2.readWords p (a + 4) n
    (toBytes 4 r.1.toNat ++ rest.1, rest.2)

/-- Bytes read from the Stacks, with the first burst that was uncorrectable; such bursts are counted (R430). -/
def Chip.readStacks (c : Chip) (a n : Nat) : List Byte × Option Nat × Chip :=
  let bad := (burstsOf a n).filter fun b => c.burstBad (64 * b)
  let d := c.stkRead a n
  (d, bad.head?, if bad.isEmpty then c else c.count STAK_ECC.UNCOR bad.length)

end Sys2Proof.Machine
end

