-- ==== Sys2Proof/Machine/Service.lean ====
section
/-! DEFINITION. The hub's service function and the service port (R46, R255–R257, R400, R427–R429), and the trip of the V3P3 rail sensor
(R380). -/

namespace Sys2Proof.Machine

/-! ## The service function (R255–R257) -/

/-- A new SETUP is accepted: a write that waits for its status stage is discarded, and a peer's answer no longer awaited. -/
def Chip.svcfSetup (c : Chip) (f : Chip → Chip) : Chip :=
  if !c.svcfOpen then c
  else if c.noRouter then c.notReady .control
  else f c.discardSvcf

/-- The status of a register or Stacks request, 0 for none. -/
def Chip.svcfStatus (c : Chip) (stk : Bool) (a len : Nat) : Nat :=
  if len = 0 || len % 4 != 0 || (if stk then 4096 else 256) < len then 5
  else if a % 4 != 0 then 2
  else if stk then if 2 ^ 32 < a + len then 1 else 0
  else c.pathStatus a len

/-- A request that waits for a peer's answer is the last request already: it has not failed so far (log entry 89). -/
def Chip.svcfAwait (c : Chip) (req : Nat) : Chip :=
  let c := { c with svcf := { c.svcf with busy := true, lastAddr := 0 } }
  (c.setFld SVCF_STATUS.LAST_REQ req).setFld SVCF_STATUS.RESULT 0

/-- REG_READ is performed once, at its SETUP; a peer's registers are read by one request to it. -/
def Chip.svcfRegRead (c : Chip) (a len : Nat) : Chip :=
  let st := c.svcfStatus false a len
  if st != 0 then c.svcfEnd 1 a st []
  else match decodeTarget a with
    | some (.peerReg p o) =>
      (c.addReq (c.peerReq .svcf false p o a (len / 4) [])).svcfAwait 1
    | _ =>
      let r := c.readWords .svcf a (len / 4)
      r.2.svcfEnd 1 a 0 r.1

/-- R255. -/
def execSvcfRegRead (addr : Word) (len : BitVec 16) (s : State) : Host.Outcome State Fault Refusal :=
  s.run fun c => c.svcfSetup fun c => c.svcfRegRead addr.toNat len.toNat

/-- STK_READ: a burst that is uncorrectable shows in LAST_STATUS, with its address. -/
def Chip.svcfStkRead (c : Chip) (a len : Nat) : Chip :=
  let st := c.svcfStatus true a len
  if st != 0 then c.svcfEnd 3 a st []
  else
    let r := c.readStacks a len
    match r.2.1 with
    | some b => r.2.2.svcfEnd 3 (64 * b) 9 r.1
    | none => r.2.2.svcfEnd 3 a 0 r.1

/-- R255. -/
def execSvcfStkRead (addr : Word) (len : BitVec 16) (s : State) : Host.Outcome State Fault Refusal :=
  s.run fun c => c.svcfSetup fun c => c.svcfStkRead addr.toNat len.toNat

/-- A write request: refused, or its data held for the status stage. -/
def Chip.svcfHold (c : Chip) (req a : Nat) (data : List Byte) : Chip :=
  let st := c.svcfStatus (req == 4) a data.length
  if st != 0 then c.svcfEnd req a st []
  else { c with svcf := { c.svcf with write := some { req := req, addr := a, data := data } } }

/-- R257. -/
def execSvcfRegWrite (addr : Word) (data : List Byte) (s : State) : Host.Outcome State Fault Refusal :=
  s.run fun c => c.svcfSetup fun c => c.svcfHold 2 addr.toNat data

/-- R257. -/
def execSvcfStkWrite (addr : Word) (data : List Byte) (s : State) : Host.Outcome State Fault Refusal :=
  s.run fun c => c.svcfSetup fun c => c.svcfHold 4 addr.toNat data

/-- The held write is performed, in address order. A peer's registers are written by one request to it, which may be refused now. -/
def Chip.svcfPerform (c : Chip) (w : SvcfWrite) : Chip :=
  let c := { c with svcf := { c.svcf with write := none } }
  if w.req = 4 then (c.stkWrite w.addr w.data).svcfEnd 4 w.addr 0 []
  else match decodeTarget w.addr with
    | some (.peerReg p o) =>
      let st := c.peerStatus p
      if st != 0 then c.svcfEnd 2 w.addr st []
      else (c.addReq (c.peerReq .svcf true p o w.addr (w.data.length / 4) w.data)).svcfAwait 2
    | _ => (c.writeWords .svcf w.addr (chunks 4 w.data)).svcfEnd 2 w.addr 0 []

/-- The first IN token of the status stage; NAK while no router is active, and while a peer has not answered. -/
def Chip.svcfStatusStage (c : Chip) : Chip :=
  if !c.svcfOpen then c
  else if c.noRouter || c.svcf.busy then c.notReady .control
  else match c.svcf.write with
    | some w => c.svcfPerform w
    | none => c

/-- R257. -/
def execStatusStage (s : State) : Host.Outcome State Fault Refusal := s.run fun c => c.svcfStatusStage

/-- The eight bytes of LAST_STATUS. -/
def Chip.lastStatusBytes (c : Chip) : List Byte :=
  [BitVec.ofNat 8 (c.fld SVCF_STATUS.LAST_REQ), BitVec.ofNat 8 (c.fld SVCF_STATUS.RESULT), 0, 0] ++ toBytes 4 c.svcf.lastAddr

/-- LAST_STATUS, which is no register or Stacks request and so leaves what it shows (R255). -/
def Chip.lastStatus (c : Chip) (addr len : Nat) : Chip :=
  if addr = 0 && len = 8 then c.emit (.svcf c.lastStatusBytes)
  else (((c.count SVCF_STATUS.REFUSED).count LMGT_CNT.SVCF).raise 164 svcfPort).emit .stall

/-- R255. -/
def execLastStatus (addr : Word) (len : BitVec 16) (s : State) : Host.Outcome State Fault Refusal :=
  s.run fun c => c.svcfSetup fun c => c.lastStatus addr.toNat len.toNat

/-- The host has given the function an address and selects a configuration, none or the one that has the interrupt endpoint, with an
interface setting (log entry 89). Its SETUP discards a write that waits for its status stage (R257). -/
def Chip.setConfiguration (c : Chip) (on : Bool) (address setting : Nat) : Chip :=
  if !c.svcfOpen then c
  else
    let c := c.discardSvcf.setFld SVCF_STATUS.CONFIGURED on.toNat
    { c with svcf := { c.svcf with address := address, setting := setting } }

/-- R400. -/
def execSetConfiguration (x : SvcfSetting) (s : State) : Host.Outcome State Fault Refusal :=
  s.run fun c => c.setConfiguration x.on x.address.toNat x.setting.toNat

/-! ## The service port (R427–R429) -/

/-- The port answers: its supply is present and the core runs (R46). -/
def Chip.svcpOpen (c : Chip) : Bool := c.regsOpen && c.boot.svcVref

/-- The transaction ends; a word begun and not complete is discarded and counted. A word that a peer is performing is performed. -/
def Chip.svcpEnd (c : Chip) : Chip :=
  let c := if c.svcp.part.isEmpty then c else c.count SVCP_STATUS.ABORTED
  (c.unasked .svcp).modSvcp fun x => { x with opened := false, part := [], refused := false, waiting := false, todo := [], due := 0 }

/-- A command of the port: nothing happens while it has no supply or stretches SCL. -/
def Chip.svcpDo (c : Chip) (f : Chip → Chip) : Chip := if c.svcpOpen && !c.svcp.waiting then f c else c

/-- A command that begins with START and the port's address: the SVC wake source fires, which R327 latches in S0 too when it is enabled
and which does not arise in S1 (R325). In S2 and S3, and once an entry has stopped the core, it is not acknowledged. -/
def Chip.svcpBegin (c : Chip) (f : Chip → Chip) : Chip :=
  if !c.boot.svcVref || c.svcp.waiting then c
  else
    let c := c.latchWake 9
    if 2 ≤ c.sstate || c.resting 4 then c.emit .nack else c.svcpDo f

/-- The status of one word, 0 for none. -/
def Chip.svcpStatus (c : Chip) (stk : Bool) (a : Nat) : Nat :=
  if a % 4 != 0 then 2
  else match decodeTarget a with
    | some (.stkAt _) => if stk then 0 else 1
    | some (.reg _) | some (.peerReg ..) => if stk then 1 else c.pathStatus a 4
    | _ => 1

/-- The words of a write, each performed when its fourth byte arrives; a refused word is refused at its first byte, and every later
byte with it. The words after one for a peer wait for its answer, those after a FLOW_CFG word whose commit waits for a router for the
restart (R162). -/
def Chip.svcpWords (c : Chip) : List (List Byte) → Chip
  | [] => c
  | w :: ws =>
    let a := c.svcp.addr
    let st := c.svcpStatus c.svcp.stk a
    if st != 0 then c.svcpReject st
    else if w.length < 4 then c.modSvcp fun x => { x with part := w }
    else match decodeTarget a with
      | some (.peerReg p o) =>
        let rest := ws.flatten
        let whole := rest.length / 4 * 4
        (c.addReq (c.peerReq .svcp true p o a 1 w)).modSvcp fun x => { x with
          waiting := true
          todo := rest.take whole
          part := rest.drop whole }
      | some (.stkAt o) => ((c.stkWrite o w).modSvcp fun x => { x with addr := a + 4 }).svcpWords ws
      | _ =>
        let d := (c.performWrite .svcp a (BitVec.ofNat 32 (ofBytes w))).modSvcp fun x => { x with addr := a + 4 }
        if d.deferred.length = c.deferred.length then d.svcpWords ws
        else
          let rest := ws.flatten
          let whole := rest.length / 4 * 4
          d.modSvcp fun x => { x with waiting := true, todo := rest.take whole, part := rest.drop whole }

/-- A FLOW_CFG word whose commit waited for a router has been performed: its last byte is acknowledged and the words after it go on
(R162). -/
def Chip.svcpResume (c : Chip) : Chip :=
  if !c.svcp.waiting || c.fwd.reqs.any fun r => r.asker == .svcp then c
  else (c.modSvcp fun x => { x with waiting := false, todo := [], part := [] }).svcpWords (chunks 4 (c.svcp.todo ++ c.svcp.part))

/-- START, 0x74, a CMD and an address: an earlier transaction has ended, and a read setup is gone unless this is one. -/
def Chip.svcpStart (c : Chip) (cmd : Nat) (f : Svcp → Svcp) : Chip :=
  (c.svcpEnd.setFld SVCP_STATUS.LAST_CMD cmd).modSvcp f

def Chip.svcpWrite (c : Chip) (cmd : Nat) (stk : Bool) (a : Nat) (bytes : List Byte) : Chip :=
  let c := c.svcpStart cmd fun x => { x with opened := true, stk := stk, addr := a, read := none }
  c.svcpWords (chunks 4 bytes)

/-- R428. -/
def execSvcpRegWrite (addr : BitVec 40) (bytes : List Byte) (s : State) : Host.Outcome State Fault Refusal :=
  s.run fun c => c.svcpBegin fun c => c.svcpWrite 0x10 false addr.toNat bytes

/-- R428. -/
def execSvcpStkWrite (addr : BitVec 40) (bytes : List Byte) (s : State) : Host.Outcome State Fault Refusal :=
  s.run fun c => c.svcpBegin fun c => c.svcpWrite 0x20 true addr.toNat bytes

/-- Bytes that no command expects are not acknowledged (R427). -/
def Chip.nackAll (c : Chip) (n : Nat) : Chip := (List.range n).foldl (fun c _ => c.emit .nack) c

/-- The CMD bytes R427 lists. -/
def svcpCmds : List Byte := [0x10, 0x11, 0x20, 0x21]

/-- A setup. A CMD byte that R427 does not list comes in place of the row's: neither it nor a byte after it is acknowledged, and no read
address is held (log entry 89). -/
def Chip.svcpSetup (c : Chip) (cmd : Nat) (stk : Bool) (x : SvcpSetup) : Chip :=
  match x.other.filter fun b => !svcpCmds.contains b with
  | some b => (c.svcpStart b.toNat fun y => { y with read := none }).nackAll (1 + x.after.length)
  | none => (c.svcpStart cmd fun y => { y with read := some (stk, x.addr.toNat) }).nackAll x.after.length

/-- R427. -/
def execSvcpRegRead (x : SvcpSetup) (s : State) : Host.Outcome State Fault Refusal :=
  s.run fun c => c.svcpBegin fun c => c.svcpSetup 0x11 false x

/-- R427. -/
def execSvcpStkRead (x : SvcpSetup) (s : State) : Host.Outcome State Fault Refusal :=
  s.run fun c => c.svcpBegin fun c => c.svcpSetup 0x21 true x

/-- Words of a read, each read when its first byte is due. The words after one from a peer wait for its answer. -/
def Chip.svcpReads (c : Chip) (stk : Bool) (a : Nat) : Nat → Chip
  | 0 => c
  | n + 1 =>
    let st := c.svcpStatus stk a
    let next (c : Chip) : Chip := c.modSvcp fun x => { x with read := some (stk, a + 4) }
    if st != 0 then (c.svcpOnes st).svcpReads stk (a + 4) n
    else match decodeTarget a with
      | some (.peerReg p o) =>
        (c.addReq (c.peerReq .svcp false p o a 1 [])).modSvcp fun x => { x with waiting := true, due := n + 1 }
      | some (.stkAt o) =>
        let r := c.readStacks o 4
        ((next r.2.2).emit (.svcp r.1)).svcpReads stk (a + 4) n
      | _ =>
        let r := c.readReg .svcp a
        ((next r.2).emit (.svcp (toBytes 4 r.1.toNat))).svcpReads stk (a + 4) n

/-- A read of `n` words from the address set up; without a setup the master reads ones (R427). -/
def Chip.svcpRead (c : Chip) (n : Nat) : Chip :=
  let c := c.svcpEnd
  match c.svcp.read with
  | some (stk, a) => c.svcpReads stk a n
  | none => (c.setFld SVCP_STATUS.RESULT 5).emit (.svcp (List.replicate (4 * n) 0xFF#8))

/-- R428. A transaction of which the master takes the bytes of `n + 1` words, the last in part or whole. -/
def execSvcpRead (n : Fin 256) (s : State) : Host.Outcome State Fault Refusal :=
  s.run fun c => c.svcpBegin fun c => c.svcpRead (n + 1)

/-- R428. -/
def execStop (s : State) : Host.Outcome State Fault Refusal := s.run fun c => c.svcpDo fun c => c.svcpEnd

/-- R428. A master that holds SCL low ends the transaction as a STOP does. -/
def execSclTimeout (s : State) : Host.Outcome State Fault Refusal := s.run fun c => c.svcpDo fun c => c.svcpEnd

/-- SVC_VREF falls below 1.6 V: the port no longer responds, and its transaction has ended. -/
def Chip.svcVrefLoss (c : Chip) : Chip :=
  let c := c.svcpEnd
  { c with boot := { c.boot with svcVref := false } }

/-- R46. -/
def execSvcVrefLoss (s : State) : Host.Outcome State Fault Refusal := s.run fun c => c.svcVrefLoss

/-- R46. -/
def execSvcVrefReturn (s : State) : Host.Outcome State Fault Refusal :=
  s.run fun c => { c with boot := { c.boot with svcVref := true } }

/-! ## The V3P3 rail sensor (R380) -/

/-- A switch of the 3.3 V group opens: a socket for 0 and 1, a DP output for 2–5. -/
def Chip.railGroupOpen (c : Chip) (i : Nat) : Chip := if i < 2 then c.socketTrip i else c.dpOvercurrent (i - 2)

/-- R380. -/
def execV3p3RailTrip (s : State) : Host.Outcome State Fault Refusal :=
  s.run fun c => ((List.range 6).filter fun i => c.copp.ganged.contains (1, i)).foldl Chip.railGroupOpen c

end Sys2Proof.Machine
end

