-- ==== Sys2Proof/Machine/Requests.lean ====
section
/-! DEFINITION. Requests that arrive over a link: at the bridge's target side and, on flow 1, at the management agent (R167–R184,
R339). -/

namespace Sys2Proof.Machine

/-! ## The header (R170) -/

/-- A READ or WRITE as it arrives: the link, the flow, the class of its cells, and its bytes. -/
structure Arrived where
  k : Lnk
  f : Nat
  typ : Nat
  bytes : List Byte
  deriving DecidableEq, Repr

def Arrived.byte (q : Arrived) (i : Nat) : Nat := (q.bytes.getD i 0).toNat
def Arrived.num (q : Arrived) (i n : Nat) : Nat := ofBytes ((q.bytes.drop i).take n)
def Arrived.op (q : Arrived) : Nat := q.byte 0
def Arrived.write (q : Arrived) : Bool := q.op == 2
def Arrived.width (q : Arrived) : Nat := q.byte 1 / 64
def Arrived.abs (q : Arrived) : Bool := (q.byte 1).testBit 5
def Arrived.count (q : Arrived) : Nat := q.num 4 2
def Arrived.offset (q : Arrived) : Nat := q.num 8 8 % 2 ^ 40
def Arrived.span (q : Arrived) : Nat := q.count * 2 ^ q.width
def Arrived.data (q : Arrived) : List Byte := q.bytes.drop 16
def Arrived.hdr (q : Arrived) : List Byte := fitBytes 16 q.bytes

/-- The window a request names: none with ABS 1, and none on flow 1. -/
def Arrived.win (q : Arrived) : Option Nat := if q.abs || q.f = 1 then none else some (q.byte 1 % 16)

/-- The path of a local register access (R425). -/
def Arrived.path (q : Arrived) : Path := if q.f = 1 then (match q.k with | .ul => .flow1Ul | .cs => .flow1Cs) else .bridge

/-! ## Checks (R168, R171–R173) -/

/-- The header, and the number of cells that the data takes (R170, R172). -/
def Arrived.shapeOk (q : Arrived) : Bool :=
  (q.op == 1 || q.op == 2) && !(q.byte 1).testBit 4 && decide (q.num 2 2 < 4096) && decide (1 ≤ q.count) &&
    decide (q.span ≤ 4096) && q.byte 6 == 0 && q.byte 7 == 0 && decide (q.num 8 8 < 2 ^ 40) && decide (16 ≤ q.bytes.length) &&
    (q.bytes.length + 119) / 120 == (if q.write then cellsFor (dwords q.offset q.span) else 1)

/-- TYPE and ABS agree with the message; flow 1 is served from the T-link only (R171, R339). -/
def Chip.typeOk (c : Chip) (q : Arrived) : Bool :=
  if q.f = 1 then q.typ == clsMgmt && q.abs && c.aLink != some q.k
  else if q.abs then c.cascadeLink q.k && (q.typ == clsNp || (q.write && q.typ == clsP))
  else
    let bulk := c.on (WIN_CTRL.CLASS (q.byte 1 % 16))
    q.typ == (if q.write && bulk then clsP else clsNp)

/-- The target address (R168). -/
def Chip.targetOf (c : Chip) (q : Arrived) : Nat := match q.win with
  | some w => c.winBase w + q.offset
  | none => q.offset

/-- A window whose target is the Stacks of a position. -/
def Chip.remoteWin (c : Chip) (q : Arrived) : Bool := q.win.any fun w => c.on (WIN_ROUTE.REMOTE w)

/-- What is done with a request that is not refused. -/
inductive Plan where
  | refuse (status : Nat)
  | reg (a : Nat)
  | stkAt (a : Nat)
  | forward (k : Lnk) (f pos a : Nat)
  deriving DecidableEq, Repr

/-- A position known to hold an AP2080, the last device of a chain (R349): the next one by this device's own partner, the one after it
by AP_LAST in the last poll of that partner, and the third by what the poll told beside it (DESIGN CHOICE, log entry 79). A device
without a position knows none (R168). -/
def Chip.apAt (c : Chip) (pos : Nat) : Bool :=
  c.position.any fun own => (c.apLast && pos == own + 1) || (c.fwd.apNext && pos == own + 2) || (c.fwd.apThird && pos == own + 3)

/-- The target position of a request (R188): that of a REMOTE window, else the one that the address names, this device's own for a
local address and 0 for an address that nothing decodes (DEDUCED, log entry 79). -/
def Chip.targetPos (c : Chip) (q : Arrived) : Nat :=
  let named := match decodeTarget (c.targetOf q) with
    | some (.peerReg p _) | some (.peerStacks p _) => p
    | some _ => c.position.getD 0
    | none => 0
  match q.win with
  | some w => if c.on (WIN_ROUTE.REMOTE w) then c.fld (WIN_ROUTE.POS w) else named
  | none => named

/-- Checks 7 and 8 for a window's request to a position. -/
def Chip.planForward (c : Chip) (w pos a : Nat) : Plan :=
  let f := c.fld (WIN_ROUTE.PFLOW w)
  if !c.usablePflow f pos then .refuse 6
  else if !c.present pos then .refuse 7
  else .forward (if c.on (FLOW_CFG.SIDE f) then .cs else .ul) f pos a

/-- Check 6 and what follows it, for a window's request (R168). -/
def Chip.planWindow (c : Chip) (w t n : Nat) : Plan :=
  if c.on (WIN_ROUTE.REMOTE w) then
    let pos := c.fld (WIN_ROUTE.POS w)
    match decodeSpan t n with
    | some (.stkAt _) => if c.position == some pos || c.apAt pos then .refuse 1 else c.planForward w pos t
    | _ => .refuse 1
  else match decodeSpan t n with
    | some (.reg a) => .reg a
    | some (.stkAt a) => .stkAt a
    | some (.peerReg pos a) => if c.decodesPeers then c.planForward w pos a else .refuse 1
    | some (.peerStacks pos a) => if c.decodesPeers && !c.apAt pos then c.planForward w pos (2 ^ 32 + a) else .refuse 1
    | none => .refuse 1

/-- Check 6 and what follows it, for an ABS request: local only at the bridge; on flow 1 a path of the agent (R171, R339). -/
def Chip.planAbs (c : Chip) (flow1 : Bool) (t n : Nat) : Plan :=
  match decodeSpan t n with
  | some (.reg a) => .reg a
  | some (.stkAt a) => .stkAt a
  | some (.peerReg pos a) =>
    if !flow1 then .refuse 1
    else
      let st := c.peerStatus pos
      let r := c.peerReq .gone false pos a t 1 []
      if st != 0 then .refuse st else .forward r.lnk r.pflow pos a
  | _ => .refuse 1

/-- The checks of R173 in their order. -/
def Chip.planOf (c : Chip) (q : Arrived) : Plan :=
  let t := c.targetOf q
  if !(q.shapeOk && c.typeOk q) then .refuse 5
  else if q.win.any fun w => !c.on (WIN_CTRL.EN w) then .refuse 4
  else if q.offset % 2 ^ q.width != 0 || (!c.remoteWin q && isRegister t && q.width != 2) then .refuse 2
  else match q.win with
    | some w =>
      if c.winSize w ≤ q.offset then .refuse 1
      else if c.winSize w < q.offset + q.span then .refuse 3
      else c.planWindow w t q.span
    | none => c.planAbs (q.f == 1) t q.span

/-! ## Refusal (R178, R187, R430) -/

/-- A refused register access is counted by the agent once its target is known, every refused one on flow 1. -/
def Chip.countRefused (c : Chip) (q : Arrived) (status : Nat) : Chip :=
  if q.f = 1 then c.count LMGT_CNT.FLOW1
  else if status != 4 && status != 5 && !c.remoteWin q && isRegister (c.targetOf q) then c.count LMGT_CNT.WINDOW
  else c

/-- A refusal is answered or logged by the TYPE of the request's cells; one in cells of a TYPE that R178 does not name is neither (DESIGN
CHOICE, log entry 98). -/
def Chip.refuseRequest (c : Chip) (q : Arrived) (status : Nat) : Chip :=
  let c := c.countRefused q status
  let c := if status = 5 && q.f != 1 then c.raise 100 (bridgeDetail (q.win.getD 0) 5 q.f) else c
  if q.typ = clsMgmt || q.typ = clsNp then c.answer q.k q.f q.win q.hdr status []
  else
    let c := c.countWinError q.win status
    if q.typ = clsP then c.logFailure q.win status q.f (c.targetOf q) (c.targetPos q) else c

/-! ## Prefetch (R180–R182) -/

/-- Where a plan's bytes lie, with a peer's addresses told apart from this device's. -/
def planKey (t : Nat) : Plan → Nat
  | .forward _ _ pos a => (pos + 1) * 2 ^ 40 + a
  | _ => t

/-- Registers from an offset on, up to the first marked word. -/
def upToMarked (a n : Nat) : Nat := 4 * ((List.range (n / 4)).takeWhile fun i => !readSensitive (a + 4 * i)).length

/-- Bytes read ahead of a READ that ends at target address `e` (exclusive); `regA` is the register that follows it. -/
def Chip.aheadSpan (c : Chip) (w e regA : Nat) (regs : Bool) : Nat :=
  let depth := 256 * 2 ^ min (c.fld (WIN_CTRL.PF_DEPTH w)) 4
  let stop := min (c.winBase w + c.winSize w) (((e - 1) / 4096 + 1) * 4096)
  let n := min depth (stop - e)
  if regs then upToMarked regA n else n

/-- The read-ahead of a READ served from its target replaces what the window's buffer held. -/
def Chip.prefetchAfter (c : Chip) (q : Arrived) (w t : Nat) (p : Plan) : Chip :=
  if !c.on (WIN_CTRL.PREFETCH w) then c
  else
    let e := t + q.span
    let key := planKey t p + q.span
    let c := (c.voidAhead fun i _ => i == w).fillPrefetch w q.k key [] []
    match p with
    | .reg a =>
      let n := c.aheadSpan w e (a + q.span) true
      let r := c.readWords .bridge (a + q.span) (n / 4)
      r.2.fillPrefetch w q.k key r.1 []
    | .stkAt a =>
      let n := c.aheadSpan w e 0 false
      let bad := (burstsOf (a + q.span) n).filter fun b => c.burstBad (64 * b)
      let r := c.readStacks (a + q.span) n
      r.2.2.fillPrefetch w q.k key r.1 (bad.map (2 ^ 26 + ·))
    | .forward k f pos a =>
      let regs := isRegister t
      let n := c.aheadSpan w e (a + q.span) regs
      if n = 0 || (regs && c.apAt pos) then c
      else c.addReq {
        asker := .readAhead w q.k, win := some w, write := false, lnk := k, pflow := f, pos := pos
        width := if regs then 2 else 0, count := if regs then n / 4 else n, addr := a + q.span, here := key, data := [], tag := none }
    | .refuse .. => c

/-- The buffer of a window that holds a READ whole. -/
def Chip.prefetchFor (c : Chip) (w key n : Nat) : Option PrefetchBuf :=
  if !c.on (WIN_CTRL.PREFETCH w) then none
  else (c.prefetch.find? fun b => b.1 == w && decide (b.2.addr ≤ key) && decide (key + n ≤ b.2.addr + b.2.data.length)).map (·.2)

/-- A READ answered from the buffer. -/
def Chip.readBuffer (c : Chip) (q : Arrived) (w t key order : Nat) (b : PrefetchBuf) : Chip :=
  let words := (List.range (dwords key q.span)).map (key / 8 + ·)
  let mark (x : PrefetchBuf) : PrefetchBuf := { x with used := (x.used ++ words).eraseDups }
  let c := { c with prefetch := c.prefetch.map fun (x : Nat × PrefetchBuf) => if x.1 = w then (x.1, mark x.2) else x }
  let st := if (burstsOf key q.span).any b.bad.contains then 9 else 0
  (c.count PF_HIT.COUNT).answer q.k q.f q.win q.hdr st (layOut order q.width t ((b.data.drop (key - b.addr)).take q.span))

/-! ## Performance (R172, R174–R177, R183) -/

/-- The byte order of a request: its window's, NATIVE with ABS. -/
def Chip.orderOf (c : Chip) (q : Arrived) : Nat := match q.win with
  | some w => c.fld (WIN_CTRL.ORDER w)
  | none => 0

/-- The request that carries a non-posted one on. -/
def Chip.carried (c : Chip) (q : Arrived) (t : Nat) (k : Lnk) (f pos a : Nat) (data : List Byte) : FwdReq :=
  { asker := .sender q.k q.f q.typ q.hdr (c.orderOf q), win := q.win, write := q.write, lnk := k, pflow := f, pos := pos
    width := q.width, count := q.count, addr := a, here := t, data := data, tag := none }

/-- A READ goes to its target. -/
def Chip.readTarget (c : Chip) (q : Arrived) (t : Nat) (p : Plan) : Chip :=
  let order := c.orderOf q
  match p with
  | .reg a =>
    let r := c.readWords q.path a q.count
    r.2.answer q.k q.f q.win q.hdr 0 (layOut order q.width t r.1)
  | .stkAt a =>
    let r := c.readStacks a q.span
    r.2.2.answer q.k q.f q.win q.hdr (if r.2.1.isSome then 9 else 0) (layOut order q.width t r.1)
  | .forward k f pos a => c.addReq (c.carried q t k f pos a [])
  | .refuse status => c.refuseRequest q status

/-- A READ: refused, answered from its window's buffer, or served from its target with the read-ahead. -/
def Chip.readRequest (c : Chip) (q : Arrived) (t : Nat) (p : Plan) : Chip :=
  match p, q.win with
  | .refuse status, _ => c.refuseRequest q status
  | p, some w =>
    let key := planKey t p
    match c.prefetchFor w key q.span with
    | some b => c.readBuffer q w t key (c.orderOf q) b
    | none => (c.readTarget q t p).prefetchAfter q w t p
  | p, none => c.readTarget q t p

/-- A local write is complete: answered unless it is posted. -/
def Chip.wrote (c : Chip) (q : Arrived) : Chip := if q.typ = clsP then c else c.answer q.k q.f q.win q.hdr 0 []

/-- A WRITE: refused, performed element by element, or forwarded; one that passes the bridge discards the buffers it overlaps. -/
def Chip.writeRequest (c : Chip) (q : Arrived) (t : Nat) (p : Plan) : Chip :=
  let data := takeOut (c.orderOf q) q.width t q.span q.data
  let past (c : Chip) : Chip := if q.f = 1 then c else c.discardOver (planKey t p) q.span
  match p with
  | .refuse status => c.refuseRequest q status
  | .reg a => ((past c).writeWords q.path a (chunks 4 data)).wrote q
  | .stkAt a => ((past c).stkWrite a data).wrote q
  | .forward k f pos a =>
    let r := c.carried q t k f pos a data
    if q.typ = clsP then (past c).queueMsg k f clsP r.bytes else (past c).addReq r

/-- A request that has a router to come through: the agent serves flow 1, the bridge every other flow while its pages are enabled,
neither in safe state (R405). -/
def Chip.serve (c : Chip) (q : Arrived) : Chip :=
  if !c.regsOpen || c.safe || (q.f != 1 && !(c.pageOn 0x1A && c.pageOn 0x1B && c.flowExists q.f && c.fld (FLOW_CFG.ENDPOINT q.f) == 4)) then c
  else
    let c := match q.win with
      | some w => c.count (WIN_CNT.ACCESSES w)
      | none => c
    let p := c.planOf q
    let t := c.targetOf q
    if q.op = 1 then c.readRequest q t p else c.writeRequest q t p

/-- A request enters. While no router is active it waits with its cells in their buffers (R131, R238). -/
def Chip.request (c : Chip) (q : Arrived) : Chip :=
  if c.noRouter then { c with router := { c.router with held := c.router.held ++ [(q.k, q.f, q.typ, q.bytes)] } } else c.serve q

/-- The requests that waited are served in their order. -/
def Chip.serveHeld (c : Chip) : Chip :=
  c.router.held.foldl (fun c q => c.serve ⟨q.1, q.2.1, q.2.2.1, q.2.2.2⟩) { c with router := { c.router with held := [] } }

/-- Step 4 of a fail-over: the standby is loaded, and the epoch of the failure is over (R388). -/
def Chip.mayRestart (c : Chip) : Bool := c.router.phase == 1 && c.fld ROUT_STATUS.STATE == 1 && decide (c.router.t0 < c.timeNs)

/-- R162. -/
def execRestartComputation (s : State) : Host.Outcome State Fault Refusal :=
  s.run fun c => if c.mayRestart then c.restart.serveHeld.svcpResume else c

/-- R173. -/
def execRead (k : Lnk) (f : Fin 256) (typ : Fin 8) (bytes : List Byte) (s : State) : Host.Outcome State Fault Refusal :=
  s.run fun c => c.request ⟨k, f, typ, bytes⟩

/-- R176. -/
def execWriteNonPosted (k : Lnk) (f : Fin 256) (typ : Fin 8) (bytes : List Byte) (s : State) : Host.Outcome State Fault Refusal :=
  s.run fun c => c.request ⟨k, f, typ, bytes⟩

/-- R177. -/
def execWritePosted (k : Lnk) (f : Fin 256) (typ : Fin 8) (bytes : List Byte) (s : State) : Host.Outcome State Fault Refusal :=
  s.run fun c => c.request ⟨k, f, typ, bytes⟩

end Sys2Proof.Machine
end

