-- ==== Sys2Proof/Machine/Dispatch.lean ====
section
/-! DEFINITION. One arm for each command: its meaning, or its rejection by name. -/

namespace Sys2Proof.Machine

def exec (i : Instr) (s : State) : Host.Outcome State Fault Refusal :=
  match i with
  | .powerGood role testEn => Sys2Proof.Machine.execPowerGood role testEn s
  | .brownOut folioStep => Sys2Proof.Machine.execBrownOut folioStep s
  | .startupStep => Sys2Proof.Machine.execStartupStep s
  | .rampEnd => Sys2Proof.Machine.execRampEnd s
  | .staggeredEnable kind => Sys2Proof.Machine.execStaggeredEnable kind s
  | .zeroFillDone => Sys2Proof.Machine.execZeroFillDone s
  | .warm p v => Sys2Proof.Machine.execWarm p v s
  | .warmReset => Sys2Proof.Machine.execWarmReset s
  | .srst p => Sys2Proof.Machine.execSrst p s
  | .pageDisable p => Sys2Proof.Machine.execPageDisable p s
  | .pageEnable p => Sys2Proof.Machine.execPageEnable p s
  | .lock p => Sys2Proof.Machine.execLock p s
  | .registerWrite p a v => Sys2Proof.Machine.execRegisterWrite p a v s
  | .counterLoRead p n => Sys2Proof.Machine.execCounterLoRead p n s
  | .folioWrite v => Sys2Proof.Machine.execFolioWrite v s
  | .folioVerify v => Sys2Proof.Machine.execFolioVerify v s
  | .folioOwnerWrite o => Sys2Proof.Machine.execFolioOwnerWrite o s
  | .folioWriteDone bad => Sys2Proof.Machine.execFolioWriteDone bad s
  | .tapSave k => Sys2Proof.Machine.execTapSave k s
  | .epochStrobe => Sys2Proof.Machine.execEpochStrobe s
  | .aliveBoundary => Sys2Proof.Machine.execAliveBoundary s
  | .heartbeatTokenReturn => Sys2Proof.Machine.execHeartbeatTokenReturn s
  | .aliveOscillatorToggle => Sys2Proof.Machine.execAliveOscillatorToggle s
  | .blockReceive l r => Sys2Proof.Machine.execBlockReceive l r s
  | .laneImpaired l => Sys2Proof.Machine.execLaneImpaired l s
  | .lossOfLock l => Sys2Proof.Machine.execLossOfLock l s
  | .blockTransmit l => Sys2Proof.Machine.execBlockTransmit l s
  | .ack k m => Sys2Proof.Machine.execAck k m s
  | .ackReq k => Sys2Proof.Machine.execAckReq k s
  | .ackReqTimeout k => Sys2Proof.Machine.execAckReqTimeout k s
  | .creditInit k np p cpl mgt => Sys2Proof.Machine.execCreditInit k np p cpl mgt s
  | .adv k m => Sys2Proof.Machine.execAdv k m s
  | .eq k lanes => Sys2Proof.Machine.execEq k lanes s
  | .trainingAttemptStart k => Sys2Proof.Machine.execTrainingAttemptStart k s
  | .pllRelock k => Sys2Proof.Machine.execPllRelock k s
  | .adaptationComplete l aligned taps => Sys2Proof.Machine.execAdaptationComplete l aligned taps s
  | .trainingStepTimeout k => Sys2Proof.Machine.execTrainingStepTimeout k s
  | .laneOut k lane reason => Sys2Proof.Machine.execLaneOut k lane reason s
  | .laneIn k lane => Sys2Proof.Machine.execLaneIn k lane s
  | .laneInTimeout k lane => Sys2Proof.Machine.execLaneInTimeout k lane s
  | .recover k reason => Sys2Proof.Machine.execRecover k reason s
  | .recoveryEscalate k => Sys2Proof.Machine.execRecoveryEscalate k s
  | .retrain k v => Sys2Proof.Machine.execRetrain k v s
  | .linkRecover k v => Sys2Proof.Machine.execLinkRecover k v s
  | .linkCntClr k v => Sys2Proof.Machine.execLinkCntClr k v s
  | .hold k epoch => Sys2Proof.Machine.execHold k epoch s
  | .holdOverrun k => Sys2Proof.Machine.execHoldOverrun k s
  | .sleepReq k level => Sys2Proof.Machine.execSleepReq k level s
  | .sleepAck k code => Sys2Proof.Machine.execSleepAck k code s
  | .activityDetect l => Sys2Proof.Machine.execActivityDetect l s
  | .linkWake k => Sys2Proof.Machine.execLinkWake k s
  | .wakePatternEnd k => Sys2Proof.Machine.execWakePatternEnd k s
  | .allot k m => Sys2Proof.Machine.execAllot k m s
  | .partnerEpochBegin k => Sys2Proof.Machine.execPartnerEpochBegin k s
  | .demand k m => Sys2Proof.Machine.execDemand k m s
  | .turnReq k target lanes last => Sys2Proof.Machine.execTurnReq k target lanes last s
  | .turnAck k code last => Sys2Proof.Machine.execTurnAck k code last s
  | .turnGo k => Sys2Proof.Machine.execTurnGo k s
  | .turnConfirmDeadline k => Sys2Proof.Machine.execTurnConfirmDeadline k s
  | .turnQuiet l => Sys2Proof.Machine.execTurnQuiet l s
  | .turnReceiverRelease l => Sys2Proof.Machine.execTurnReceiverRelease l s
  | .rejoinStart l => Sys2Proof.Machine.execRejoinStart l s
  | .turnLaneReady l => Sys2Proof.Machine.execTurnLaneReady l s
  | .turnReadyDeadline k => Sys2Proof.Machine.execTurnReadyDeadline k s
  | .eyeScanStart l v => Sys2Proof.Machine.execEyeScanStart l v s
  | .eyeScanPoint l errors => Sys2Proof.Machine.execEyeScanPoint l errors s
  | .eyeScanAbort l v => Sys2Proof.Machine.execEyeScanAbort l v s
  | .laneEqRetrain l v => Sys2Proof.Machine.execLaneEqRetrain l v s
  | .nearEndSerial l v => Sys2Proof.Machine.execNearEndSerial l v s
  | .nearEndParallel l v => Sys2Proof.Machine.execNearEndParallel l v s
  | .farEndRetimed l v => Sys2Proof.Machine.execFarEndRetimed l v s
  | .pattern l v => Sys2Proof.Machine.execPattern l v s
  | .loopNone l v => Sys2Proof.Machine.execLoopNone l v s
  | .flowCfg f v => Sys2Proof.Machine.execFlowCfg f v s
  | .flowStageWrite f w v => Sys2Proof.Machine.execFlowStageWrite f w v s
  | .flowEntryParityError f kind => Sys2Proof.Machine.execFlowEntryParityError f kind s
  | .circCntClr v => Sys2Proof.Machine.execCircCntClr v s
  | .read k f typ bytes => Sys2Proof.Machine.execRead k f typ bytes s
  | .writeNonPosted k f typ bytes => Sys2Proof.Machine.execWriteNonPosted k f typ bytes s
  | .writePosted k f typ bytes => Sys2Proof.Machine.execWritePosted k f typ bytes s
  | .prefetchExpiry w => Sys2Proof.Machine.execPrefetchExpiry w s
  | .forwardRequest => Sys2Proof.Machine.execForwardRequest s
  | .readCpl k f cls bytes => Sys2Proof.Machine.execReadCpl k f cls bytes s
  | .writeCpl k f cls bytes => Sys2Proof.Machine.execWriteCpl k f cls bytes s
  | .completionTimeout t => Sys2Proof.Machine.execCompletionTimeout t s
  | .tagReuseTimeout t => Sys2Proof.Machine.execTagReuseTimeout t s
  | .windowEnable w v => Sys2Proof.Machine.execWindowEnable w v s
  | .windowDisable w v => Sys2Proof.Machine.execWindowDisable w v s
  | .rel v => Sys2Proof.Machine.execRel v s
  | .brdgCntClr v => Sys2Proof.Machine.execBrdgCntClr v s
  | .surfaceValidate n v => Sys2Proof.Machine.execSurfaceValidate n v s
  | .surfaceInvalidate n v => Sys2Proof.Machine.execSurfaceInvalidate n v s
  | .tile f cells => Sys2Proof.Machine.execTile f cells s
  | .fill f cells => Sys2Proof.Machine.execFill f cells s
  | .assemblyBufferFree => Sys2Proof.Machine.execAssemblyBufferFree s
  | .tileWriteStart f => Sys2Proof.Machine.execTileWriteStart f s
  | .tileWriteEnd u => Sys2Proof.Machine.execTileWriteEnd u s
  | .rawLine f cells => Sys2Proof.Machine.execRawLine f cells s
  | .fallbackStreamLine k m => Sys2Proof.Machine.execFallbackStreamLine k m s
  | .streamLost k => Sys2Proof.Machine.execStreamLost k s
  | .surfCntClr v => Sys2Proof.Machine.execSurfCntClr v s
  | .headEnable h v => Sys2Proof.Machine.execHeadEnable h v s
  | .headDisable h v => Sys2Proof.Machine.execHeadDisable h v s
  | .lineStart h => Sys2Proof.Machine.execLineStart h s
  | .bandFetchStart h => Sys2Proof.Machine.execBandFetchStart h s
  | .bandFetchEnd h => Sys2Proof.Machine.execBandFetchEnd h s
  | .headArm h v => Sys2Proof.Machine.execHeadArm h v s
  | .headCancel h v => Sys2Proof.Machine.execHeadCancel h v s
  | .headCntClr h v => Sys2Proof.Machine.execHeadCntClr h v s
  | .margArm h v => Sys2Proof.Machine.execMargArm h v s
  | .margCancel h v => Sys2Proof.Machine.execMargCancel h v s
  | .teEdge h rising => Sys2Proof.Machine.execTeEdge h rising s
  | .teTimeout h => Sys2Proof.Machine.execTeTimeout h s
  | .hpdPlug o => Sys2Proof.Machine.execHpdPlug o s
  | .hpdUnplug o => Sys2Proof.Machine.execHpdUnplug o s
  | .irqHpd o linkLost => Sys2Proof.Machine.execIrqHpd o linkLost s
  | .dpTrainingComplete o result => Sys2Proof.Machine.execDpTrainingComplete o result s
  | .dptxRetrain o v => Sys2Proof.Machine.execDptxRetrain o v s
  | .nativeWrite o v => Sys2Proof.Machine.execNativeWrite o v s
  | .nativeRead o v => Sys2Proof.Machine.execNativeRead o v s
  | .i2cWrite o v => Sys2Proof.Machine.execI2cWrite o v s
  | .i2cRead o v => Sys2Proof.Machine.execI2cRead o v s
  | .i2cWriteMot o v => Sys2Proof.Machine.execI2cWriteMot o v s
  | .i2cReadMot o v => Sys2Proof.Machine.execI2cReadMot o v s
  | .auxReply o r => Sys2Proof.Machine.execAuxReply o r s
  | .auxTimeout o => Sys2Proof.Machine.execAuxTimeout o s
  | .dptxSlotsWrite o v => Sys2Proof.Machine.execDptxSlotsWrite o v s
  | .dpPwrOvercurrent o => Sys2Proof.Machine.execDpPwrOvercurrent o s
  | .pwrEn o v => Sys2Proof.Machine.execPwrEn o v s
  | .ssHdr f cells d => Sys2Proof.Machine.execSsHdr f cells d s
  | .ssData f cells d iso => Sys2Proof.Machine.execSsData f cells d iso s
  | .u2Txn f cells port iso pid reply => Sys2Proof.Machine.execU2Txn f cells port iso pid reply s
  | .uportReset f cells => Sys2Proof.Machine.execUportReset f cells s
  | .uportSuspend f cells => Sys2Proof.Machine.execUportSuspend f cells s
  | .uportResume f cells => Sys2Proof.Machine.execUportResume f cells s
  | .startOfFrame => Sys2Proof.Machine.execStartOfFrame s
  | .portConnect p high wakes => Sys2Proof.Machine.execPortConnect p high wakes s
  | .portDisconnect p wakes => Sys2Proof.Machine.execPortDisconnect p wakes s
  | .typecAttachDs p => Sys2Proof.Machine.execTypecAttachDs p s
  | .typecDetachDs p => Sys2Proof.Machine.execTypecDetachDs p s
  | .receiverDetection p r => Sys2Proof.Machine.execReceiverDetection p r s
  | .portPower p on => Sys2Proof.Machine.execPortPower p on s
  | .vbusRampStart => Sys2Proof.Machine.execVbusRampStart s
  | .portReset p => Sys2Proof.Machine.execPortReset p s
  | .babble p => Sys2Proof.Machine.execBabble p s
  | .portOvercurrent p wakes => Sys2Proof.Machine.execPortOvercurrent p wakes s
  | .overcurrentHoldoffEnd p => Sys2Proof.Machine.execOvercurrentHoldoffEnd p s
  | .v5dsRailTrip => Sys2Proof.Machine.execV5dsRailTrip s
  | .remoteWake p permitted => Sys2Proof.Machine.execRemoteWake p permitted s
  | .svcfRegRead addr len => Sys2Proof.Machine.execSvcfRegRead addr len s
  | .svcfRegWrite addr data => Sys2Proof.Machine.execSvcfRegWrite addr data s
  | .svcfStkRead addr len => Sys2Proof.Machine.execSvcfStkRead addr len s
  | .svcfStkWrite addr data => Sys2Proof.Machine.execSvcfStkWrite addr data s
  | .lastStatus addr len => Sys2Proof.Machine.execLastStatus addr len s
  | .statusStage => Sys2Proof.Machine.execStatusStage s
  | .usbBusReset => Sys2Proof.Machine.execUsbBusReset s
  | .hubCntClr v => Sys2Proof.Machine.execHubCntClr v s
  | .tlp f cells dest ahead => Sys2Proof.Machine.execTlp f cells dest ahead s
  | .endpointTlp p t => Sys2Proof.Machine.execEndpointTlp p t s
  | .pciePrefetchExpiry => Sys2Proof.Machine.execPciePrefetchExpiry s
  | .pcieTunEnable v => Sys2Proof.Machine.execPcieTunEnable v s
  | .powerControllerOn p => Sys2Proof.Machine.execPowerControllerOn p s
  | .socketRampStart p => Sys2Proof.Machine.execSocketRampStart p s
  | .perstRelease p => Sys2Proof.Machine.execPerstRelease p s
  | .powerControllerOff p => Sys2Proof.Machine.execPowerControllerOff p s
  | .offDelayExpiry => Sys2Proof.Machine.execOffDelayExpiry s
  | .clkreq p level l12 => Sys2Proof.Machine.execClkreq p level l12 s
  | .pewake p => Sys2Proof.Machine.execPewake p s
  | .socketOvercurrent p => Sys2Proof.Machine.execSocketOvercurrent p s
  | .surpriseDown p => Sys2Proof.Machine.execSurpriseDown p s
  | .downstreamLinkUp p speed width => Sys2Proof.Machine.execDownstreamLinkUp p speed width s
  | .pcieCntClr v => Sys2Proof.Machine.execPcieCntClr v s
  | .frame f cells => Sys2Proof.Machine.execFrame f cells s
  | .frameReceived bytes => Sys2Proof.Machine.execFrameReceived bytes s
  | .ntb n => Sys2Proof.Machine.execNtb n s
  | .ethLinkChange lp => Sys2Proof.Machine.execEthLinkChange lp s
  | .reneg v => Sys2Proof.Machine.execReneg v s
  | .lowPowerIdle => Sys2Proof.Machine.execLowPowerIdle s
  | .enetCntClr v => Sys2Proof.Machine.execEnetCntClr v s
  | .sinkAttach p flip => Sys2Proof.Machine.execSinkAttach p flip s
  | .sinkDetach p moving => Sys2Proof.Machine.execSinkDetach p moving s
  | .sourceAttach pi cur flip => Sys2Proof.Machine.execSourceAttach pi cur flip s
  | .sourceCapabilities pi caps => Sys2Proof.Machine.execSourceCapabilities pi caps s
  | .request p pos mv ma epr stale => Sys2Proof.Machine.execRequest p pos mv ma epr stale s
  | .wait p => Sys2Proof.Machine.execWait p s
  | .waitRetry p => Sys2Proof.Machine.execWaitRetry p s
  | .ppsRequestTimer p => Sys2Proof.Machine.execPpsRequestTimer p s
  | .ppsTimeout p => Sys2Proof.Machine.execPpsTimeout p s
  | .prSwap p cur => Sys2Proof.Machine.execPrSwap p cur s
  | .prSwapRetry => Sys2Proof.Machine.execPrSwapRetry s
  | .drSwap p => Sys2Proof.Machine.execDrSwap p s
  | .vconnSwap p => Sys2Proof.Machine.execVconnSwap p s
  | .cableDiscovery p id => Sys2Proof.Machine.execCableDiscovery p id s
  | .discoverIdentity => Sys2Proof.Machine.execDiscoverIdentity s
  | .discoverSvids => Sys2Proof.Machine.execDiscoverSvids s
  | .discoverModes m => Sys2Proof.Machine.execDiscoverModes m s
  | .enterMode m => Sys2Proof.Machine.execEnterMode m s
  | .exitMode m => Sys2Proof.Machine.execExitMode m s
  | .dpConfigure pin => Sys2Proof.Machine.execDpConfigure pin s
  | .dpStatus => Sys2Proof.Machine.execDpStatus s
  | .csDiscovery caraxline => Sys2Proof.Machine.execCsDiscovery caraxline s
  | .hardReset p => Sys2Proof.Machine.execHardReset p s
  | .hrst p v => Sys2Proof.Machine.execHrst p v s
  | .inputLoss gone moving => Sys2Proof.Machine.execInputLoss gone moving s
  | .frsSignalEnd => Sys2Proof.Machine.execFrsSignalEnd s
  | .frsVbusPresent => Sys2Proof.Machine.execFrsVbusPresent s
  | .frSwap => Sys2Proof.Machine.execFrSwap s
  | .sourceOvercurrent p => Sys2Proof.Machine.execSourceOvercurrent p s
  | .inputFault p => Sys2Proof.Machine.execInputFault p s
  | .dischargeTimeout p => Sys2Proof.Machine.execDischargeTimeout p s
  | .restoreTimer => Sys2Proof.Machine.execRestoreTimer s
  | .levelFallTimeout p => Sys2Proof.Machine.execLevelFallTimeout p s
  | .inputOverload => Sys2Proof.Machine.execInputOverload s
  | .ppCntClr v => Sys2Proof.Machine.execPpCntClr v s
  | .stateCmd => Sys2Proof.Machine.execStateCmd s
  | .oppoint => Sys2Proof.Machine.execOppoint s
  | .blockAgrees l2 => Sys2Proof.Machine.execBlockAgrees l2 s
  | .agreementTimeout => Sys2Proof.Machine.execAgreementTimeout s
  | .wake src => Sys2Proof.Machine.execWake src s
  | .psTimerExpiry => Sys2Proof.Machine.execPsTimerExpiry s
  | .domainRamp => Sys2Proof.Machine.execDomainRamp s
  | .vcoreSettled => Sys2Proof.Machine.execVcoreSettled s
  | .vislRaiseRequest need => Sys2Proof.Machine.execVislRaiseRequest need s
  | .vislLower => Sys2Proof.Machine.execVislLower s
  | .cascPosnWrite v => Sys2Proof.Machine.execCascPosnWrite v s
  | .relayRead v => Sys2Proof.Machine.execRelayRead v s
  | .relayWrite v => Sys2Proof.Machine.execRelayWrite v s
  | .presencePoll => Sys2Proof.Machine.execPresencePoll s
  | .pollCompletion status x => Sys2Proof.Machine.execPollCompletion status x s
  | .peerAbsent => Sys2Proof.Machine.execPeerAbsent s
  | .cascCntClr v => Sys2Proof.Machine.execCascCntClr v s
  | .derive v => Sys2Proof.Machine.execDerive v s
  | .importKey v => Sys2Proof.Machine.execImportKey v s
  | .ecdh v => Sys2Proof.Machine.execEcdh v s
  | .clear v => Sys2Proof.Machine.execClear v s
  | .invalidate v => Sys2Proof.Machine.execInvalidate v s
  | .atstGo v => Sys2Proof.Machine.execAtstGo v s
  | .certWrite v burnOk => Sys2Proof.Machine.execCertWrite v burnOk s
  | .lcGo v burnOk => Sys2Proof.Machine.execLcGo v burnOk s
  | .rebinding f v => Sys2Proof.Machine.execRebinding f v s
  | .seal f cls cells => Sys2Proof.Machine.execSeal f cls cells s
  | .openMsg k f m => Sys2Proof.Machine.execOpenMsg k f m s
  | .entropyTest pass => Sys2Proof.Machine.execEntropyTest pass s
  | .reseed => Sys2Proof.Machine.execReseed s
  | .continuousTestFail => Sys2Proof.Machine.execContinuousTestFail s
  | .remask retry => Sys2Proof.Machine.execRemask retry s
  | .slotScrub found => Sys2Proof.Machine.execSlotScrub found s
  | .keyFolioClear => Sys2Proof.Machine.execKeyFolioClear s
  | .flitParityError flit fault => Sys2Proof.Machine.execFlitParityError flit fault s
  | .stacksBurstError addr bank row uncor head => Sys2Proof.Machine.execStacksBurstError addr bank row uncor head s
  | .rowRepair => Sys2Proof.Machine.execRowRepair s
  | .bankRepair => Sys2Proof.Machine.execBankRepair s
  | .bankBistDone pass => Sys2Proof.Machine.execBankBistDone pass s
  | .repairCopyDone => Sys2Proof.Machine.execRepairCopyDone s
  | .scrubStretch ch bank found => Sys2Proof.Machine.execScrubStretch ch bank found s
  | .sramRowRepair m row test => Sys2Proof.Machine.execSramRowRepair m row test s
  | .backgroundCalibration l bad => Sys2Proof.Machine.execBackgroundCalibration l bad s
  | .laneRepair l => Sys2Proof.Machine.execLaneRepair l s
  | .segmentCheck sw bad => Sys2Proof.Machine.execSegmentCheck sw bad s
  | .sensorSelfTest pool port => Sys2Proof.Machine.execSensorSelfTest pool port s
  | .slackMeasurement meas => Sys2Proof.Machine.execSlackMeasurement meas s
  | .ckptLate => Sys2Proof.Machine.execCkptLate s
  | .stateErr => Sys2Proof.Machine.execStateErr s
  | .arbCheck port => Sys2Proof.Machine.execArbCheck port s
  | .force v => Sys2Proof.Machine.execForce v s
  | .failover badA badB badImage => Sys2Proof.Machine.execFailover badA badB badImage s
  | .restartComputation => Sys2Proof.Machine.execRestartComputation s
  | .standbyProof step => Sys2Proof.Machine.execStandbyProof step s
  | .coppCntClr v => Sys2Proof.Machine.execCoppCntClr v s
  | .scrbCntClr v => Sys2Proof.Machine.execScrbCntClr v s
  | .eventFiring ext => Sys2Proof.Machine.execEventFiring ext s
  | .interruptPoll => Sys2Proof.Machine.execInterruptPoll s
  | .flow2MessageSend => Sys2Proof.Machine.execFlow2MessageSend s
  | .evStickyClear p v => Sys2Proof.Machine.execEvStickyClear p v s
  | .reactWrite src v => Sys2Proof.Machine.execReactWrite src v s
  | .evtCntClr v => Sys2Proof.Machine.execEvtCntClr v s
  | .ledgRel v => Sys2Proof.Machine.execLedgRel v s
  | .safeCtrlEnter v => Sys2Proof.Machine.execSafeCtrlEnter v s
  | .autoWarm => Sys2Proof.Machine.execAutoWarm s
  | .temperatureSample a b d e => Sys2Proof.Machine.execTemperatureSample a b d e s
  | .railFault rail => Sys2Proof.Machine.execRailFault rail s
  | .referenceFault ppm => Sys2Proof.Machine.execReferenceFault ppm s
  | .evForce p v => Sys2Proof.Machine.execEvForce p v s
  | .extest => Sys2Proof.Machine.execExtest s
  | .svcpRegWrite addr bytes => Sys2Proof.Machine.execSvcpRegWrite addr bytes s
  | .svcpRegRead x => Sys2Proof.Machine.execSvcpRegRead x s
  | .svcpStkWrite addr bytes => Sys2Proof.Machine.execSvcpStkWrite addr bytes s
  | .svcpStkRead x => Sys2Proof.Machine.execSvcpStkRead x s
  | .svcpRead n => Sys2Proof.Machine.execSvcpRead n s
  | .sclTimeout => Sys2Proof.Machine.execSclTimeout s
  | .svcVrefLoss => Sys2Proof.Machine.execSvcVrefLoss s
  | .sourceDetach moving => Sys2Proof.Machine.execSourceDetach moving s
  | .v3p3RailTrip => Sys2Proof.Machine.execV3p3RailTrip s
  | .stop => Sys2Proof.Machine.execStop s
  | .svcVrefReturn => Sys2Proof.Machine.execSvcVrefReturn s
  | .accept p cur => Sys2Proof.Machine.execAccept p cur s
  | .reject p => Sys2Proof.Machine.execReject p s
  | .upstreamSuspend => Sys2Proof.Machine.execUpstreamSuspend s
  | .resumeSignalling => Sys2Proof.Machine.execResumeSignalling s
  | .setConfiguration x => Sys2Proof.Machine.execSetConfiguration x s

end Sys2Proof.Machine
end

