-- ==== Sys2Proof/Safety.lean ====
section
/-! DEFINITION. What claims are stated in: a command that completes, the form that the Stacks keep in every state, and the names of
conditions and effects that several claims share. -/

namespace Sys2Proof.Machine

/-- The command answers a next state in which `P` holds of the chip; the commands that wait stay as they are. -/
def Completes (i : Instr) (s : State) (P : Chip → Prop) : Prop :=
  ∃ t, exec i s = .next t ∧ t.pending = s.pending ∧ P t.chip

/-- The stored bytes of the Stacks are in their canonical form. -/
def Chip.stacksWf (c : Chip) : Prop := cellsWf (fun _ => 0#8) c.stkMem = true

/-- The pages whose blocks have nothing to start again. -/
def plainPages : List Nat := [0x07, 0x10, 0x11, 0x12, 0x13, 0x14, 0x15, 0x16, 0x17, 0x18, 0x19, 0x1A, 0x1B, 0x1C, 0x1D, 0x1E, 0x1F, 0x2A, 0x2B, 0x30, 0x31, 0x32, 0x36, 0x37, 0x38, 0x39, 0x3A]

/-- No maintenance activity runs and nothing stands against one. -/
def quietMaint (c : Chip) : Prop :=
  c.maint.h0 = none ∧ c.maint.h1 = none ∧ c.sstate = 0 ∧ c.ramping = false ∧ c.safe = false

/-- A counter field raised by one, held at its end. -/
def raised (c : Chip) (f : Fld) : Nat := min (c.fld f + 1) (2 ^ f.width - 1)

/-- The commands that may change the stored bytes of the local Stacks: tiles and lines, requests of the bridge and of those a fail-over
held back, the service paths, a power-on reset, and what leads into or out of S3. -/
def mayStore : Instr → Bool
  | .brownOut _ => true
  | .sleepAck .. => true
  | .blockAgrees _ => true
  | .wake _ => true
  | .psTimerExpiry => true
  | .tileWriteEnd _ => true
  | .rawLine .. => true
  | .fallbackStreamLine .. => true
  | .read .. => true
  | .writeNonPosted .. => true
  | .writePosted .. => true
  | .restartComputation => true
  | .statusStage => true
  | .svcpRegWrite .. => true
  | .svcpStkWrite .. => true
  | _ => false

/-- The chip once a request's window access has been counted. -/
def Chip.counted (c : Chip) (q : Arrived) : Chip := match q.win with
  | some w => c.count (WIN_CNT.ACCESSES w)
  | none => c

/-- The device takes requests on a flow: flow 1, or a flow that ends at the enabled bridge, with an active router and no safe state. -/
def Chip.takesOn (c : Chip) (f : Nat) : Bool :=
  c.regsOpen && !c.safe && !c.noRouter && c.router.phase == 0 && c.flowState f != 4 && (f == 1 || (c.pageOn 0x1A && c.pageOn 0x1B && c.flowExists f && c.fld (FLOW_CFG.ENDPOINT f) == 4))

/-- The request that a completion on a link and flow ends. -/
def Chip.awaited (c : Chip) (k : Lnk) (f cls : Nat) (bytes : List Byte) (write : Bool) : Option FwdReq :=
  c.fwd.reqs.find? fun r => r.tag == some (ofBytes ((bytes.drop 2).take 2) % 4096) && r.lnk == k && r.pflow == f && r.write == write &&
    cls == cplClass f

/-- The Stacks after `bs` has been stored from `a` on and nowhere else. -/
def Chip.stkAfter (c d : Chip) (a : Nat) (bs : List Byte) : Prop :=
  ∀ x, d.stk x = if a ≤ x ∧ x < a + bs.length then bs.getD (x - a) 0 else c.stk x

/-- A write of KD_CMD runs its command at once, under a root. -/
def Chip.takesKey (c : Chip) (v : Word) (root : List Byte) : Prop :=
  bit v 31 = true ∧ c.on KD_STATUS.BUSY = false ∧ c.muni.queue = [] ∧ c.muni.after = none ∧ entPassed c = true ∧ c.muni.root = some root ∧
    (KD_CMD.TYPE.get v = 1 ∨ KD_CMD.TYPE.get v = 2) ∧ c.fld KD_LEN.LLEN + c.fld KD_LEN.CLEN ≤ 128

/-- A key command has ended done, with its slot as P says and nothing else of the slots or of the registers changed. -/
def Chip.keyDone (c d : Chip) (v : Word) (P : KeySlot → Prop) : Prop :=
  d.fld KD_STATUS.RESULT = 1 ∧ d.on KD_STATUS.BUSY = false ∧ d.on KD_CMD.GO = false ∧ P (d.slot (KD_CMD.DST.get v)) ∧
    (∀ t, t ≠ KD_CMD.DST.get v → d.slot t = c.slot t) ∧ d.stkMem = c.stkMem ∧
    ∀ a, a ≠ KD_CMD → a ≠ KD_STATUS → (∀ i : Fin 48, a ≠ KD_OUT i) → d.reg a = c.reg a

/-- A repair has brought in a spare: it is counted, named, and in the map. -/
def Chip.repairMade (c d : Chip) (kind unitNo orig spare : Nat) : Prop :=
  d.fld COPP_CNT.REPAIRS = raised c COPP_CNT.REPAIRS ∧ d.fld COPP_STATUS.LAST_KIND = kind % 256 ∧
    ∃ e ∈ d.copp.map, e.kind = kind ∧ e.unitNo = unitNo ∧ e.orig = orig ∧ e.spare = spare ∧ e.retired = false

/-- What a trip leaves of a port: its switch open, the over-current shown, counted and reported, and its power request cleared and
held off. -/
def Chip.tripped (c d : Chip) (p : Nat) : Prop :=
  d.on (PORT_STATUS.VBUS_ON p) = false ∧ d.on (PORT_STATUS.OC p) = true ∧
    d.fld (PORT_STATUS.OC_CNT p) = raised c (PORT_STATUS.OC_CNT p) ∧ (d.port p).asked = false ∧ (d.port p).holdoff = true ∧
    .portChange p .overCurrent ∈ d.out

/-- The enable of a switched output that falls due in the staggered order is one to make: a VBUS wanted and off, a DP_PWR asked for,
not tripped and not held, a socket's supply wanted (R54, R55, R237, R249, R270). -/
def Chip.enables (c : Chip) : Supply → Prop
  | .ds p => c.wantsVbus p = true ∧ c.on (PORT_STATUS.VBUS_ON p) = false
  | .dp o => c.on (DPTX_CTRL.PWR_EN o) = true ∧ (c.dp o).tripped = false ∧ c.dpHeldOff o = false ∧ c.outHeld o = false ∧
      c.dpRuns o = true ∧ c.on (DPTX_STATUS.PWR_ON o) = false
  | .m2 p => c.wantsSocket p = true
  | _ => False

/-- What an overload holds: the highest raise of DS1 or DS0, else the level of CS or UL above its floor, else the item of lowest rank, never
the base. -/
def Chip.shed (c d : Chip) : Prop :=
  let ds1 := c.fld PP_LEVEL.DS1_I
  let ds0 := c.fld PP_LEVEL.DS0_I
  let with' (a b cs ul : Nat) : Prop := d.budget.granted = c.budget.granted ∧ d.fld PP_LEVEL.DS1_I = a ∧ d.fld PP_LEVEL.DS0_I = b ∧
    d.levelOf 1 = cs ∧ d.levelOf 0 = ul
  if ds1 = 2 then with' 1 ds0 (c.levelOf 1) (c.levelOf 0)
  else if ds0 = 2 then with' ds1 1 (c.levelOf 1) (c.levelOf 0)
  else if ds1 = 1 then with' 0 ds0 (c.levelOf 1) (c.levelOf 0)
  else if ds0 = 1 then with' ds1 0 (c.levelOf 1) (c.levelOf 0)
  else if 15 < c.levelOf 1 then with' ds1 ds0 15 (c.levelOf 0)
  else if 15 < c.levelOf 0 then with' ds1 ds0 (c.levelOf 1) 15
  else d.budget.granted = match c.budget.granted.getLast? with
    | none => c.budget.granted
    | some i => c.budget.granted.filter fun j => i = 0 || j != i

/-- The 344 bytes of a statement, field by field (R370): its format, COLOPHON, the nonce, the life-cycle code and flags, the accession, the
epoch count, the four measurements, and the identity key's signature over all that stands before it. -/
def Chip.signedStatement (c : Chip) (root stmt : List Byte) : Prop :=
  let part (a n : Nat) : List Byte := (stmt.drop a).take n
  stmt.take 8 = toBytes 2 1 ++ toBytes 2 344 ++ toBytes 4 (c.reg COLOPHON).toNat ∧ part 0x008 32 = c.regBytes ATST_NONCE 32 ∧
    part 0x028 4 = toBytes 1 (c.fld LC_STATUS.STATE) ++
      toBytes 1 (c.fld FOLIO_STATUS.SHELF + 2 * c.fld MUNI_CTRL.MODE + 4 * c.fld LC_STATUS.PEND) ++ [0, 0] ∧
    part 0x030 8 = toBytes 6 c.epoch ++ [0, 0] ∧
    (match c.folio.active with
      | some m => part 0x02C 4 = toBytes 4 (imgAccession m) ∧ part 0x038 48 = fitBytes 48 (Config.sha384 (imgBytes m 0x100 0xFEFC))
      | none => part 0x02C 4 = [0, 0, 0, 0] ∧ part 0x038 48 = List.replicate 48 0) ∧
    part 0x068 48 = fitBytes 48 (Config.sha384 c.mapMeasured) ∧
    part 0x098 48 = fitBytes 48 (Config.sha384 (Config.fuseImage c.fuses.state c.fuses.pending)) ∧
    part 0x0C8 48 = fitBytes 48 (Config.sha384 c.lockRecord) ∧
    part 0x0F8 96 = fitBytes 96 (Config.p384Sign (c.identityKey root) (Config.sha384 (stmt.take 0x0F8)) c.free)

/-- The cell of a flit that cannot be rebuilt is lost, and no other: the oldest one waiting to leave on its flow, or the last one that joined
a message being assembled. -/
def Chip.cellLost (c d : Chip) (x : Option FabricCell) : Prop :=
  match x with
  | none => d.queues = c.queues ∧ d.links = c.links
  | some ⟨k, f, true⟩ => d.outQ k f = (c.outQ k f).tail ∧ d.links = c.links ∧
      ∀ (k' : Lnk) (g : Fin 256), k' ≠ k ∨ g ≠ f → d.outQ k' g = c.outQ k' g
  | some ⟨k, f, false⟩ => d.queues = c.queues ∧ (d.link k).asm = (c.link k).asm.map fun e =>
      if e.1 / 8 == f.val then (e.1, e.2.1, e.2.2.take (e.2.2.length - 120)) else e

end Sys2Proof.Machine
end

