-- ==== Sys2Proof/Certificates/Slice0/Obligations.lean ====
section
/-! DEFINITION. The statements about the model. Each says which rules of spec/ it rests on; where a clause rests on a choice of the
model, the log entry is named. -/

open Sys2Proof Sys2Proof.Machine

/-! ## The whole machine -/

/-- A step runs the command at the front of the queue; an empty queue idles. (The model's choice of a queue and of idling (log
entry 1).) -/
def Obligations.StepRunsTheFront : Prop :=
  ∀ s : State,
    (∀ c rest, s.pending = c :: rest → step s = exec c { s with pending := rest }) ∧
    (s.pending = [] → step s = .next s)

/-- The state right after reset. (R9, R29, R58; the part is log entry 2, the empty Stacks log entry 20.) -/
def Obligations.ResetState : Prop :=
  let c := State.reset.chip
  State.reset.pending = [] ∧ c.boot.step = 0 ∧ c.stkMem = [] ∧ c.out = [] ∧ c.firings = [] ∧
    (∀ a, c.reg a = regReset c.part a) ∧
    (∀ k : Fin 2, c.fld (LINK_STATUS.STATE k) = 0 ∧ c.fld (LINK_CTRL.MAX_RATE k) = 3) ∧
    (∀ f : Fin 256, 3 ≤ f.val → c.flowState f = 0) ∧
    c.fld CIRC_CTRL.HORIZON = 8 ∧ c.fld BRDG_CTRL.CPL_TO = 4 ∧ c.fld SURF_CTRL.BEAM_EN = 0xF ∧ c.fld ENET_CTRL.MAX_LEN = 1522 ∧
    c.fld PS_WAKE_EN.EN = 0x2A1 ∧ c.fld PS_DOMAIN.PWR = 0x1FDF ∧ c.fld PS_STATUS.OP = 2 ∧ c.fld CASC_CTRL.MISS_LIM = 3 ∧
    c.fld MUNI_CTRL.REMASK = 8 ∧ c.fld SCRB_CTRL.PERIOD = 0x18 ∧ c.fld COLOPHON.VENDOR = 0x4E ∧ c.fld RST_CAUSE.PATH = 7

/-- The Stacks have their canonical form at reset. (The form is the model's own.) -/
def Obligations.ResetStacksForm : Prop :=
  State.reset.chip.stacksWf

/-- Every step keeps the canonical form of the Stacks. (The form is the model's own; what is stored is R204, R174, R208, R257,
R428.) -/
def Obligations.StepKeepsStacksForm : Prop :=
  ∀ s t : State, s.chip.stacksWf → step s = .next t → t.chip.stacksWf

/-- Only the storing commands change the Stacks. (A frame over all commands; R59, R204, R208, R211, R318.) -/
def Obligations.StacksUntouched : Prop :=
  ∀ (i : Instr) (s : State), mayStore i = false → Completes i s fun d => d.stkMem = s.chip.stkMem

/-- Every command answers a next state, and the queue drains. (The model's choice that a command whose conditions do not hold does
nothing (log entry 14).) -/
def Obligations.EveryCommandCompletes : Prop :=
  (∀ (i : Instr) (s : State), ∃ t, exec i s = .next t ∧ t.pending = s.pending) ∧
  (∀ s : State, ∃ t : State, core.run s.pending.length s = .next t ∧ t.pending = [])

/-! ## Rules of numbers and tables -/

/-- The pages an MH4142 does not have read 0 and ignore writes. (R4.) -/
def Obligations.AbsentPages : Prop :=
  ∀ (s : State) (path : Path) (a : BitVec 18), s.chip.part = .mh4142 →
    pageOf a.toNat ∈ [0x22, 0x23, 0x26, 0x27, 0x14, 0x15, 0x16, 0x17, 0x19, 0x1C, 0x2D, 0x31] →
    s.chip.readWord a.toNat = 0 ∧
    s.chip.readReg path a.toNat = (0, s.chip) ∧
    (∀ v, Completes (.registerWrite path a v) s fun d => d = { s.chip with out := [] })

/-- Accessions are compared by serial-number arithmetic, and Folio A wins a draw. (R65.) -/
def Obligations.NewerAccession : Prop :=
  (∀ a b : Nat, a < 2 ^ 32 → b < 2 ^ 32 →
    (newerAcc a b = true ↔ 1 ≤ ((a : Int) - b) % 2 ^ 32 ∧ ((a : Int) - b) % 2 ^ 32 ≤ 2 ^ 31 - 1)) ∧
  (∀ x y, imgValid x = true → imgValid y = true →
    newestCopy x y = (if newerAcc (imgAccession y) (imgAccession x) then some 1 else some 0) ∧
      (imgAccession x = imgAccession y ∨ ((imgAccession x : Int) - imgAccession y) % 2 ^ 32 = 2 ^ 31 → newestCopy x y = some 0))

/-- The three lane arrangements and the lanes a change turns. (R100.) -/
def Obligations.LaneArrangements : Prop :=
  (arrDown .a22 = [0, 1] ∧ arrDown .a31 = [0, 1, 2] ∧ arrDown .a13 = [0]) ∧
  ∀ (c : Chip) (k : Lnk),
    (∀ a, ∀ l : Fin 4, c.arrDir k a l = (if (l.val ∈ arrDown a) ↔ c.downEnd k = true then 0 else 1)) ∧
    (∀ l : Fin 4, (c.arrDir k .a22 l ≠ c.arrDir k .a31 l ↔ l = 2) ∧ (c.arrDir k .a22 l ≠ c.arrDir k .a13 l ↔ l = 1) ∧
      (c.arrDir k .a31 l ≠ c.arrDir k .a13 l ↔ l = 1 ∨ l = 2)) ∧
    (∀ a b, c.arrDir k a 0 = c.arrDir k b 0 ∧ c.arrDir k a 3 = c.arrDir k b 3) ∧
    c.downEnd .ul = true ∧ (c.downEnd .cs = true ↔ c.pairedFollower = true)

/-- The byte map of the three byte-order modes. (R174.) -/
def Obligations.ByteOrder : Prop :=
  ∀ w : Fin 4, ∀ q : Fin 8,
    omap 0 w q = q ∧ omap 1 w q = 7 - q ∧
    omap 2 0 q = q.val ^^^ 7 ∧ omap 2 1 q = q.val ^^^ 6 ∧ omap 2 2 q = q.val ^^^ 4 ∧ omap 2 3 q = q.val ∧
    (∀ o : Fin 3, omap o w (omap o w q) = q)

/-- What a class gets when its guarantees exceed the cells left. (R155; that a flow never gets more than its guaranteed cells is
log entry 60.) -/
def Obligations.ShortfallShares : Prop :=
  ∀ (fs : List AFlow) (avail : Nat),
    let total := (fs.map fun x => min x.g x.need).sum
    let r := reduceClass fs avail total
    r.map (·.1) = fs.map (·.f) ∧ (r.map (·.2)).sum = min total avail ∧
    ∀ (i : Nat) (x : AFlow), fs[i]? = some x → ∃ y : Nat, r[i]? = some (x.f, y) ∧ y ≤ min x.g x.need ∧
      (total ≤ avail → y = min x.g x.need) ∧
      (avail < total → y = min x.g x.need * avail / total ∨ y = min x.g x.need * avail / total + 1)

/-! ## Commands, by the chapters of the spec -/

/-- Start-up steps, ramps, staggered enables and the three resets. (R54, R55, R58, R59.) -/
def Obligations.StartUpAndResets : Prop :=
  (∀ s : State,
     (∀ role testEn, s.chip.boot.step = 0 → Completes (.powerGood role testEn) s fun d => d.boot.step = 1) ∧
     (0 < s.chip.boot.step → s.chip.boot.step < s.chip.lastStep → s.chip.railDue = false → s.chip.safe = false →
       Completes .startupStep s fun d => d.boot.step = s.chip.boot.step + 1) ∧
     (∀ p, s.chip.boot.rampNow = some (.ds p) → s.chip.wantsVbus p = true →
       Completes .rampEnd s fun d => d.on (PORT_STATUS.VBUS_ON p) = true ∧ d.out = [.vbusDs p true] ∧
         d.boot.rampNow = s.chip.boot.rampWait.head?) ∧
     (∀ (kind : Fin 3) x, s.chip.boot.stagger.find? (fun y => y.run == kind.val) = some x →
       Completes (.staggeredEnable kind) s fun d => d.boot.stagger = s.chip.boot.stagger.filter (· != x) ∧ d.regs = s.chip.regs ∧
         d.stkMem = s.chip.stkMem ∧
         (s.chip.enables x → s.chip.boot.rampNow ≠ some x → x ∉ s.chip.boot.rampWait →
           (s.chip.boot.rampNow = none → d.boot.rampNow = some x) ∧
           (s.chip.boot.rampNow ≠ none → d.boot.rampWait = s.chip.boot.rampWait ++ [x]))) ∧
     (s.chip.on STAK_STATUS.TRAINED = true → s.chip.on STAK_STATUS.FILLED = false →
       Completes .zeroFillDone s fun d => d.on STAK_STATUS.FILLED = true ∧ d.stkMem = s.chip.stkMem ∧
         ∀ a, a ≠ STAK_STATUS → d.reg a = s.chip.reg a)) ∧
  (∀ s : State,
     (∀ k, Completes (.brownOut k) s fun d => d.boot.step = 0 ∧ d.boot.kind = 0 ∧ d.part = s.chip.part ∧ d.stkMem = [] ∧
       d.timeNs = s.chip.timeNs ∧ ∀ a, a ≠ LC_STATUS → d.reg a = regReset d.part a) ∧
     (∀ p v, bit v 0 = true → s.chip.boot.warm = none → s.chip.boot.warmRun = false →
       Completes (.warm p v) s fun d => d = { s.chip with out := [], boot := { s.chip.boot with warm := some (warmPath p) } }) ∧
     (∀ path, s.chip.boot.warm = some path → s.chip.mayReset = true →
       Completes .warmReset s fun d => d.boot.warm = none ∧ d.boot.kind = (if s.chip.safe then 3 else 1) ∧
         d.stkMem = s.chip.stkMem ∧ d.part = s.chip.part ∧ d.timeNs = s.chip.timeNs ∧
         (∀ a, regDomain a = .warm ∨ regDomain a = .page → pageOf a < 0x28 → pageOf a ≠ 3 ∨ a % 0x1000 < 0x800 → (∀ l : Fin 8, a ≠ LANE_STATUS l) → a ≠ SAFE_STATUS →
           a ≠ RST_CAUSE → d.reg a = regReset s.chip.part a) ∧
         (∀ a, regDomain a = .por → pageOf a < 0x28 → a ≠ RST_CAUSE → a ≠ SAFE_STATUS → d.reg a = s.chip.reg a) ∧
         ∀ p : Fin 3, s.chip.on (PD_STATUS.SOURCE p) = false →
           d.reg (PD_CONTRACT p) = s.chip.reg (PD_CONTRACT p) ∧ d.reg (PD_STATUS p) = s.chip.reg (PD_STATUS p)))

/-- Page control, lock, page soft reset, register writes and 64-bit counters. (R4, R405, R418, R419, R425; that EN 0 leaves PAGE-
domain registers at their reset values is log entry 74, DEDUCED.) -/
def Obligations.PagesAndRegisters : Prop :=
  (∀ s : State, ∀ p : Fin 64, pagePresent s.chip.part p = true →
     Completes (.lock p) s (fun d => d.on (PAGE_CTRL.LOCK p) = true ∧ d.on (PAGE_CTRL.EN p) = s.chip.on (PAGE_CTRL.EN p) ∧
       d.stkMem = s.chip.stkMem ∧ ∀ a, a ≠ PAGE_CTRL p → d.reg a = s.chip.reg a) ∧
     (fixedPage p = false →
       (s.chip.on (PAGE_CTRL.EN p) = true → p.val ≠ 1 →
         Completes (.pageDisable p) s fun d =>
           ∀ a, pageOf a = p → regDomain a = .page → pageKeeps p a = false → d.reg a = regReset d.part a) ∧
       (p.val ∈ plainPages → s.chip.folio.deferredSrst = false →
         Completes (.srst p) s fun d =>
           ∀ a, pageOf a = p → regDomain a = .page → pageKeeps p a = false → d.reg a = regReset d.part a) ∧
       (p.val ∈ plainPages → s.chip.on (PAGE_CTRL.EN p) = false →
         Completes (.pageEnable p) s fun d => d.on (PAGE_CTRL.EN p) = true ∧ d.stkMem = s.chip.stkMem ∧
           ∀ a, a ≠ PAGE_CTRL p → d.reg a = s.chip.reg a))) ∧
  (∀ s : State, ∀ path,
     (s.chip.pathOpen path = true →
       (∀ (a : BitVec 18) v, a.toNat % 0x1000 = 0x018 → pagePresent s.chip.part (pageOf a.toNat) = true →
         Completes (.registerWrite path a v) s fun d =>
           let m : Word := BitVec.ofNat 32 (2 ^ pageSourceCount (pageOf a.toNat) - 1)
           d.reg a.toNat = ((s.chip.reg a.toNat &&& ~~~m) ||| (v &&& m)) ∧ d.stkMem = s.chip.stkMem ∧
             ∀ b, b ≠ a.toNat → d.reg b = s.chip.reg b) ∧
       (∀ (a : BitVec 18) v, a.toNat % 4 = 0 → pagePresent s.chip.part (pageOf a.toNat) = false →
         Completes (.registerWrite path a v) s fun d => d = { s.chip with out := [] }) ∧
       (∀ n h, hiOf (loAddr n) = some h → pagePresent s.chip.part (pageOf (loAddr n)) = true →
         Completes (.counterLoRead path n) s fun d => d.out = [.regData path (s.chip.readWord (loAddr n))] ∧
           d.latch path = some (h, s.chip.readWord h) ∧ d.regs = s.chip.regs ∧ d.stkMem = s.chip.stkMem)) ∧
     (s.chip.pathOpen path = false → ∀ a v, Completes (.registerWrite path a v) s fun d => d = { s.chip with out := [] }))

/-- Folio writes, verifies, owners' writes and their end. (R69-R74, R363; log entries 15, 65.) -/
def Obligations.FolioCommands : Prop :=
  ∀ s : State,
    (∀ v, quietMaint s.chip → s.chip.stkBad = [] → s.chip.pageLocked 1 = false → bit v 0 = true → bit v 2 = false →
      s.chip.on FOLIO_CTRL.WRITE = false →
      Completes (.folioWrite v) s fun d => d.on FOLIO_CTRL.WRITE = true ∧ d.copyOf s.chip.writeTarget = [] ∧
        d.locked (.folio s.chip.writeTarget) = true ∧ (d.folio.job.map fun j => (j.target, j.writer, j.verify)) = some (s.chip.writeTarget, 0, false)) ∧
    (∀ v, quietMaint s.chip → s.chip.pageLocked 1 = false → bit v 0 = false → bit v 2 = true →
      s.chip.on FOLIO_CTRL.VERIFY = false →
      Completes (.folioVerify v) s fun d => d.on FOLIO_CTRL.VERIFY = true ∧ d.folio.copyA = s.chip.folio.copyA ∧
        d.folio.copyB = s.chip.folio.copyB ∧ (d.folio.job.map fun j => (j.target, j.verify)) = some (s.chip.writeTarget, true)) ∧
    (quietMaint s.chip →
      (∀ id, s.chip.cableId .ul = some id → s.chip.recordFor .ul id = none → s.chip.saveDue .ul = true →
        Completes (.folioOwnerWrite .tapStore) s fun d => d.locked (.folio s.chip.writeTarget) = true ∧
          d.folio.lastTapSaveNs = some s.chip.timeNs ∧
          (d.folio.job.map fun j => (j.target, j.writer)) = some (s.chip.writeTarget, 3)) ∧
      Completes (.folioOwnerWrite .muniment) s (fun d => d.locked (.folio s.chip.writeTarget) = true ∧
        (d.folio.job.map fun j => (j.target, j.writer)) = some (s.chip.writeTarget, 2))) ∧
    (∀ j, s.chip.folio.job = some j → j.verify = false → j.writer ≠ 2 →
      Completes (.folioWriteDone none) s fun d => d.folio.job = none ∧ d.copyOf j.target = j.image ∧
        d.copyOf (1 - j.target) = s.chip.copyOf (1 - j.target)) ∧
    (∀ j slots, s.chip.folio.job = some j → j.verify = false → j.writer = 2 → s.chip.muni.after = some slots → s.chip.muni.queue = [] →
      s.chip.muni.invalidated = none → s.chip.boot.warm = none → s.chip.folio.deferredSrst = false →
      Completes (.folioWriteDone none) s fun d => d.folio.job = none ∧ d.copyOf j.target = j.image ∧
        d.copyOf (1 - j.target) = s.chip.copyOf (1 - j.target) ∧ d.muni.after = none ∧ d.fld KD_STATUS.RESULT = 1 ∧
        d.on KD_STATUS.BUSY = false ∧ d.on KD_CMD.GO = false ∧
        ∀ n : Fin 64, (d.slot n).gen = (slotsGet slots n).gen) ∧
    (∀ j, s.chip.folio.job = some j → j.verify = true → imgValid (s.chip.copyOf j.target) = false →
      Completes (.folioWriteDone none) s fun d => d.folio.job = none ∧ d.fld FOLIO_STATUS.RESULT = folioVerifyFail ∧
        d.folio.copyA = s.chip.folio.copyA ∧ d.folio.copyB = s.chip.folio.copyB ∧ d.stkMem = s.chip.stkMem) ∧
    (∀ k id, quietMaint s.chip → s.chip.cableId k = some id → s.chip.saveDue k = true → s.chip.recordFor k id = none →
      Completes (.tapSave k) s fun d => d.folio.lastTapSaveNs = some s.chip.timeNs ∧
        (d.folio.job.map fun j => (j.target, j.writer)) = some (s.chip.writeTarget, 3))

/-- The epoch strobe passes 8.192 us, and ALIVE toggles with the heartbeat token. (R100, R102, R128, R139, R150, R207, R317, R399,
R410, R411; log entries 6, 70, 86.) -/
def Obligations.EpochAndAlive : Prop :=
  ∀ s : State,
    (2 ≤ s.chip.boot.step → s.chip.sstate ≠ 3 →
      Completes .epochStrobe s fun d => d.timeNs = s.chip.timeNs + 8192 ∧ d.epoch = (s.chip.epoch + 1) % 2 ^ 48 ∧
        d.stkMem = s.chip.stkMem ∧
        (s.chip.coreUp = true → s.chip.sstate ≤ 1 → s.chip.readyUp .ul = false → s.chip.readyUp .cs = false →
          (∀ t ∈ d.ev.targets, t.epoch = d.epoch) ∧
          (s.chip.flow2Part = true ∨ s.chip.usbPart = true → d.ev.queue = s.chip.ev.queue.drop 84) ∧
          (let en := ((s.chip.headList.filter (s.chip.fld SURF_CTRL.BEAM_EN).testBit).map (2 ^ ·)).sum
           s.chip.native .ul = true → en ≠ 0 → d.epoch % (s.chip.fld SURF_CTRL.BEAM_INT + 1) = 0 → s.chip.safe = false →
            s.chip.sstate = 0 → s.chip.pageOn 0x1D = true → s.chip.noRouter = false → s.chip.router.phase = 0 →
            (∀ h ∈ s.chip.headList, (d.head h).late = 0) ∧
              d.ev.beam.map (List.take 8) = some (toBytes 4 d.epoch ++ toBytes 1 en ++ [0, 0, 0]) ∧
              d.ev.beam.map List.length = some 72) ∧
          (∀ k, s.chip.schedules k = true → s.chip.linkUp k = true → s.chip.fld ROUT_STATUS.STATE ≠ 1 → (s.chip.link k).turn = none →
            (∀ l ∈ pairs k, (s.chip.lane l).out = .in_) →
            (d.link k).grants = (s.chip.sched k).nextOut ∧ (∃ m ∈ (d.link k).lmcs, m.code = 0x30) ∧
              (d.sched k).sentIn = [] ∧ (d.sched k).extraIn = (s.chip.sched k).nextExtraIn ∧
              ∀ f : Fin 256, 3 ≤ f.val → s.chip.flowState f = 1 → s.chip.crosses k f = true → s.chip.ownerLink f = k →
                s.chip.flowDir k 0 f = 0 → d.fld (FLOW_STATE.A_IN f) = min (lookup (s.chip.sched k).nextIn f) 4095 ∧
                  d.fld (FLOW_STATE.A_OUT f) = min (lookup (s.chip.sched k).nextOut f) 4095) ∧
          (∀ k t, s.chip.schedules k = true → (s.chip.link k).turn = some t → t.epoch ≠ 0 →
            (∀ l ∈ t.lanes, l ∈ pairs k ∧ (s.chip.lane l).ready = true ∧ (s.chip.lane l).out = .in_) →
            ∀ l ∈ t.lanes, d.on (LANE_STATUS.SVC l) = true))) ∧
    (s.chip.ev.aliveOn = true → s.chip.aliveHeld = false → s.chip.sstate ≠ 3 → s.chip.epoch % 128 = 0 → s.chip.tokenOff = false →
      s.chip.boot.svcVref = true →
      (s.chip.ev.tokens = 0 ∨ s.chip.ev.tokenFree = true →
        Completes .aliveBoundary s fun d => d.out = [.alive (!s.chip.ev.aliveLevel)] ∧ d.ev.tokens = 1 ∧
          d.ev.aliveLevel = (!s.chip.ev.aliveLevel) ∧ d.regs = s.chip.regs ∧ d.stkMem = s.chip.stkMem) ∧
      (s.chip.ev.tokens ≠ 0 → s.chip.ev.tokenFree = false →
        Completes .aliveBoundary s fun d => d.out = [] ∧ d.ev.aliveLevel = s.chip.ev.aliveLevel ∧
          d.fld ALIVE_STATUS.LATE = min (s.chip.fld ALIVE_STATUS.LATE + 1) 65535 ∧ d.stkMem = s.chip.stkMem)) ∧
    (s.chip.coreUp = true → s.chip.tokenOff = false →
      Completes .heartbeatTokenReturn s fun d =>
        d = { s.chip with out := [], ev := { s.chip.ev with tokens := s.chip.ev.tokens - 1 } }) ∧
    (s.chip.sstate = 3 → s.chip.aliveHeld = false → s.chip.boot.svcVref = true →
      Completes .aliveOscillatorToggle s fun d => d.out = [.alive (!s.chip.ev.aliveLevel)] ∧
        d.timeNs = s.chip.timeNs + 1048576 ∧ d.regs = s.chip.regs ∧ d.stkMem = s.chip.stkMem)

/-- A firing sets its sticky bit and its Ledger entry; messages are delivered. (R398-R401; log entries 16, 70.) -/
def Obligations.EventFiringsAndDelivery : Prop :=
  (∀ s : State, ∀ f fs, s.chip.firings = f :: fs → (evSource f.src).cls ≠ 0 → s.chip.recovering = false →
     (s.chip.react f.src = 0 →
       Completes (.eventFiring none) s fun d => d.firings = fs ∧
         d.on ⟨EV_STICKY (evSource f.src).page, (evSource f.src).bit, 1⟩ = true ∧ d.stkMem = s.chip.stkMem ∧
         ∀ a, a ≠ EV_STICKY (evSource f.src).page → d.reg a = s.chip.reg a) ∧
     (s.chip.react f.src = 1 → s.chip.ev.targets = [] → s.chip.on LEDG_STATUS.FROZEN = false →
       Completes (.eventFiring none) s fun d => d.firings = fs ∧
         d.reg (LEDGER (s.chip.fld LEDG_STATUS.NEXT_IDX) 2) = BitVec.ofNat 32 f.detail ∧
         d.fld LEDG_STATUS.NEXT_IDX = (s.chip.fld LEDG_STATUS.NEXT_IDX + 1) % 32 ∧ d.ev.queue = s.chip.ev.queue)) ∧
  (∀ s : State,
     (∀ m ms, s.chip.ev.closed = m :: ms → m.usb = false → s.chip.usbPart = true → s.chip.svcfOpen = true →
       Completes .interruptPoll s fun d => d.regs = s.chip.regs ∧ d.stkMem = s.chip.stkMem ∧
         if s.chip.noRouter = true then d.out = [.nak] ∧ d.ev = s.chip.ev else d.out = [.interrupt (s.chip.eventsTransfer m)]) ∧
     (∀ b, s.chip.ev.beam = some b → s.chip.native .ul = true → s.chip.flow2Ready 1 = true → s.chip.on (FLOW_CFG.ENC 2) = false →
       Completes .flow2MessageSend s fun d => d.ev.beam = none ∧
         d.outQ .ul 2 = cellsOfMessage clsMgmt s.chip.epoch (s.chip.evHeader 0x61 0 (ofBytes (b.take 4)) ++ b) ∧
         d.regs = s.chip.regs ∧ d.stkMem = s.chip.stkMem))

/-- Event registers, the Ledger's release, forced, rail, reference and temperature sources. (R397, R398, R402, R412-R415; log
entry 96.) -/
def Obligations.EventRegisters : Prop :=
  ∀ s : State,
    (∀ (p : Fin 64) v, pagePresent s.chip.part p = true →
      Completes (.evStickyClear p v) s fun d =>
        d.reg (EV_STICKY p) = s.chip.reg (EV_STICKY p) &&& ~~~(v &&& BitVec.ofNat 32 (2 ^ pageSourceCount p - 1)) ∧
        d.stkMem = s.chip.stkMem ∧ ∀ a, a ≠ EV_STICKY p → d.reg a = s.chip.reg a) ∧
    (∀ (src : Fin 256) v, (evSource src).cls ≠ 0 → s.chip.pageLocked 4 = false →
      Completes (.reactWrite src v) s fun d =>
        if (evSource src).permit.testBit ((EVT_SRC.REACT src).get v) then
          d.react src = (EVT_SRC.REACT src).get v ∧ ∀ a, a ≠ EVT_SRC src → d.reg a = s.chip.reg a
        else d.fld EVT_CNT.REACT_IGN = min (s.chip.fld EVT_CNT.REACT_IGN + 1) 255 ∧ ∀ a, a ≠ EVT_CNT → d.reg a = s.chip.reg a) ∧
    (∀ v, bit v 8 = true → Completes (.evtCntClr v) s fun d => d.reg EVT_CNT = regReset s.chip.part EVT_CNT ∧
      d.stkMem = s.chip.stkMem ∧ d.ev = s.chip.ev) ∧
    (∀ v, s.chip.on LEDG_STATUS.FROZEN = true →
      LEDG_REL.SEQ.get v = s.chip.fld ⟨LEDGER (s.chip.fld LEDG_STATUS.FREEZE_IDX) 3, 16, 8⟩ →
      Completes (.ledgRel v) s fun d => d.on LEDG_STATUS.FROZEN = false ∧ d.fld LEDG_STATUS.LOST = 0 ∧
        d.stkMem = s.chip.stkMem ∧ ∀ a, a ≠ LEDG_STATUS → d.reg a = s.chip.reg a) ∧
    (∀ (p : Fin 64) v, pagePresent s.chip.part p = true → s.chip.pageOn p = true → s.chip.armed = true →
      Completes (.evForce p v) s fun d => d.regs = s.chip.regs ∧ d.firings = s.chip.firings ++
        (((List.range (pageSourceCount p)).filter fun n => bit v n).filterMap (sourceAt p)).map fun n =>
          { src := n, detail := (s.chip.reg FTST_DETAIL).toNat, forced := true }) ∧
    (∀ (r : Fin 4), s.chip.boot.rampNow = none → s.chip.seq.ramping = false → s.chip.pageOn (evSource 8).page = true →
      Completes (.railFault r) s fun d => d.firings = s.chip.firings ++ [{ src := 8, detail := r, forced := false }] ∧
        d.on ⟨EV_RAW (evSource 8).page, (evSource 8).bit, 1⟩ = true ∧ d.stkMem = s.chip.stkMem ∧
        ∀ a, a ≠ EV_RAW (evSource 8).page → d.reg a = s.chip.reg a) ∧
    (∀ ppm, s.chip.domainOn 1 = true → 2 ≤ s.chip.boot.step → s.chip.pageOn (evSource 9).page = true →
      Completes (.referenceFault ppm) s fun d =>
        d.firings = s.chip.firings ++ [{ src := 9, detail := ppm.toNat, forced := false }] ∧
        d.on ⟨EV_RAW (evSource 9).page, (evSource 9).bit, 1⟩ = true ∧ d.stkMem = s.chip.stkMem ∧
        ∀ a, a ≠ EV_RAW (evSource 9).page → d.reg a = s.chip.reg a) ∧
    (∀ a b x y, Completes (.temperatureSample a b x y) s fun d =>
      let t := max (max a.toNat b.toNat) (max x.toNat y.toNat)
      d.ev.junctionHot = (decide (1100 < t) || (s.chip.ev.junctionHot && decide (1050 ≤ t))) ∧
      d.ev.junctionCrit = (decide (1250 ≤ t) || (s.chip.ev.junctionCrit && decide (1150 ≤ t))) ∧ d.stkMem = s.chip.stkMem)

/-- Commanded entry to the safe state, and the automatic warm reset. (R403, R404, R406.) -/
def Obligations.SafeStateEntryAndExit : Prop :=
  (∀ s : State, s.chip.safe = false → s.chip.recovering = false → s.chip.react 13 = 5 →
     (∀ v, bit v 31 = true → Completes (.safeCtrlEnter v) s fun d => d.op = 0 ∧ d.boot.stagger = [] ∧ d.ev.safeNs = s.chip.timeNs) ∧
     (s.chip.armed = true → Completes .extest s fun d => d.op = 0 ∧ d.boot.stagger = [] ∧ d.ev.safeNs = s.chip.timeNs)) ∧
  (∀ s : State, s.chip.safe = true → s.chip.fld SAFE_CTRL.AUTO_WARM ≠ 0 → s.chip.fld SAFE_STATUS.AUTO_USED < 3 →
     s.chip.boot.warm = none → s.chip.boot.warmRun = false →
     Completes .autoWarm s fun d => d.boot.warm = some 4 ∧
       d.fld SAFE_STATUS.AUTO_USED = s.chip.fld SAFE_STATUS.AUTO_USED + 1 ∧ d.stkMem = s.chip.stkMem ∧
       ∀ a, a ≠ SAFE_STATUS → d.reg a = s.chip.reg a)

/-- Blocks on a lane, loss of lock, impairment and eye scans. (R84, R85, R96, R97, R107, R110; log entry 27.) -/
def Obligations.LaneBlocksAndEyeScans : Prop :=
  (∀ s : State, ∀ l : Fin 8,
     (∀ skewNs levels, s.chip.fld (LANE_STATUS.DIR l) = 0 → s.chip.fld (LANE_STATUS.ALIGN l) = 0 → s.chip.effLoop l = 0 →
       s.chip.adapting l = false →
       let w := (s.chip.lane l).carry ++ levels.map (·.val)
       let nrz := s.chip.fld (LANE_STATUS.RATE l) == 0
       let n := w.length + 1 - (if nrz then 32 else 16)
       (findComma nrz n 0 w = none →
         Completes (.blockReceive l ⟨skewNs, levels⟩) s fun d => d.regs = s.chip.regs ∧ (d.lane l).carry = w.drop n ∧
           d.stkMem = s.chip.stkMem) ∧
       ∀ p, findComma nrz n 0 w = some p → w.length < p + (if nrz then 5344 else 2672) →
         Completes (.blockReceive l ⟨skewNs, levels⟩) s fun d => d.fld (LANE_STATUS.ALIGN l) = 1 ∧ (d.lane l).run = 0 ∧
           (d.lane l).carry = w.drop p ∧ d.stkMem = s.chip.stkMem ∧ ∀ a, a ≠ LANE_STATUS l → d.reg a = s.chip.reg a) ∧
     (s.chip.laneLocked l = true → s.chip.turning l = false → s.chip.inService l = false →
       Completes (.lossOfLock l) s fun d => d.fld (LANE_STATUS.ALIGN l) = 0 ∧ (d.lane l).eye = none ∧
         d.stkMem = s.chip.stkMem) ∧
     ((s.chip.lane l).impaired = true → s.chip.inService l = true → (s.chip.lane l).out = .in_ →
       ((s.chip.group (lnkOf l) (s.chip.fld (LANE_STATUS.DIR l))).any fun m => m != l && (s.chip.lane m).out == .in_) = true →
       Completes (.laneImpaired l) s fun d => (d.lane l).out = .leaving ∧
         (d.link (lnkOf l)).lmcs = (s.chip.link (lnkOf l)).lmcs ++ [{ code := 0x23, body := toBytes 1 (s.chip.linkLane l) ++ toBytes 1 1, urgent := false }] ∧
         d.stkMem = s.chip.stkMem) ∧
     (s.chip.sends l = true → s.chip.effLoop l = 0 → (s.chip.link (lnkOf l)).sleepGo = none →
       Completes (.blockTransmit l) s fun d => (∃ levels, d.out = [.symbols l levels]) ∧
         (d.lane l).txBcnt = ((s.chip.lane l).txBcnt + 1) % 65536 ∧ (d.lane l).epbDue = false ∧
         (d.lane l).idle = decide ((s.chip.lane l).txState = 2) ∧ d.stkMem = s.chip.stkMem)) ∧
  (∀ s : State, ∀ l : Fin 8,
     (∀ v, pagePresent s.chip.part (0x10 + l) = true → quietMaint s.chip → (s.chip.lane l).eye = none → bit v 31 = true →
       s.chip.fld (LANE_STATUS.DIR l) = 0 → s.chip.laneLocked l = true → (EYE_CTRL.EYE l).get v = 1 →
       Completes (.eyeScanStart l v) s fun d => (d.lane l).eye.isSome = true ∧ d.on (EYE_STATUS.BUSY l) = true ∧
         d.on (EYE_CTRL.START l) = true ∧ d.locked (.lane l) = true ∧ d.stkMem = s.chip.stkMem) ∧
     (∀ v, (s.chip.lane l).eye.isSome = true → bit v 30 = true →
       Completes (.eyeScanAbort l v) s fun d => (d.lane l).eye = none ∧ d.on (EYE_STATUS.BUSY l) = false ∧
         d.fld (EYE_STATUS.RESULT l) = 2 ∧ d.stkMem = s.chip.stkMem) ∧
     (∀ errors e, (s.chip.lane l).eye = some e →
       Completes (.eyeScanPoint l errors) s fun d =>
         d.fld ⟨EYE_RESULT l (e.next / 2), 16 * (e.next % 2), 16⟩ = min errors 0xFFFE ∧ d.stkMem = s.chip.stkMem ∧
         (d.lane l).eye = (eyeNext e.cross (e.next + 1)).map fun j => { e with next := j }))

/-- Loopback and pattern modes, and a retrain of one lane. (R90, R98.) -/
def Obligations.LaneModes : Prop :=
  (∀ s : State, ∀ l : Fin 8, ∀ v, pagePresent s.chip.part (0x10 + l) = true →
     (quietMaint s.chip → s.chip.fld (LANE_CTRL.LOOP l) = 0 →
       ∀ i ∈ [(1, Instr.nearEndSerial l v), (2, .nearEndParallel l v), (3, .farEndRetimed l v), (4, .pattern l v)],
         (LANE_CTRL.LOOP l).get v = i.1 →
         Completes i.2 s fun d => d.fld (LANE_CTRL.LOOP l) = i.1 ∧ d.locked (.lane l) = true ∧ d.reg (PRBS_ERR l) = 0 ∧
           d.out = [.loopMode l i.1 (s.chip.loopEffective l)] ∧ d.stkMem = s.chip.stkMem) ∧
     ((LANE_CTRL.LOOP l).get v = 0 →
       Completes (.loopNone l v) s fun d => d.fld (LANE_CTRL.LOOP l) = 0 ∧ d.reg (PRBS_ERR l) = 0 ∧ d.out = [] ∧
         d.stkMem = s.chip.stkMem)) ∧
  (∀ s : State, ∀ l : Fin 8,
     (∀ v, pagePresent s.chip.part (0x10 + l) = true → quietMaint s.chip → bit v 8 = true → (s.chip.lane l).retraining = false →
       s.chip.inService l = false →
       Completes (.laneEqRetrain l v) s fun d => d.on (LANE_EQ_CTRL.RETRAIN l) = true ∧ d.fld (LANE_STATUS.EQ_STATE l) = 1 ∧
         (d.lane l).retraining = true ∧ d.locked (.lane l) = true ∧ d.stkMem = s.chip.stkMem) ∧
     (∀ taps, (s.chip.lane l).retraining = true →
       Completes (.adaptationComplete l true taps) s (fun d => (d.lane l).retraining = false ∧ (d.lane l).out = .laneInSent ∧
         d.laneLocked l = true ∧ d.fld (LANE_STATUS.EQ_STATE l) = 7 ∧ d.stkMem = s.chip.stkMem) ∧
       Completes (.adaptationComplete l false taps) s (fun d => (d.lane l).retraining = false ∧ (d.lane l).out = .failed ∧
         d.fld (LANE_STATUS.EQ_STATE l) = 8 ∧ d.stkMem = s.chip.stkMem)))

/-- ACK, ACK_REQ and the timeout of an ACK_REQ. (R108, R109, R115-R118; log entry 84.) -/
def Obligations.AcknowledgementAndRecovery : Prop :=
  ∀ s : State, ∀ k,
    (∀ m : AckMsg, s.chip.linkUp k = true → (s.chip.link k).again = [] →
      (∀ e ∈ (s.chip.link k).replay, s.chip.entryAck m e = some false) →
      Completes (.ack k m) s fun d => (d.link k).replay = [] ∧ (d.link k).ackReqs = 0 ∧ (d.link k).credits = (s.chip.link k).credits ∧
        d.regs = s.chip.regs ∧ d.stkMem = s.chip.stkMem) ∧
    (s.chip.linkUp k = true →
      Completes (.ackReq k) s fun d =>
        (d.link k).lmcs = (s.chip.link k).lmcs ++ [{ code := 0x01, body := s.chip.ackBody k, urgent := false }] ∧ d.regs = s.chip.regs ∧
        d.stkMem = s.chip.stkMem) ∧
    (s.chip.linkUp k = false →
      Completes (.ackReq k) s (fun d => d = { s.chip with out := [] }) ∧
      Completes (.ackReqTimeout k) s fun d => d = { s.chip with out := [] }) ∧
    (s.chip.linkUp k = true → (s.chip.link k).replay ≠ [] → 3 ≤ (s.chip.link k).ackReqs → (s.chip.link k).turn = none →
      Completes (.ackReqTimeout k) s fun d => d.linkState k = 3 ∧ (d.link k).recStep = 3 ∧ d.stkMem = s.chip.stkMem) ∧
    (s.chip.linkUp k = true → (s.chip.link k).replay ≠ [] → (s.chip.link k).ackReqs < 3 →
      Completes (.ackReqTimeout k) s fun d => (d.link k).ackReqs = (s.chip.link k).ackReqs + 1 ∧
        (d.link k).lmcs = (s.chip.link k).lmcs ++ [{ code := 0x02, body := [], urgent := true }] ∧ d.regs = s.chip.regs ∧
        d.stkMem = s.chip.stkMem)

/-- Recovery, escalation, retrain and the counters of a link. (R125, R129, R137; log entries 84, 97.) -/
def Obligations.LinkRecoveryAndRetrain : Prop :=
  ∀ s : State, ∀ k,
    (∀ reason, s.chip.linkUp k = true → (s.chip.link k).turn = none →
      Completes (.recover k reason) s fun d => d.linkState k = 3 ∧ (d.link k).recStep = 3 ∧
        d.fld (LINK_CNT.RECOVERIES k.idx) = min (s.chip.fld (LINK_CNT.RECOVERIES k.idx) + 1) (2 ^ (LINK_CNT.RECOVERIES k.idx).width - 1) ∧
        (∀ l ∈ pairs k, s.chip.inService l = true → s.chip.sends l = true → ∃ levels, .symbols l levels ∈ d.out) ∧
        d.stkMem = s.chip.stkMem) ∧
    (s.chip.linkState k = 3 →
      Completes (.recoveryEscalate k) s fun d => d.linkState k = 1 ∧ (d.link k).step = 2 ∧ d.on (LINK_CTRL.RECOVER k.idx) = false ∧
        d.stkMem = s.chip.stkMem) ∧
    (∀ v, s.chip.linkPresent k = true → s.chip.mayTrain k = true → bit v 9 = true →
      Completes (.retrain k v) s fun d => d.linkState k = 1 ∧ (d.link k).step = 2 ∧ d.on (LINK_CTRL.RETRAIN k.idx) = true ∧
        d.stkMem = s.chip.stkMem) ∧
    (∀ v, s.chip.linkPresent k = true → s.chip.linkUp k = true → bit v 8 = true → bit v 9 = false →
      Completes (.linkRecover k v) s fun d => d.linkState k = 3 ∧ d.on (LINK_CTRL.RECOVER k.idx) = true ∧ d.stkMem = s.chip.stkMem) ∧
    (∀ v, s.chip.linkPresent k = true → bit v 10 = true → bit v 9 = false → bit v 8 = false →
      Completes (.linkCntClr k v) s fun d => d.reg (LINK_CNT k.idx) = 0 ∧ d.reg (REPLAY_CNT k.idx) = 0 ∧
        d.reg (STREAM_LOST k.idx) = 0 ∧ (∀ i : Fin 64, d.reg (FEC k.idx 0 i) = 0) ∧ d.links = s.chip.links ∧ d.stkMem = s.chip.stkMem)

/-- The steps of link training. (R119, R123-R125, R88.) -/
def Obligations.LinkTraining : Prop :=
  ∀ s : State, ∀ k,
    (s.chip.mayTrain k = true → s.chip.linkState k = 0 →
      Completes (.trainingAttemptStart k) s fun d => d.linkState k = 1 ∧ (d.link k).step = 2 ∧
        (d.link k).lmcs.map (·.code) = [0x10] ∧ d.stkMem = s.chip.stkMem) ∧
    (∀ m : AdvMsg, s.chip.linkState k = 1 → (s.chip.link k).step = 3 → m.chosen.toNat ≠ 0 → m.chosen.toNat = (s.chip.link k).chosenTx →
      Completes (.adv k m) s fun d => (d.link k).step = 4 ∧ (d.link k).partner = some m ∧ d.regs = s.chip.regs ∧
        d.stkMem = s.chip.stkMem) ∧
    (s.chip.linkState k = 1 → (s.chip.link k).step = 4 → s.chip.copp.slices = [] →
      Completes (.pllRelock k) s fun d => (d.link k).step = 5 ∧
        d.fld (LINK_STATUS.VERSION k.idx) = (s.chip.link k).chosenTx / 16 % 4 ∧
        d.fld (LINK_STATUS.RATE k.idx) = ((s.chip.link k).chosenTx % 16 - 1) % 4 ∧ d.stkMem = s.chip.stkMem) ∧
    (∀ qs, s.chip.linkState .ul = 1 → ∀ (l : Fin 4) q, qs[l.val]? = some q → q.mode.toNat ≠ 0 → s.chip.fld (LANE_STATUS.DIR l) = 1 →
      Completes (.eq .ul qs) s fun d => d.reg (TAP_SET l 0) = ffeWord (ffeApply (ffeOf (s.chip.reg (TAP_SET l 0))) q).1 ∧
        d.stkMem = s.chip.stkMem) ∧
    (∀ np p cpl mgt, s.chip.linkState k = 1 → (s.chip.link k).step = 7 →
      (∀ l ∈ pairs k, s.chip.fld (LANE_STATUS.DIR l) = resetDir l) →
      Completes (.creditInit k np p cpl mgt) s fun d => (d.link k).creditRx = true ∧
        (d.link k).credits = { np := np.toNat, p := p.toNat, cpl := cpl.toNat, mgt := mgt.toNat } ∧ d.regs = s.chip.regs ∧
        d.stkMem = s.chip.stkMem) ∧
    (s.chip.linkState k = 1 → (s.chip.link k).step ≠ 0 →
      Completes (.trainingStepTimeout k) s fun d => (d.link k).step = 0 ∧ d.stkMem = s.chip.stkMem)

/-- Lanes leave and join service. (R127.) -/
def Obligations.LanesLeaveAndJoin : Prop :=
  ∀ s : State, ∀ k, ∀ lane : Fin 4,
    (∀ reason, s.chip.linkUp k = true → s.chip.inService (s.chip.pairOf k lane) = true →
      (s.chip.lane (s.chip.pairOf k lane)).out = .in_ →
      ((s.chip.group (lnkOf (s.chip.pairOf k lane)) (s.chip.fld (LANE_STATUS.DIR (s.chip.pairOf k lane)))).any fun m =>
        m != s.chip.pairOf k lane && (s.chip.lane m).out == .in_) = true →
      Completes (.laneOut k lane reason) s fun d => (d.lane (s.chip.pairOf k lane)).out = .leaving ∧ d.regs = s.chip.regs ∧
        d.links = s.chip.links ∧ d.stkMem = s.chip.stkMem) ∧
    ((s.chip.lane (s.chip.pairOf k lane)).out ≠ .in_ → (s.chip.lane (s.chip.pairOf k lane)).out ≠ .failed →
      Completes (.laneIn k lane) s fun d => (d.lane (s.chip.pairOf k lane)).partnerIn = true ∧ d.regs = s.chip.regs ∧
        d.links = s.chip.links ∧ d.stkMem = s.chip.stkMem) ∧
    ((s.chip.lane (s.chip.pairOf k lane)).out = .laneInSent → (s.chip.lane (s.chip.pairOf k lane)).partnerIn = false →
      Completes (.laneInTimeout k lane) s fun d => (d.lane (s.chip.pairOf k lane)).out = .failed ∧
        d.fld (LANE_STATUS.EQ_STATE (s.chip.pairOf k lane)) = 8 ∧ d.stkMem = s.chip.stkMem)

/-- HOLD, link sleep and wake. (R131-R133.) -/
def Obligations.HoldAndSleep : Prop :=
  ∀ s : State, ∀ k,
    (∀ e, s.chip.linkUp k = true →
      Completes (.hold k e) s fun d => d.on (LINK_STATUS.HOLD_RX k.idx) = true ∧ (d.link k).holdWait = true ∧
        d.stkMem = s.chip.stkMem ∧ ∀ a, a ≠ LINK_STATUS k.idx → d.reg a = s.chip.reg a) ∧
    (s.chip.on (LINK_STATUS.HOLD_RX k.idx) = true → 4 < (s.chip.link k).holdEpochs →
      s.chip.pageOn (evSource (evOf k 54 60)).page = true →
      Completes (.holdOverrun k) s fun d => d.firings.map (·.src) = s.chip.firings.map (·.src) ++ [evOf k 54 60] ∧
        d.regs = s.chip.regs ∧ d.stkMem = s.chip.stkMem) ∧
    (∀ level : BitVec 8, s.chip.linkUp k = true → (s.chip.link k).sleepWant = none →
      if s.chip.sleepAnswer k level.toNat = 0 then
        Completes (.sleepReq k level) s fun d => d.regs = s.chip.regs ∧ d.stkMem = s.chip.stkMem ∧ d.lanes = s.chip.lanes ∧
          (d.link k).sleepGo = some level.toNat ∧
          (d.link k).lmcs = (s.chip.link k).lmcs ++ [{ code := 0x41, body := [0], urgent := false }]
      else
        Completes (.sleepReq k level) s fun d => d.regs = s.chip.regs ∧ d.stkMem = s.chip.stkMem ∧ d.lanes = s.chip.lanes ∧
          (d.link k).lmcs = (s.chip.link k).lmcs ++ [{ code := 0x41, body := toBytes 1 (s.chip.sleepAnswer k level.toNat), urgent := false }]) ∧
    (∀ level, ∀ l : Fin 8, lnkOf l = k → (s.chip.link k).sleepGo = some level → level ≤ 2 → s.chip.effLoop l = 0 →
      (s.chip.link k).wakeDue = false →
      (∀ m ∈ (s.chip.link k).lmcs, m.code ≠ 0x41) →
      Completes (.blockTransmit l) s fun d => d.linkState k = 3 + level ∧ (d.link k).sleepLevel = level ∧
        (d.link k).sleepGo = none ∧ d.stkMem = s.chip.stkMem) ∧
    (∀ level, (s.chip.link k).sleepWant = some level → s.chip.linkUp k = true → s.chip.seq.target = 0 → level ≤ 2 →
      (s.chip.link k).wakeDue = false →
      Completes (.sleepAck k 0) s fun d => d.linkState k = 3 + level ∧ (d.link k).sleepWant = none ∧ d.stkMem = s.chip.stkMem) ∧
    (s.chip.linkAsleep k = true → (s.chip.link k).wakeSent = false → s.chip.sstate ≤ 1 → (s.chip.link k).sleepGo = none →
      (s.chip.link k).sleepWant = none →
      Completes (.linkWake k) s (fun d => d.out = [.wakePattern k] ∧ (d.link k).wakeSent = true ∧ d.stkMem = s.chip.stkMem) ∧
      ∀ l : Fin 8, lnkOf l = k →
        Completes (.activityDetect l) s fun d => d.out = [.wakePattern k] ∧ (d.link k).wakeSent = true ∧ d.stkMem = s.chip.stkMem) ∧
    (s.chip.linkAsleep k = true → (s.chip.link k).wakeSent = true →
      Completes (.wakePatternEnd k) s fun d => d.linkUp k = true ∧ (d.link k).wakeSent = false ∧ (d.link k).sleepLevel = 0 ∧
        d.stkMem = s.chip.stkMem)

/-- The turnaround exchange and the turn of a lane. (R101, R102, R128; log entries 36, 86.) -/
def Obligations.Turnaround : Prop :=
  (∀ s : State, ∀ k,
     (∀ a m last, s.chip.linkState k ≠ 0 → s.chip.linkState k ≠ 7 → s.chip.schedules k = true →
       Completes (.turnReq k a m last) s fun d => d.regs = s.chip.regs ∧ d.stkMem = s.chip.stkMem ∧
         (d.link k).lmcs = (s.chip.link k).lmcs ++ [{ code := 0x21, body := [2, 0, 0, 0, 0, 0, 0], urgent := true }]) ∧
     (∀ a m last, s.chip.maySwing k a m.toNat = true → quietMaint s.chip →
       Completes (.turnReq k a m last) s fun d => d.stkMem = s.chip.stkMem ∧
         ((d.link k).turn.map fun t => (t.target, t.lanes, t.decider)) = some (a, s.chip.lanesOfMask k m.toNat, false) ∧
         ∃ b, (d.link k).lmcs = (s.chip.link k).lmcs ++ [{ code := 0x21, body := [0, 0, 0] ++ b, urgent := true }]) ∧
     (∀ t last, (s.chip.link k).turn = some t → t.decider = true → t.acked = false → t.pastConfirm = false →
       Completes (.turnAck k 0 last) s fun d => (d.link k).turn = some { t with acked := true, go := true } ∧
         (d.link k).lmcs = (s.chip.link k).lmcs ++ [{ code := 0x22, body := [], urgent := true }] ∧ d.regs = s.chip.regs ∧ d.stkMem = s.chip.stkMem) ∧
     (∀ t, (s.chip.link k).turn = some t → t.decider = false → t.go = false →
       Completes (.turnGo k) s fun d => (d.link k).turn = some { t with go := true } ∧ d.regs = s.chip.regs ∧
         d.stkMem = s.chip.stkMem) ∧
     (∀ t, (s.chip.link k).turn = some t → t.pastConfirm = false →
       Completes (.turnConfirmDeadline k) s fun d => d.stkMem = s.chip.stkMem ∧
         (d.link k).turn = some { t with lanes := t.lanes.filter fun l => (s.chip.lane l).confirmed, pastConfirm := true }) ∧
     (∀ t, (s.chip.link k).turn = some t → t.pastReady = false → t.epoch ≠ 0 → (∀ l ∈ t.lanes, (s.chip.lane l).ready = true) →
       Completes (.turnReadyDeadline k) s fun d => (d.link k).turn = some { t with pastReady := true } ∧ d.regs = s.chip.regs ∧
         d.stkMem = s.chip.stkMem) ∧
     (∀ t, (s.chip.link k).turn = some t → t.pastReady = false → t.epoch ≠ 0 → t.lanes.Nodup → (∀ l ∈ t.lanes, l ∈ pairs k) →
       Completes (.turnReadyDeadline k) s fun d => d.stkMem = s.chip.stkMem ∧
         (d.link k).turn = some { t with lanes := t.lanes.filter fun l => (s.chip.lane l).ready, pastReady := true } ∧
         (∀ l ∈ t.lanes, (s.chip.lane l).ready = false →
           d.fld (TURN_CNT.ABORTED l) = raised s.chip (TURN_CNT.ABORTED l) ∧ (d.lane l).out = .retrainWanted ∧
             { code := 0x23, body := toBytes 1 (s.chip.linkLane l) ++ [0], urgent := false } ∈ (d.link k).lmcs ∧
             ((s.chip.lane l).released = true → d.fld (LANE_STATUS.DIR l) = s.chip.fld (LANE_STATUS.DIR l)) ∧
             ((s.chip.lane l).released = false → d.fld (LANE_STATUS.DIR l) = 1 - s.chip.fld (LANE_STATUS.DIR l))) ∧
         ∀ l : Fin 8, (l.val ∉ t.lanes ∨ (s.chip.lane l).ready = true) → d.lane l = s.chip.lane l)) ∧
  (∀ s : State, ∀ l : Fin 8, s.chip.turning l = true → (s.chip.lane l).confirmed = true →
     ((s.chip.lane l).released = false → s.chip.sends l = true →
       Completes (.turnQuiet l) s fun d => (∃ levels, d.out = [.symbols l levels]) ∧ d.fld (LANE_STATUS.DIR l) = 0 ∧ (d.lane l).released = true ∧
         d.inService l = false ∧ d.stkMem = s.chip.stkMem) ∧
     ((s.chip.lane l).released = false → s.chip.fld (LANE_STATUS.DIR l) = 0 →
       Completes (.turnReceiverRelease l) s fun d => d.fld (LANE_STATUS.DIR l) = 1 ∧ d.fld (LANE_STATUS.ALIGN l) = 3 ∧
         (d.lane l).released = true ∧ (d.lane l).idle = true ∧ d.inService l = false ∧ d.stkMem = s.chip.stkMem) ∧
     ((s.chip.lane l).released = true → (s.chip.lane l).idle = true → s.chip.fld (LANE_STATUS.DIR l) = 1 →
       Completes (.rejoinStart l) s fun d => d.out = [.rejoin l] ∧ (d.lane l).idle = false ∧ (d.lane l).txState = 3 ∧
         d.regs = s.chip.regs ∧ d.stkMem = s.chip.stkMem) ∧
     ((s.chip.lane l).released = true → (s.chip.lane l).idle = false →
       (s.chip.fld (LANE_STATUS.DIR l) = 1 ∨ s.chip.laneLocked l = true ∧ (s.chip.lane l).skew ≤ 180 →
         Completes (.turnLaneReady l) s fun d => (d.lane l).ready = true ∧ d.regs = s.chip.regs ∧ d.stkMem = s.chip.stkMem) ∧
       (s.chip.fld (LANE_STATUS.DIR l) = 0 → 180 < (s.chip.lane l).skew →
         Completes (.turnLaneReady l) s fun d => d = { s.chip with out := [] })))

/-- ALLOT and DEMAND between the ends, and the flow table. (R140-R151, R159, R160, R164; log entries 37, 94.) -/
def Obligations.GrantsAndFlows : Prop :=
  (∀ s : State, ∀ k, s.chip.linkUp k = true →
     (∀ m, s.chip.schedules k = false → (s.chip.link k).grant.late m.epoch.toNat = false →
       Completes (.allot k m) s fun d => (d.link k).grant.epoch = m.epoch.toNat ∧ m ∈ (d.link k).grant.parts ∧
         d.regs = s.chip.regs ∧ d.stkMem = s.chip.stkMem) ∧
     (∀ m, s.chip.schedules k = true → (s.chip.sched k).collect = [] → m.parts = 1 → m.index = 0 →
       Completes (.demand k m) s fun d => (d.sched k).stale = 0 ∧ (d.sched k).collect = [] ∧
         (d.sched k).demand = some { epoch := m.epoch.toNat, parts := 1, entries := m.entries } ∧ d.stkMem = s.chip.stkMem) ∧
     (s.chip.schedules k = false → (s.chip.link k).turn = none → (s.chip.link k).grant.parts = [] → 
       (∀ l ∈ pairs k, (s.chip.lane l).out = .in_) →
       Completes (.partnerEpochBegin k) s fun d => (d.link k).grant.epochNow = ((s.chip.link k).grant.epochNow + 1) % 65536 ∧
         d.stkMem = s.chip.stkMem)) ∧
  (∀ s : State, ∀ f : Fin 256,
     (∀ v, f.val < 3 → s.chip.pageLocked (0xB + f / 64) = false → s.chip.fld ROUT_STATUS.STATE ≠ 1 →
       Completes (.flowCfg f v) s fun d => d.fld (FLOW_STATE.ADMIT f) = 5 ∧ d.fld CIRC_ADMIT.RESULT = 5 ∧ d.fld CIRC_ADMIT.FLOW = f ∧
         d.flows = s.chip.flows ∧ d.stkMem = s.chip.stkMem) ∧
     (∀ v, 3 ≤ f.val → s.chip.pageLocked (0xB + f / 64) = false → s.chip.fld ROUT_STATUS.STATE ≠ 1 → v.getLsbD 31 = false →
       s.chip.flowState f = 1 →
       Completes (.flowCfg f v) s fun d => d.fld CIRC_ADMIT.RESULT = 1 ∧ d.fld CIRC_ADMIT.FLOW = f ∧ d.flowState f = 2 ∧
         (∀ k, ∀ dir : Fin 2, d.guarSum k dir + s.chip.halfFor k dir f (s.chip.flow f).guar = s.chip.guarSum k dir) ∧
         (d.flow f).drain = 64 ∧ d.stkMem = s.chip.stkMem) ∧
     (∀ v, 3 ≤ f.val → s.chip.pageLocked (0xB + f / 64) = false → s.chip.fld ROUT_STATUS.STATE ≠ 1 → v.getLsbD 31 = false →
       s.chip.flowState f = 3 →
       Completes (.flowCfg f v) s fun d => d.fld (FLOW_STATE.ADMIT f) = 1 ∧ d.flowState f = 2 ∧ (d.flow f).drain = 64 ∧
         (s.chip.draining f = false → ∀ k, ∀ dir : Fin 2, d.guarSum k dir + s.chip.halfFor k dir f (s.chip.flow f).guar = s.chip.guarSum k dir) ∧
         (d.keyFlow f).held = [] ∧ (d.flow f).rekeyIn = 0 ∧ d.stkMem = s.chip.stkMem) ∧
     (∀ v, 3 ≤ f.val → s.chip.pageLocked (0xB + f / 64) = false → s.chip.fld ROUT_STATUS.STATE ≠ 1 → v.getLsbD 31 = true →
       let g := s.chip.reg (FLOW_GUAR f)
       let l := s.chip.reg (FLOW_CEIL f)
       let live := s.chip.flowState f
       let was := if live = 0 then 0 else (s.chip.flow f).guar
       let kept (x : Nat → Fld) : Bool := (x f).get v == s.chip.fld (x f)
       let cls := (FLOW_CFG.CLASS f).get v
       let refused (code : Nat) : Prop := Completes (.flowCfg f v) s fun d => d.fld (FLOW_STATE.ADMIT f) = code ∧
         d.fld CIRC_ADMIT.RESULT = code ∧ d.fld CIRC_ADMIT.FLOW = f ∧ d.flows = s.chip.flows ∧ d.flowState f = live ∧
         d.reg (FLOW_CFG f) = s.chip.reg (FLOW_CFG f) ∧ d.reg (FLOW_GUAR f) = (s.chip.flow f).guar ∧
         d.reg (FLOW_CEIL f) = (s.chip.flow f).ceil ∧ d.reg (FLOW_DECL f) = (s.chip.flow f).decl ∧ d.stkMem = s.chip.stkMem
       let after := s.chip.withEntry f v g l (s.chip.reg (FLOW_DECL f)) (s.chip.newFlowState f)
       let dirs : List (Lnk × Nat) := [(.ul, 0), (.ul, 1), (.cs, 0), (.cs, 1)]
       let raises : Prop := halfIn was < halfIn g ∨ halfOut was < halfOut g
       (s.chip.draining f = true → refused 7) ∧
       (s.chip.draining f = false →
         (live ≠ 0 ∧ (kept FLOW_CFG.CLASS && kept FLOW_CFG.ENC && kept FLOW_CFG.SIDE && kept FLOW_CFG.BEAM_HEAD &&
             kept FLOW_CFG.ENDPOINT) = false ∨
           cls = 1 ∧ (halfIn g ≠ 0 ∨ halfOut g ≠ 0 ∨ halfIn l ≠ 0 ∨ halfOut l ≠ 0) ∨
           halfIn l ≠ 0 ∧ halfIn l < halfIn g ∨ halfOut l ≠ 0 ∧ halfOut l < halfOut g ∨
           cls = 2 ∧ (halfIn l ≠ 0 ∧ halfIn l ≠ halfIn g ∨ halfOut l ≠ 0 ∧ halfOut l ≠ halfOut g) ∨
           (cls = 1 ∨ cls = 3 ∨ cls = 4) ∧ (FLOW_CFG.WEIGHT f).get v = 0 → refused 4) ∧
         (s.chip.badCommit f v g l = false →
           (¬raises →
             Completes (.flowCfg f v) s fun d => d.fld (FLOW_STATE.ADMIT f) = 1 ∧ d.fld CIRC_ADMIT.RESULT = 1 ∧
               d.fld CIRC_ADMIT.FLOW = f ∧ d.flowState f = (if live = 3 then 3 else 1) ∧ (d.flow f).guar = g ∧ (d.flow f).ceil = l ∧
               (d.flow f).decl = s.chip.reg (FLOW_DECL f) ∧ (∀ n : Fin 256, n ≠ f → d.flow n = s.chip.flow n) ∧
               d.stkMem = s.chip.stkMem) ∧
           (raises → (dirs.any fun p => s.chip.schedules p.1 && s.chip.on (s.chip.shortfallFlag p.1 p.2)) = false →
             (dirs.any fun p => s.chip.schedules p.1 && decide (admissionLimit (s.chip.capAdmit p.1 p.2) < after.guarSum p.1 p.2)) = true →
             refused 2) ∧
           (raises → (dirs.any fun p => s.chip.schedules p.1 && (s.chip.on (s.chip.shortfallFlag p.1 p.2) ||
               decide (admissionLimit (s.chip.capAdmit p.1 p.2) < after.guarSum p.1 p.2))) = false →
             (after.pointFits s.chip.fitOp = false → refused 3) ∧
             (after.pointFits s.chip.fitOp = true →
               Completes (.flowCfg f v) s fun d => d.fld (FLOW_STATE.ADMIT f) = 1 ∧ (d.flow f).guar = g ∧ (d.flow f).ceil = l ∧
                 d.flowState f = (if live = 3 then 3 else 1) ∧ d.stkMem = s.chip.stkMem))))) ∧
     (3 ≤ f.val → ∀ n, s.chip.nextSpare kFlow 0 = some n →
       Completes (.flowEntryParityError f .oneCopy) s fun d => d.flowState f = s.chip.flowState f ∧
         (d.flow f).guar = (s.chip.flow f).guar ∧ (∃ e ∈ d.copp.map, e.kind = kFlow ∧ e.orig = f ∧ e.spare = n ∧ e.retired = false) ∧
         (∀ a, 0xB ≤ pageOf a → pageOf a ≤ 0xE → d.reg a = s.chip.reg a) ∧ d.stkMem = s.chip.stkMem) ∧
     (∀ w v, 3 ≤ f.val →
       Completes (.flowStageWrite f w v) s fun d => d.flows = s.chip.flows ∧ d.stkMem = s.chip.stkMem ∧
         (s.chip.pageLocked (0xB + f / 64) = false → d.reg (stagedAddr f w) &&& 0x0FFF0FFF = v &&& 0x0FFF0FFF)) ∧
     (3 ≤ f.val → s.chip.flowState f ≠ 0 →
       Completes (.flowEntryParityError f .bothCopies) s fun d => d.flowState f = 4 ∧ (d.flow f).lost = true ∧ d.outQ .ul f = [] ∧
         d.outQ .cs f = [] ∧ d.stkMem = s.chip.stkMem) ∧
     (∀ v, bit v 10 = true → Completes (.circCntClr v) s fun d => d.reg (FLOW_CNT f) = 0 ∧ d.reg (SCHED 0 7) = 0 ∧
       d.reg (SCHED 1 7) = 0 ∧ d.flows = s.chip.flows ∧ d.stkMem = s.chip.stkMem))

/-- Bridge requests: Stacks, registers, prefetched reads and refusals. (R168, R171-R181; log entry 43.) -/
def Obligations.BridgeRequests : Prop :=
  ∀ s : State, ∀ k, ∀ f : Fin 256, ∀ typ : Fin 8, ∀ bytes a,
    let q : Arrived := ⟨k, f, typ, bytes⟩
    let c := s.chip.counted q
    let t := c.targetOf q
    s.chip.takesOn f = true → c.on (FLOW_CFG.ENC f) = false →
    (c.planOf q = .stkAt a → (q.op = 1 → (∀ w, q.win = some w → c.on (WIN_CTRL.PREFETCH w) = false) → c.stkBadIn a q.span = false →
      Completes (.read k f typ bytes) s fun d => d.regs = c.regs ∧ d.stkMem = s.chip.stkMem ∧
        d.outQ k f = s.chip.outQ k f ++ cellsOfMessage (cplClass f) s.chip.epoch
          (completionBytes q.hdr 0 (layOut (c.orderOf q) q.width t (s.chip.stkRead a q.span)))) ∧
    (q.op = 2 → typ.val ≠ clsP →
      Completes (.writeNonPosted k f typ bytes) s fun d =>
        d.outQ k f = s.chip.outQ k f ++ cellsOfMessage (cplClass f) s.chip.epoch (completionBytes q.hdr 0 []) ∧
        ∀ x, d.stk x = if a ≤ x ∧ x < a + q.span then (takeOut (c.orderOf q) q.width t q.span q.data).getD (x - a) 0
          else s.chip.stk x) ∧
    (q.op = 2 → typ.val = clsP →
      Completes (.writePosted k f typ bytes) s fun d => d.queues = s.chip.queues ∧
        ∀ x, d.stk x = if a ≤ x ∧ x < a + q.span then (takeOut (c.orderOf q) q.width t q.span q.data).getD (x - a) 0
          else s.chip.stk x)) ∧
    (∀ w b, q.op = 1 → q.win = some w → (∀ st, c.planOf q ≠ .refuse st) → c.prefetchFor w (planKey t (c.planOf q)) q.span = some b →
      (∀ x ∈ burstsOf (planKey t (c.planOf q)) q.span, x ∉ b.bad) →
      Completes (.read k f typ bytes) s fun d => d.stkMem = s.chip.stkMem ∧ d.fld PF_HIT.COUNT = raised s.chip PF_HIT.COUNT ∧
        d.outQ k f = s.chip.outQ k f ++ cellsOfMessage (cplClass f) s.chip.epoch
          (completionBytes q.hdr 0 (layOut (c.orderOf q) q.width t ((b.data.drop (planKey t (c.planOf q) - b.addr)).take q.span)))) ∧
    (∀ w, q.op = 1 → q.win = some w → c.planOf q = .stkAt a → c.on (WIN_CTRL.PREFETCH w) = true → c.prefetchFor w t q.span = none →
      c.stkBadIn a q.span = false → c.aheadSpan w (t + q.span) 0 false ≠ 0 →
      Completes (.read k f typ bytes) s fun d => d.stkMem = s.chip.stkMem ∧
        d.outQ k f = s.chip.outQ k f ++ cellsOfMessage (cplClass f) s.chip.epoch
          (completionBytes q.hdr 0 (layOut (c.orderOf q) q.width t (s.chip.stkRead a q.span))) ∧
        ∃ b, (w, b) ∈ d.prefetch ∧ b.addr = t + q.span ∧ b.epoch = s.chip.epoch ∧ b.lnk = k ∧
          b.data = s.chip.stkRead (a + q.span) (c.aheadSpan w (t + q.span) 0 false)) ∧
    (c.planOf q = .reg a → q.count = 1 → pagePresent s.chip.part (pageOf a) = true →
      (q.op = 1 → (∀ w, q.win = some w → c.on (WIN_CTRL.PREFETCH w) = false) → hiOf a = none → s.chip.latch q.path = none →
        Completes (.read k f typ bytes) s fun d => d.regs = c.regs ∧ d.stkMem = s.chip.stkMem ∧
          d.outQ k f = s.chip.outQ k f ++ cellsOfMessage (cplClass f) s.chip.epoch
            (completionBytes q.hdr 0 (layOut (c.orderOf q) q.width t (toBytes 4 (c.readWord a).toNat)))) ∧
      (q.op = 2 → a % 0x1000 = 0x018 → typ.val ≠ clsP →
        Completes (.writeNonPosted k f typ bytes) s fun d => d.stkMem = s.chip.stkMem ∧
          (let m : Word := BitVec.ofNat 32 (2 ^ pageSourceCount (pageOf a) - 1)
            let v : Word := BitVec.ofNat 32 (ofBytes (takeOut (c.orderOf q) q.width t q.span q.data))
            d.reg a = ((s.chip.reg a &&& ~~~m) ||| (v &&& m))) ∧
          d.outQ k f = s.chip.outQ k f ++ cellsOfMessage (cplClass f) s.chip.epoch (completionBytes q.hdr 0 []))) ∧
    ((q.shapeOk && c.typeOk q) = false → c.planOf q = .refuse 5) ∧
    ((q.shapeOk && c.typeOk q) = true →
      (∀ w, q.win = some w → c.on (WIN_CTRL.EN w) = false → c.planOf q = .refuse 4) ∧
      ((∀ w, q.win = some w → c.on (WIN_CTRL.EN w) = true) →
        (q.offset % 2 ^ q.width ≠ 0 ∨ c.remoteWin q = false ∧ isRegister t = true ∧ q.width ≠ 2 → c.planOf q = .refuse 2) ∧
        (q.offset % 2 ^ q.width = 0 → (c.remoteWin q = true ∨ isRegister t = false ∨ q.width = 2) → ∀ w, q.win = some w →
          (c.winSize w ≤ q.offset → c.planOf q = .refuse 1) ∧
          (q.offset < c.winSize w → c.winSize w < q.offset + q.span → c.planOf q = .refuse 3)))) ∧
    (∀ st, c.planOf q = .refuse st →
      let cmd : Instr := if q.op = 1 then .read k f typ bytes else if typ.val = clsP then .writePosted k f typ bytes
        else .writeNonPosted k f typ bytes
      Completes cmd s fun d => d.stkMem = s.chip.stkMem ∧ d.fwd = s.chip.fwd ∧ d.prefetch = s.chip.prefetch ∧
        (typ.val = clsMgmt ∨ typ.val = clsNp → d.outQ k f = s.chip.outQ k f ++ cellsOfMessage (cplClass f) s.chip.epoch
          (completionBytes q.hdr st [])) ∧
        (typ.val = clsP → d.queues = s.chip.queues ∧ (s.chip.fld BRDG_STATUS.LOG_COUNT < 16 →
          d.fld BRDG_STATUS.LOG_COUNT = s.chip.fld BRDG_STATUS.LOG_COUNT + 1)))

/-- Requests sent on, their completions, timeouts and tags. (R176, R183-R186; log entry 44.) -/
def Obligations.BridgeInitiator : Prop :=
  ∀ s : State,
    (∀ t r, s.chip.freeTag = some t → (s.chip.fwd.reqs.find? fun r => r.tag.isNone && s.chip.maySend r) = some r →
      Completes .forwardRequest s fun d => d.fwd.reqs = s.chip.fwd.reqs.replace r { r with tag := some t } ∧
        d.stkMem = s.chip.stkMem ∧ ∀ a, a ≠ BRDG_STATUS → d.reg a = s.chip.reg a) ∧
    (∀ k, ∀ f : Fin 256, ∀ cls : Fin 8, ∀ bytes write,
      let cmd : Instr := if write then .writeCpl k f cls bytes else .readCpl k f cls bytes
      (s.chip.awaited k f cls bytes write = none →
        Completes cmd s fun d => d.fld ERR_CNT.LATE = raised s.chip ERR_CNT.LATE ∧ d.fwd = s.chip.fwd ∧
          d.stkMem = s.chip.stkMem ∧ ∀ a, a ≠ ERR_CNT → d.reg a = s.chip.reg a) ∧
      (∀ r kk, ∀ ff : Fin 256, ∀ typ hdr order, s.chip.awaited k f cls bytes write = some r → s.chip.router.phase = 0 →
        s.chip.flowState ff ≠ 4 → r.asker = .sender kk ff typ hdr order → (∀ w, r.win = some w → w < 16) → s.chip.on (FLOW_CFG.ENC ff) = false →
        let status := (bytes.getD 6 0).toNat
        let data := if write = false ∧ (status = 0 ∨ status = 9) then takeOut 0 r.width r.addr r.span (bytes.drop 16) else []
        Completes cmd s fun d => d.fwd.reqs = s.chip.fwd.reqs.erase r ∧ d.stkMem = s.chip.stkMem ∧
          d.outQ kk ff = s.chip.outQ kk ff ++ cellsOfMessage (cplClass ff) s.chip.epoch
            (completionBytes hdr status (layOut order r.width r.here data)))) ∧
    (∀ (t : Fin 256) r kk, ∀ ff : Fin 256, ∀ typ hdr order,
      (s.chip.fwd.reqs.find? fun r => r.tag == some t.val && r.asker != .poll) = some r →
      r.asker = .sender kk ff typ hdr order → (∀ w, r.win = some w → w < 16) → s.chip.on (FLOW_CFG.ENC ff) = false →
      s.chip.router.phase = 0 → s.chip.flowState ff ≠ 4 →
      Completes (.completionTimeout t) s fun d => d.fwd.reqs = s.chip.fwd.reqs.erase r ∧
        d.fwd.stale = s.chip.fwd.stale ++ [t.val] ∧ d.fld ERR_CNT.TIMEOUTS = raised s.chip ERR_CNT.TIMEOUTS ∧
        d.stkMem = s.chip.stkMem ∧ d.outQ kk ff = s.chip.outQ kk ff ++ cellsOfMessage (cplClass ff) s.chip.epoch
          (completionBytes hdr 8 (layOut order r.width r.here []))) ∧
    (∀ t : Fin 256, t.val ∈ s.chip.fwd.stale →
      Completes (.tagReuseTimeout t) s fun d =>
        d = { s.chip with out := [], fwd := { s.chip.fwd with stale := s.chip.fwd.stale.erase t.val } }) ∧
    (∀ w : Fin 16, Completes (.prefetchExpiry w) s fun d => d.stkMem = s.chip.stkMem ∧ d.fwd = s.chip.fwd ∧
      d.prefetch = s.chip.prefetch.filter fun b => !(b.1 == w.val && decide (b.2.epoch + 2 ≤ s.chip.epoch)))

/-- Windows, the error log, and the cascade's position, relay and polls. (R167, R179, R188, R334, R340, R342, R343, R351.) -/
def Obligations.BridgeAndCascade : Prop :=
  (∀ s : State,
     (∀ (w : Fin 16) v, s.chip.on (WIN_CTRL.EN w) = false → bit v 31 = true → s.chip.pageLocked 0x1B = false →
       ((s.chip.writeMasked (WIN_CTRL w) v).badWindow w = false →
         Completes (.windowEnable w v) s fun d => d.on (WIN_CTRL.EN w) = true ∧ d.stkMem = s.chip.stkMem ∧
           d.reg (WIN_CTRL w) &&& 0xFF1F0000 = v &&& 0xFF1F0000 ∧ ∀ a, a ≠ WIN_CTRL w → d.reg a = s.chip.reg a) ∧
       ((s.chip.writeMasked (WIN_CTRL w) v).badWindow w = true →
         Completes (.windowEnable w v) s fun d => d.fld BRDG_STATUS.CFG_IGN = raised s.chip BRDG_STATUS.CFG_IGN ∧
           ∀ a, a ≠ BRDG_STATUS → d.reg a = s.chip.reg a)) ∧
     (∀ (w : Fin 16) v, s.chip.on (WIN_CTRL.EN w) = true → bit v 31 = false →
       Completes (.windowDisable w v) s fun d => d.reg (WIN_CTRL w) = s.chip.reg (WIN_CTRL w) &&& 0x7FFFFFFF ∧
         d.stkMem = s.chip.stkMem ∧ d.prefetch = s.chip.prefetch.filter fun b => b.1 != w.val) ∧
     (∀ v, bit v 0 = true → s.chip.fld BRDG_STATUS.LOG_COUNT ≠ 0 →
       Completes (.rel v) s fun d => d.fld BRDG_STATUS.LOG_COUNT = s.chip.fld BRDG_STATUS.LOG_COUNT - 1 ∧
         d.fld BRDG_STATUS.LOG_OLDEST = (s.chip.fld BRDG_STATUS.LOG_OLDEST + 1) % 16 ∧
         (∀ j : Fin 4, d.reg (BLOG (s.chip.fld BRDG_STATUS.LOG_OLDEST) j) = 0) ∧ d.stkMem = s.chip.stkMem ∧
         ∀ a, a ≠ BRDG_STATUS → (∀ j : Fin 4, a ≠ BLOG (s.chip.fld BRDG_STATUS.LOG_OLDEST) j) → d.reg a = s.chip.reg a) ∧
     (∀ v, bit v 8 = true →
       Completes (.brdgCntClr v) s fun d => d.reg PF_HIT = 0 ∧ d.reg PF_DISCARD = 0 ∧ d.reg ERR_CNT = 0 ∧
         (∀ w : Fin 16, d.reg (WIN_CNT w) = 0) ∧ d.fld BRDG_STATUS.CFG_IGN = 0 ∧ d.stkMem = s.chip.stkMem)) ∧
  (∀ s : State, s.chip.part = .mh4160 →
     (∀ v, s.chip.paired = false →
       Completes (.cascPosnWrite v) s fun d => d.reg CASC_POSN &&& 0x80000003 = v &&& 0x80000003 ∧ d.stkMem = s.chip.stkMem ∧
         ∀ a, a ≠ CASC_POSN → d.reg a = s.chip.reg a) ∧
     (∀ v, s.chip.paired = true → Completes (.cascPosnWrite v) s fun d => d = { s.chip with out := [] }) ∧
     (∀ k v, bit v 31 = true → s.chip.on CASC_RLY_CTRL.GO = false → s.chip.aLink = some k → s.chip.upNow k = true →
       s.chip.fld CASC_RLY_ADDR.ADDR % 4 = 0 →
       (bit v 30 = false → Completes (.relayRead v) s fun d => d.on CASC_RLY_CTRL.GO = true ∧ d.stkMem = s.chip.stkMem ∧
         ∃ r ∈ d.fwd.reqs, r.asker = .relay ∧ r.write = false ∧ r.lnk = k ∧ r.addr = s.chip.fld CASC_RLY_ADDR.ADDR) ∧
       (bit v 30 = true → Completes (.relayWrite v) s fun d => d.on CASC_RLY_CTRL.GO = true ∧ d.stkMem = s.chip.stkMem ∧
         ∃ r ∈ d.fwd.reqs, r.asker = .relay ∧ r.write = true ∧ r.lnk = k ∧ r.addr = s.chip.fld CASC_RLY_ADDR.ADDR ∧
           r.data = toBytes 4 (s.chip.reg CASC_RLY_DATA).toNat)) ∧
     (∀ k, s.chip.pageOn 0x1C = true → s.chip.on CASC_CTRL.POLL_EN = true → s.chip.aLink = some k → s.chip.upNow k = true →
       Completes .presencePoll s fun d => d.stkMem = s.chip.stkMem ∧
         d.fwd.missed = s.chip.fwd.missed + (if s.chip.fwd.reqs.any fun r => r.asker == .poll then 1 else 0) ∧
         ∃ r ∈ d.fwd.reqs, r.asker = .poll ∧ r.write = false ∧ r.lnk = k ∧ r.addr = s.chip.pollAddr k) ∧
     (∀ status data r, (s.chip.fwd.reqs.find? fun r => r.asker == .poll && r.tag.isSome) = some r →
       Completes (.pollCompletion status data) s fun d => d.fwd.missed = 0 ∧ d.stkMem = s.chip.stkMem ∧
         d.fld CASC_STATUS.BEYOND = if status = 0 ∧ s.chip.partnerPart .cs = 0x4160 ∧ data.data.toNat.testBit 29 = true
           then min (1 + data.data.toNat / 2 ^ 24 % 4) 3 else 1) ∧
     (∀ k, s.chip.aLink = some k → s.chip.missLim ≤ s.chip.fwd.missed ∨ s.chip.linkState k = 0 ∨ s.chip.linkState k = 7 →
       Completes .peerAbsent s fun d => d.fld CASC_STATUS.BEYOND = 0 ∧ d.fld CASC_STATUS.PRESENT = 0 ∧ d.fwd.missed = 0 ∧
         d.stkMem = s.chip.stkMem) ∧
     (∀ v, bit v 8 = true → Completes (.cascCntClr v) s fun d => d.reg CASC_CNT = 0 ∧ d.stkMem = s.chip.stkMem ∧
       ∀ a, a ≠ CASC_CNT → a ≠ CASC_CTRL → a ≠ PAGE_STATUS 0x1C → d.reg a = s.chip.reg a))

/-- Surface descriptors, and tile updates into assembly buffers. (R190, R199-R201, R213; log entry 31.) -/
def Obligations.SurfacesAndTiles : Prop :=
  (∀ s : State,
     (∀ (n : Fin 64) v, s.chip.on (SD_CTRL.VALID n) = false → bit v 31 = true → s.chip.pageLocked 0x1E = false →
       ((s.chip.writeMasked (SD_CTRL n) v).badSurface n = false →
         Completes (.surfaceValidate n v) s fun d => d.on (SD_CTRL.VALID n) = true ∧ d.stkMem = s.chip.stkMem ∧
           d.reg (SD_CTRL n) &&& 0xFC000000 = v &&& 0xFC000000 ∧ ∀ a, a ≠ SD_CTRL n → d.reg a = s.chip.reg a) ∧
       ((s.chip.writeMasked (SD_CTRL n) v).badSurface n = true →
         Completes (.surfaceValidate n v) s fun d => d.fld SURF_STATUS.CFG_IGN = raised s.chip SURF_STATUS.CFG_IGN ∧
           ∀ a, a ≠ SURF_STATUS → d.reg a = s.chip.reg a)) ∧
     (∀ (n : Fin 64) v, s.chip.on (SD_CTRL.VALID n) = true → bit v 31 = false →
       Completes (.surfaceInvalidate n v) s fun d => d.reg (SD_CTRL n) = s.chip.reg (SD_CTRL n) &&& 0x7FFFFFFF ∧
         d.surf = s.chip.surf ∧ d.stkMem = s.chip.stkMem) ∧
     (∀ v, bit v 8 = true →
       Completes (.surfCntClr v) s fun d => (∀ n : Fin 64, d.reg (SD_CNT n) = 0 ∧ d.reg (SD_REJ n) = 0) ∧
         d.fld SURF_STATUS.CFG_IGN = 0 ∧ (∀ k : Fin 4, d.fld (RX_STATUS.UNDER k) = 0) ∧ d.surf = s.chip.surf ∧ d.stkMem = s.chip.stkMem)) ∧
  (∀ s : State, ∀ f : Fin 256, ∀ m,
     let cmd : Instr := if isFill m then .fill f m else .tile f m
     (s.chip.fld (FLOW_CFG.ENDPOINT f) = 5 → s.chip.pageOn 0x1D = true → s.chip.ingressClear = true → s.chip.bufferFor f = true →
       (s.chip.tileReason f m = 0 →
         Completes cmd s fun d => d.surf.jobs = s.chip.surf.jobs ++ [{ flow := f, cells := m, tiles := tilesOf m, desc := none }] ∧
           SURF_STATUS.ASM_USED.get (d.readWord SURF_STATUS) = s.chip.srfBuffers.length + 1 ∧ d.regs = s.chip.regs ∧
           d.stkMem = s.chip.stkMem) ∧
       (s.chip.tileReason f m ≠ 0 →
         Completes cmd s fun d => d.surf = s.chip.surf ∧ d.stkMem = s.chip.stkMem ∧
           d.reg SURF_REJ0 = BitVec.ofNat 32 (s.chip.tileReason f m * 2 ^ 24 + f * 2 ^ 16 + tileSurf m % 64 * 2 ^ 8 + tileOp m % 256))) ∧
     (∀ rest, s.chip.surf.wait = (f.val, m) :: rest → s.chip.bufferFor f = true → s.chip.tileReason f m = 0 →
       Completes .assemblyBufferFree s fun d => d.surf.wait = rest ∧
         d.surf.jobs = s.chip.surf.jobs ++ [{ flow := f, cells := m, tiles := tilesOf m, desc := none }] ∧
         d.stkMem = s.chip.stkMem ∧ ∀ a, a ≠ SURF_STATUS → d.reg a = s.chip.reg a))

/-- A tile write: its start, what it stores and what it leaves of the Stacks. (R194, R202-R204; log entry 47.) -/
def Obligations.TileWrites : Prop :=
  ∀ s : State,
    (∀ (f : Fin 256) j tx ty rest, s.chip.surf.unit0 = none ∨ s.chip.surf.unit1 = none →
      (s.chip.surf.jobs.find? fun j => j.flow == f.val && !j.tiles.isEmpty) = some j → j.tiles = (tx, ty) :: rest →
      j.desc.isSome = true ∨ s.chip.descReason j.cells = 0 → s.chip.bandFetched (tileSurf j.cells) ty = false →
      (∀ w ∈ s.chip.surf.writes, ¬(w.surf = tileSurf j.cells ∧ w.tx = tx ∧ w.ty = ty)) →
      s.chip.lateFor f j.cells ty = none ∨ (tileFlags j.cells).testBit 3 = false →
      Completes (.tileWriteStart f) s fun d => d.stkMem = s.chip.stkMem ∧
        { flow := f, surf := tileSurf j.cells, tx := tx, ty := ty, cells := j.cells,
          desc := j.desc.getD (s.chip.descOf (tileSurf j.cells)), last := rest.isEmpty } ∈ d.surf.writes) ∧
    (∀ (u : Fin 2) w, (if u = 0 then s.chip.surf.unit0 else s.chip.surf.unit1) = some w →
      let D := w.desc
      let slot := match tileEnc w.cells with
        | 0 => (tileData w.cells).take D.slot
        | 1 => tileData w.cells
        | _ => []
      let line (j : Nat) : Nat := D.lineAt (16 * w.ty + j) + 64 * w.tx * D.bpp
      Completes (.tileWriteEnd u) s fun d => (if u = 0 then d.surf.unit0 else d.surf.unit1) = none ∧
        d.fld (SD_CNT.WRITTEN w.surf) = raised s.chip (SD_CNT.WRITTEN w.surf) ∧
        (∀ a, a ≠ SURF_STATUS → a ≠ SD_CNT w.surf → d.reg a = s.chip.reg a) ∧
        (D.layout = layEspalier →
          ofBytes (d.stkRead (D.dirAt w.tx w.ty) 4) = (tileEnc w.cells * 2 ^ 30 +
            (if tileEnc w.cells = 1 then tileNdata w.cells else 0) * 2 ^ 24 +
            (ofBytes (s.chip.stkRead (D.dirAt w.tx w.ty) 2) + 1) % 65536) % 2 ^ 32) ∧
        (D.layout = layEspalier → ∀ x,
          ¬(D.slotAt w.tx w.ty ≤ x ∧ x < D.slotAt w.tx w.ty + slot.length) →
          ¬(D.dirAt w.tx w.ty ≤ x ∧ x < D.dirAt w.tx w.ty + 8) → d.stk x = s.chip.stk x) ∧
        (D.layout = layEspalier →
          ofBytes (d.stkRead (D.dirAt w.tx w.ty + 4) 4) = (if tileEnc w.cells = 2 then tileValue w.cells else 0) % 2 ^ 32 ∧
            (D.slotAt w.tx w.ty + slot.length ≤ D.dirAt w.tx w.ty ∨ D.dirAt w.tx w.ty + 8 ≤ D.slotAt w.tx w.ty →
              d.stkRead (D.slotAt w.tx w.ty) slot.length = slot)) ∧
        (D.layout ≠ layEspalier → (∀ i j, i < j → line i + min 64 (D.width - 64 * w.tx) * D.bpp ≤ line j) →
          ∀ j < min 16 (D.height - 16 * w.ty),
            let row := ((tileBytes D w.cells).drop (64 * D.bpp * j)).take (min 64 (D.width - 64 * w.tx) * D.bpp)
            d.stkRead (line j) row.length = row) ∧
        (D.layout ≠ layEspalier → ∀ x,
          (∀ j < min 16 (D.height - 16 * w.ty), ¬(line j ≤ x ∧ x < line j + min 64 (D.width - 64 * w.tx) * D.bpp)) →
          d.stk x = s.chip.stk x))

/-- Raw lines and fallback streams write ring lines and nothing else. (R208-R211; log entries 47, 99.) -/
def Obligations.RingLines : Prop :=
  ∀ s : State, s.chip.pageOn 0x1D = true →
    (∀ (f : Fin 256) m, s.chip.fld (FLOW_CFG.ENDPOINT f) = 6 →
      let n := hdrNat m 1 1
      let D := s.chip.descOf n
      let y := hdrNat m 2 2 % D.height
      let a := D.lineAt y + hdrNat m 4 2 * D.bpp
      (s.chip.rawReason f m = 0 →
        Completes (.rawLine f m) s fun d => d.ringTag n y = some (hdrNat m 2 2) ∧
          d.fld (SD_CNT.WRITTEN n) = raised s.chip (SD_CNT.WRITTEN n) ∧ (∀ b, b ≠ SD_CNT n → d.reg b = s.chip.reg b) ∧
          s.chip.stkAfter d a ((m.flatMap fun x => ((fitBytes 120 x.payload).drop 8).take (hdrNat m 6 1 * D.bpp)).take (stackSize - a))) ∧
      (s.chip.rawReason f m ≠ 0 →
        Completes (.rawLine f m) s fun d => d.surf = s.chip.surf ∧ d.stkMem = s.chip.stkMem ∧
          (d.reg SURF_REJ0).toNat / 2 ^ 24 = s.chip.rawReason f m)) ∧
    (∀ (k : Fin 4) m, s.chip.fallback = true → k.val < s.chip.streams → s.chip.on (RX_CTRL.EN k) = true →
      (m.rgb = true → m.bpc = 8 ∨ m.bpc = 10 → m.msa.hactive ≤ 7680 →
        let a := (s.chip.rxDesc k).lineAt (m.line % 64)
        Completes (.fallbackStreamLine k m) s fun d => d.on (RX_STATUS.ACTIVE k) = true ∧ d.on (RX_STATUS.UNSUPP k) = false ∧
          d.fld (RX_STATUS.BPC k) = (if m.bpc = 10 then 2 else 1) ∧ (d.stream k).2 = m.line ∧
          d.ringTag (64 + k) (m.line % 64) = some m.line ∧ (∀ b, b ≠ RX_STATUS k → d.reg b = s.chip.reg b) ∧
          s.chip.stkAfter d a ((pixelsToBytes 4 (m.pixels.take 7680)).take (stackSize - a))) ∧
      (m.rgb = false ∨ (m.bpc ≠ 8 ∧ m.bpc ≠ 10) ∨ 7680 < m.msa.hactive →
        Completes (.fallbackStreamLine k m) s fun d => d.on (RX_STATUS.UNSUPP k) = true ∧ d.on (RX_STATUS.ACTIVE k) = false ∧
          d.surf = s.chip.surf ∧ d.stkMem = s.chip.stkMem)) ∧
    (∀ k : Fin 4, s.chip.on (RX_STATUS.ACTIVE k) = true ∨ s.chip.on (RX_STATUS.UNSUPP k) = true →
      Completes (.streamLost k) s fun d => d.on (RX_STATUS.ACTIVE k) = false ∧ d.on (RX_STATUS.UNSUPP k) = false ∧
        d.on (HEAD_STATUS.LOCKED k) = false ∧ d.surf = s.chip.surf ∧ d.stkMem = s.chip.stkMem)

/-- Lines, the TE edge and band fetches of a head. (R215-R220, R226-R228.) -/
def Obligations.HeadLines : Prop :=
  ∀ s : State, ∀ h : Fin 4,
    (s.chip.scanning h = true → (s.chip.head h).stopping = false → rasterOk (s.chip.raster h) = true → s.chip.awaitsLag h = false →
      let r := s.chip.raster h
      let next := if r.vtotal ≤ s.chip.fld (HEAD_POS.LINE h) + 1 then 0 else s.chip.fld (HEAD_POS.LINE h) + 1
      let porch : Prop := s.chip.panelTimed h = true ∧ s.chip.fld (HEAD_POS.LINE h) = r.vactive + r.vfp - 1
      (¬porch ∨ (s.chip.head h).edge = true →
        Completes (.lineStart h) s fun d => d.fld (HEAD_POS.LINE h) = next ∧
          d.fld (HEAD_STATUS.VBLANK h) = (if r.vactive ≤ next then 1 else 0) ∧ d.stkMem = s.chip.stkMem) ∧
      (porch → (s.chip.head h).edge = false →
        Completes (.lineStart h) s fun d => d.on (HEAD_STATUS.TE_HOLD h) = true ∧ (d.head h).held = (s.chip.head h).held + 1 ∧
          d.stkMem = s.chip.stkMem ∧ ∀ a, a ≠ HEAD_STATUS h → d.reg a = s.chip.reg a)) ∧
    (s.chip.scanning h = true → (s.chip.head h).stopping = false → s.chip.awaitsLag h = true →
      Completes (.lineStart h) s fun d => d = { s.chip with out := [] }) ∧
    (s.chip.scanning h = true → (s.chip.head h).stopping = true →
      Completes (.lineStart h) s fun d => d.scanning h = false ∧ d.out = [.stream h false] ∧ d.stkMem = s.chip.stkMem) ∧
    (∀ n, s.chip.bandSurface h = some n → s.chip.mayFetch h n = true →
      Completes (.bandFetchStart h) s fun d => (d.head h).fetch = some (n, (s.chip.head h).nextBand) ∧
        (d.head h).nextBand = (s.chip.head h).nextBand + 1 ∧ d.regs = s.chip.regs ∧ d.stkMem = s.chip.stkMem) ∧
    (∀ n b, (s.chip.head h).fetch = some (n, b) →
      Completes (.bandFetchEnd h) s fun d => (d.head h).fetch = none ∧ (d.head h).bands.length ≤ 2 ∧
        (∃ rows, (d.head h).bands.getLast? = some { surf := n, band := b, rows := rows }) ∧ d.stkMem = s.chip.stkMem) ∧
    (∀ rising, s.chip.scanning h = true → s.chip.panelTimed h = true → rising ≠ s.chip.on (HEAD_CTRL.TE_POL h) →
      Completes (.teEdge h rising) s fun d => (d.head h).edge = true ∧ d.regs = s.chip.regs ∧ d.stkMem = s.chip.stkMem) ∧
    (s.chip.on (HEAD_STATUS.TE_HOLD h) = true → (s.chip.head h).edge = false →
      max 1 (s.chip.fld (HEAD_OPT.TE_TO h)) ≤ (s.chip.head h).held →
      Completes (.teTimeout h) s fun d => (d.head h).edge = true ∧ d.regs = s.chip.regs ∧ d.stkMem = s.chip.stkMem)

/-- ARM, CANCEL and CNT_CLR of a head and of its Marginalia. (R222-R225, R241.) -/
def Obligations.HeadCommits : Prop :=
  ∀ s : State, ∀ h : Fin 4, ∀ v, s.chip.headList.contains h.val = true →
    (bit v 0 = true → bit v 1 = false → bit v 2 = false → s.chip.on (HEAD_STATUS.ARMED h) = false →
      Completes (.headArm h v) s fun d => d.on (HEAD_COMMIT.ARM h) = true ∧ d.on (HEAD_STATUS.ARMED h) = true ∧
        (d.head h).skip = s.chip.windowClosed h ∧
        d.fld (HEAD_STATUS.MISS_CNT h) = (if s.chip.windowClosed h then min (s.chip.fld (HEAD_STATUS.MISS_CNT h) + 1) 255
          else s.chip.fld (HEAD_STATUS.MISS_CNT h)) ∧ d.stkMem = s.chip.stkMem ∧
        ∀ a, a ≠ HEAD_COMMIT h → a ≠ HEAD_STATUS h → d.reg a = s.chip.reg a) ∧
    (bit v 0 = false → bit v 1 = true →
      Completes (.headCancel h v) s fun d => d.on (HEAD_COMMIT.ARM h) = false ∧ d.on (HEAD_STATUS.ARMED h) = false ∧
        d.on (HEAD_STATUS.MISSED h) = false ∧ d.stkMem = s.chip.stkMem ∧
        ∀ a, a ≠ HEAD_COMMIT h → a ≠ HEAD_STATUS h → d.reg a = s.chip.reg a) ∧
    (bit v 0 = false → bit v 2 = true →
      Completes (.headCntClr h v) s fun d => d.fld (HEAD_STATUS.MISS_CNT h) = 0 ∧ d.fld (HEAD_STATUS.UNDER_CNT h) = 0 ∧
        d.stkMem = s.chip.stkMem ∧ ∀ a, a ≠ HEAD_COMMIT h → a ≠ HEAD_STATUS h → d.reg a = s.chip.reg a) ∧
    (bit v 0 = true → bit v 1 = false → s.chip.on (MARG_STATUS.ARMED h) = false →
      Completes (.margArm h v) s fun d => d.on (MARG_COMMIT.ARM h) = true ∧ d.on (MARG_STATUS.ARMED h) = true ∧
        (d.head h).mskip = s.chip.windowClosed h ∧ d.stkMem = s.chip.stkMem ∧
        ∀ a, a ≠ MARG_COMMIT h → a ≠ MARG_STATUS h → d.reg a = s.chip.reg a) ∧
    (bit v 0 = false → bit v 1 = true →
      Completes (.margCancel h v) s fun d => d.on (MARG_COMMIT.ARM h) = false ∧ d.on (MARG_STATUS.ARMED h) = false ∧
        d.on (MARG_STATUS.MISSED h) = false ∧ d.stkMem = s.chip.stkMem ∧
        ∀ a, a ≠ MARG_COMMIT h → a ≠ MARG_STATUS h → d.reg a = s.chip.reg a)

/-- Enabling a head, the slots and the DP_PWR of an output. (R216, R234, R237, R306.) -/
def Obligations.HeadEnableAndPower : Prop :=
  (∀ s : State, ∀ h : Fin 4, ∀ v, s.chip.headList.contains h.val = true →
     (s.chip.on (HEAD_CTRL.EN h) = false → bit v 31 = true →
       ((s.chip.writeMasked (HEAD_CTRL h) v).enableRefusal h = 0 →
         Completes (.headEnable h v) s fun d => d.on (HEAD_CTRL.EN h) = true ∧ d.stkMem = s.chip.stkMem ∧
           (d.fld PP_HELD.HEAD).testBit h = !d.granted (itHead h)) ∧
       ((s.chip.writeMasked (HEAD_CTRL h) v).enableRefusal h ≠ 0 →
         Completes (.headEnable h v) s fun d => d.on (HEAD_CTRL.EN h) = false ∧ d.stkMem = s.chip.stkMem ∧
           d.fld (HEAD_STATUS.CREF h) = (s.chip.writeMasked (HEAD_CTRL h) v).enableRefusal h ∧ d.heads = s.chip.heads ∧
           d.budget = s.chip.budget)) ∧
     (s.chip.on (HEAD_CTRL.EN h) = true → bit v 31 = false →
       Completes (.headDisable h v) s fun d => d.on (HEAD_CTRL.EN h) = false ∧ d.stkMem = s.chip.stkMem ∧
         (d.fld PP_HELD.HEAD).testBit h = false)) ∧
  (∀ s : State, ∀ o : Fin 4,
     (∀ v,
       let sum := (DPTX_SLOTS.S0 o).get v + (DPTX_SLOTS.S1 o).get v + (DPTX_SLOTS.S2 o).get v + (DPTX_SLOTS.S3 o).get v
       (sum ≤ 63 → s.chip.hasOut o = true → s.chip.pageLocked (0x24 + o) = false →
         Completes (.dptxSlotsWrite o v) s fun d => d.reg (DPTX_SLOTS o) &&& 0x3F3F3F3F = v &&& 0x3F3F3F3F ∧
           d.stkMem = s.chip.stkMem ∧ ∀ a, a ≠ DPTX_SLOTS o → d.reg a = s.chip.reg a) ∧
       (63 < sum → Completes (.dptxSlotsWrite o v) s fun d => d = { s.chip with out := [] })) ∧
     (s.chip.on (DPTX_STATUS.PWR_ON o) = true ∨ s.chip.boot.rampNow = some (.dp o) →
       Completes (.dpPwrOvercurrent o) s fun d => d.on (DPTX_STATUS.PWR_ON o) = false ∧ d.on (DPTX_STATUS.PWR_OC o) = true ∧
         (d.dp o).openedNs = some s.chip.timeNs ∧ d.rampDue (.dp o) = false ∧ d.stkMem = s.chip.stkMem ∧
         ∀ a, a ≠ DPTX_STATUS o → d.reg a = s.chip.reg a) ∧
     (∀ v, s.chip.hasOut o = true → bit v 29 = true → bit v 22 = false → s.chip.on (DPTX_CTRL.PWR_EN o) = false →
       (s.chip.dpHeldOff o = true →
         Completes (.pwrEn o v) s fun d => d.on (DPTX_CTRL.PWR_EN o) = false ∧ d.boot = s.chip.boot ∧ d.stkMem = s.chip.stkMem) ∧
       (s.chip.dpHeldOff o = false → s.chip.outHeld o = false → s.chip.dpRuns o = true → s.chip.on (DPTX_STATUS.PWR_ON o) = false →
         Completes (.pwrEn o v) s fun d => d.on (DPTX_CTRL.PWR_EN o) = true ∧ d.rampDue (.dp o) = true ∧ d.stkMem = s.chip.stkMem)) ∧
     (∀ v, s.chip.hasOut o = true → bit v 29 = false → bit v 22 = false →
       s.chip.boot.rampNow ≠ some (.dp o) ∨ .dp o ∉ s.chip.boot.rampWait →
       Completes (.pwrEn o v) s fun d => d.on (DPTX_CTRL.PWR_EN o) = false ∧ d.on (DPTX_STATUS.PWR_ON o) = false ∧
         d.rampDue (.dp o) = false ∧ d.stkMem = s.chip.stkMem))

/-- HPD, IRQ_HPD and DisplayPort training. (R231, R232.) -/
def Obligations.OutputTraining : Prop :=
  ∀ s : State, ∀ o : Fin 4,
    (s.chip.hasOut o = true → s.chip.on (DPTX_STATUS.HPD o) = false →
      Completes (.hpdPlug o) s fun d => d.on (DPTX_STATUS.HPD o) = true ∧ d.stkMem = s.chip.stkMem ∧
        (s.chip.on (DPTX_CTRL.EN o) = true → s.chip.dpRuns o = true → (d.dp o).training = true ∧
          d.on (DPTX_STATUS.AUX_BUSY o) = true) ∧
        (s.chip.on (DPTX_CTRL.EN o) = false → d.dps = s.chip.dps ∧
          ∀ a, a ≠ DPTX_STATUS o → a ≠ WAKE_CAUSE → d.reg a = s.chip.reg a)) ∧
    (s.chip.hasOut o = true → s.chip.on (DPTX_STATUS.HPD o) = true →
      Completes (.hpdUnplug o) s fun d => d.on (DPTX_STATUS.HPD o) = false ∧ d.on (DPTX_STATUS.TRAINED o) = false ∧
        (d.dp o).training = false ∧ (d.dp o).aux = none ∧ d.stkMem = s.chip.stkMem) ∧
    (∀ lost, s.chip.hasOut o = true → s.chip.on (DPTX_STATUS.HPD o) = true →
      Completes (.irqHpd o lost) s fun d => d.fld (DPTX_STATUS.IRQ_CNT o) = raised s.chip (DPTX_STATUS.IRQ_CNT o) ∧
        d.stkMem = s.chip.stkMem ∧
        (lost = true → s.chip.on (DPTX_STATUS.TRAINED o) = true → s.chip.dpRuns o = true → (d.dp o).training = true) ∧
        (lost = false → d.dps = s.chip.dps ∧ ∀ a, a ≠ DPTX_STATUS o → a ≠ WAKE_CAUSE → d.reg a = s.chip.reg a)) ∧
    ((s.chip.dp o).training = true →
      Completes (.dpTrainingComplete o none) s (fun d => (d.dp o).training = false ∧ d.stkMem = s.chip.stkMem ∧
        ∀ a, a ≠ DPTX_STATUS o → a ≠ DPTX_CTRL o → d.reg a = s.chip.reg a) ∧
      ∀ rate lanes, rate.val ≤ (s.chip.dpLimit o).1 → lanes.val ≤ (s.chip.dpLimit o).2 →
        Completes (.dpTrainingComplete o (some (rate, lanes))) s fun d => d.on (DPTX_STATUS.TRAINED o) = true ∧
          d.fld (DPTX_STATUS.RATE o) = rate ∧ d.fld (DPTX_STATUS.LANES o) = lanes ∧ (d.dp o).training = false ∧
          d.stkMem = s.chip.stkMem) ∧
    (∀ v, bit v 22 = true → s.chip.dpRuns o = true → s.chip.on (DPTX_STATUS.HPD o) = true →
      Completes (.dptxRetrain o v) s fun d => d.on (DPTX_CTRL.RETRAIN o) = true ∧ (d.dp o).training = true ∧
        d.on (DPTX_STATUS.TRAINED o) = false ∧ d.stkMem = s.chip.stkMem)

/-- AUX transactions. (R233.) -/
def Obligations.AuxTransactions : Prop :=
  ∀ s : State, ∀ o : Fin 4,
    (∀ v, ∀ p ∈ ([(.nativeWrite o v, 0), (.nativeRead o v, 1), (.i2cWrite o v, 4), (.i2cRead o v, 5), (.i2cWriteMot o v, 6),
        (.i2cReadMot o v, 7)] : List (Instr × Nat)),
      bit v 31 = true → (DPTX_AUX.CMD o).get v = p.2 → s.chip.dpRuns o = true → (s.chip.dp o).aux = none →
      (s.chip.dp o).training = false →
      Completes p.1 s fun d => (d.dp o).aux = some v ∧ d.on (DPTX_AUX.GO o) = true ∧ d.on (DPTX_STATUS.AUX_BUSY o) = true ∧
        d.stkMem = s.chip.stkMem ∧ (∀ a, a ≠ DPTX_AUX o → a ≠ DPTX_STATUS o → d.reg a = s.chip.reg a) ∧
        d.out = [.aux o v (if v.getLsbD 28 then [] else
          ((List.range 4).flatMap fun i => toBytes 4 (s.chip.reg (AUXBUF o i)).toNat).take ((DPTX_AUX.LEN o).get v + 1))]) ∧
    (∀ v, (s.chip.dp o).aux = some v → (s.chip.dp o).training = false →
      (∀ data, v.getLsbD 28 = false →
        Completes (.auxReply o (.ack data)) s fun d => (d.dp o).aux = none ∧ d.fld (DPTX_STATUS.AUX_RES o) = 1 ∧
          d.on (DPTX_AUX.GO o) = false ∧ d.stkMem = s.chip.stkMem ∧
          ∀ a, a ≠ DPTX_AUX o → a ≠ DPTX_STATUS o → d.reg a = s.chip.reg a) ∧
      (∀ data : List Byte, v.getLsbD 28 = true →
        Completes (.auxReply o (.ack data)) s fun d => (d.dp o).aux = none ∧ d.fld (DPTX_STATUS.AUX_RES o) = 1 ∧
          d.on (DPTX_AUX.GO o) = false ∧ d.stkMem = s.chip.stkMem ∧
          (let got := data.take ((DPTX_AUX.LEN o).get v + 1)
           ∀ i : Fin 4, d.reg (AUXBUF o i) = BitVec.ofNat 32 (ofBytes (((got ++
             ((List.range 4).flatMap fun j => toBytes 4 (s.chip.reg (AUXBUF o j)).toNat).drop got.length).drop (4 * i)).take 4))) ∧
          ∀ a, a ≠ DPTX_AUX o → a ≠ DPTX_STATUS o → (∀ i : Fin 4, a ≠ AUXBUF o i) → d.reg a = s.chip.reg a) ∧
      Completes (.auxReply o .nack) s (fun d => (d.dp o).aux = none ∧ d.fld (DPTX_STATUS.AUX_RES o) = 2 ∧
        d.on (DPTX_AUX.GO o) = false ∧ d.stkMem = s.chip.stkMem ∧
        ∀ a, a ≠ DPTX_AUX o → a ≠ DPTX_STATUS o → d.reg a = s.chip.reg a) ∧
      ((s.chip.dp o).defers < 7 →
        Completes (.auxReply o .defer) s fun d => (d.dp o).aux = some v ∧ (d.dp o).defers = (s.chip.dp o).defers + 1 ∧
          d.regs = s.chip.regs ∧ d.stkMem = s.chip.stkMem) ∧
      ((s.chip.dp o).retries < 3 →
        Completes (.auxTimeout o) s fun d => (d.dp o).aux = some v ∧ (d.dp o).retries = (s.chip.dp o).retries + 1 ∧
          d.regs = s.chip.regs ∧ d.stkMem = s.chip.stkMem) ∧
      (3 ≤ (s.chip.dp o).retries →
        Completes (.auxTimeout o) s fun d => (d.dp o).aux = none ∧ d.fld (DPTX_STATUS.AUX_RES o) = 4 ∧
          d.on (DPTX_AUX.GO o) = false ∧ d.stkMem = s.chip.stkMem))

/-- USB tunnel messages. (R243-R246; log entries 51, 89.) -/
def Obligations.TunnelMessages : Prop :=
  ∀ s : State, ∀ f : Fin 256, ∀ m, s.chip.tunFlow f = true → (m.all fun x => x.typ % 8 == clsP) = true →
    (∀ port iso, ∀ i ∈ [(false, fun xs => Instr.ssHdr f m ⟨port, xs⟩), (iso, fun xs => .ssData f m ⟨port, xs⟩ iso)],
      s.chip.tunBad f m i.1 = false →
        (∀ xs, Completes (i.2 xs) s fun d => .usb port (tunBytes m) ∈ d.out ∧ d.regs = s.chip.regs ∧ d.hub = s.chip.hub ∧
          d.stkMem = s.chip.stkMem) ∧
        ∀ x : SsPacket,
          let data := x.data.getD []
          let g := s.chip.fld (if x.iso = true ∧ x.data.isSome = true then HUB_TUN.ISO_FLOW else HUB_TUN.BULK_FLOW)
          g ≠ 0 → s.chip.on (FLOW_CFG.ENC g) = false →
          Completes (i.2 [x]) s fun d => d.out = [.usb port (tunBytes m)] ∧
            d.outQ (s.chip.sideOf g) g = s.chip.outQ (s.chip.sideOf g) g ++ cellsOfMessage clsP s.chip.epoch
              ([if x.data.isSome then 0x02#8 else 0x01, 0] ++ toBytes 2 data.length ++ fitBytes 16 x.header ++ data)) ∧
    (∀ port iso pid reply, s.chip.tunBad f m (iso && tokenOf (tunBytes m) == 1) = false →
      let frame := hdrNat m 8 2 % 16384
      let late := (s.chip.hub.uframe + 16384 - frame) % 16384
      (frame = 0x3FFF ∨ late = 0 →
        (Completes (.u2Txn f m port iso pid reply) s fun d => .usb port (tunBytes m) ∈ d.out ∧ d.regs = s.chip.regs ∧
          d.stkMem = s.chip.stkMem ∧ d.hub = { s.chip.hub with
            tts := s.chip.hub.tts ++ if port.val < 6 ∧ s.chip.fld (PORT_STATUS.SPEED port) = 1 then [(port.val, tunBytes m)] else [] }) ∧
        let g := s.chip.fld (if (iso && tokenOf (tunBytes m) == 9 && pid != 0) = true then HUB_TUN.ISO_FLOW else HUB_TUN.BULK_FLOW)
        (g ≠ 0 → s.chip.on (FLOW_CFG.ENC g) = false →
          Completes (.u2Txn f m port iso pid reply) s fun d =>
            d.outQ (s.chip.sideOf g) g = s.chip.outQ (s.chip.sideOf g) g ++ cellsOfMessage clsP s.chip.epoch ([0x11#8, 0] ++
              toBytes 2 reply.length ++ fitBytes 16 (toBytes 4 pid.toNat ++ toBytes 2 s.chip.hub.uframe) ++ reply))) ∧
      (frame ≠ 0x3FFF → 8192 ≤ late →
        Completes (.u2Txn f m port iso pid reply) s fun d => d.regs = s.chip.regs ∧ d.stkMem = s.chip.stkMem ∧
          d.hub = { s.chip.hub with txns := s.chip.hub.txns ++
            [{ port := port, frame := frame, bytes := tunBytes m, pid := pid.toNat, reply := reply, iso := iso }] }) ∧
      (frame ≠ 0x3FFF → 0 < late → late < 8192 →
        Completes (.u2Txn f m port iso pid reply) s fun d => d.fld HUB_STATUS.TUN_REJ = raised s.chip HUB_STATUS.TUN_REJ ∧
          d.hub = s.chip.hub ∧ d.stkMem = s.chip.stkMem)) ∧
    (s.chip.tunBad f m false = false → hdrNat m 1 1 = 1 →
      Completes (.uportSuspend f m) s fun d => d.on HUB_STATUS.SUSPENDED = true ∧ d.stkMem = s.chip.stkMem ∧
        ∀ a, a ≠ HUB_STATUS → d.reg a = s.chip.reg a) ∧
    (s.chip.tunBad f m false = false →
      Completes (.uportReset f m) s fun d => d.svcf.write = none ∧ d.on SVCF_STATUS.CONFIGURED = false ∧
        d.on HUB_STATUS.SUSPENDED = false ∧ (∀ p : Fin 6, (d.port p).asked = false ∧ d.on (PORT_STATUS.VBUS_ON p) = false) ∧
        d.stkMem = s.chip.stkMem) ∧
    (s.chip.tunBad f m false = false → s.chip.resuming = false → s.chip.on HUB_STATUS.SUSPENDED = true →
      Completes (.uportResume f m) s fun d => d.on HUB_STATUS.SUSPENDED = false ∧ d.stkMem = s.chip.stkMem ∧
        d.hub = { s.chip.hub with resumeNs := some s.chip.timeNs, rsmHost := true, rsmPort := none }) ∧
    (∀ port xs, s.chip.tunBad f m false = true →
      Completes (.ssHdr f m ⟨port, xs⟩) s fun d => d.fld HUB_STATUS.TUN_REJ = raised s.chip HUB_STATUS.TUN_REJ ∧ d.out = [] ∧
        ∀ a, a ≠ HUB_STATUS → d.reg a = s.chip.reg a)

/-- The upstream port, start of frame, remote wake and port connection. (R244, R247, R248, R254, R262, R320; log entry 51.) -/
def Obligations.UpstreamAndPorts : Prop :=
  (∀ s : State,
     (2 ≤ s.chip.fld HUB_STATUS.UP →
       Completes .usbBusReset s (fun d => d.svcf.write = none ∧ d.on SVCF_STATUS.CONFIGURED = false ∧
         d.on HUB_STATUS.SUSPENDED = false ∧ (∀ p : Fin 6, (d.port p).asked = false ∧ d.on (PORT_STATUS.VBUS_ON p) = false) ∧
         d.stkMem = s.chip.stkMem) ∧
       Completes .upstreamSuspend s (fun d => d.on HUB_STATUS.SUSPENDED = true ∧ d.stkMem = s.chip.stkMem ∧
         ∀ a, a ≠ HUB_STATUS → d.reg a = s.chip.reg a) ∧
       (s.chip.resuming = false → s.chip.on HUB_STATUS.SUSPENDED = true →
         Completes .resumeSignalling s fun d => d.on HUB_STATUS.SUSPENDED = false ∧ d.stkMem = s.chip.stkMem ∧
           d.hub = { s.chip.hub with resumeNs := some s.chip.timeNs, rsmHost := true, rsmPort := none }) ∧
       (s.chip.resuming = true →
         Completes .resumeSignalling s fun d => d.on HUB_STATUS.SUSPENDED = false ∧ d.stkMem = s.chip.stkMem ∧
           d.hub = { s.chip.hub with rsmHost := true } ∧
           ∀ p : Fin 6, s.chip.hub.rsmPort = some p.val → d.on (PORT_STATUS.RSM_HOST p) = true) ∧
       (s.chip.resuming = false → s.chip.on HUB_STATUS.SUSPENDED = false →
         Completes .resumeSignalling s fun d => d.hub = s.chip.hub ∧ d.stkMem = s.chip.stkMem ∧ d.out = [] ∧
           ∀ a, a ≠ WAKE_CAUSE → d.reg a = s.chip.reg a)) ∧
     (s.chip.fld HUB_STATUS.UP < 2 → ∀ i ∈ [Instr.usbBusReset, .upstreamSuspend, .resumeSignalling],
       Completes i s fun d => d = { s.chip with out := [] }) ∧
     (s.chip.fld HUB_STATUS.UP ≠ 1 → Completes .startOfFrame s fun d => d = { s.chip with out := [] }) ∧
     (s.chip.fld HUB_STATUS.UP = 1 →
       Completes .startOfFrame s fun d => d.hub.uframe = (s.chip.hub.uframe + 1) % 16384 ∧
         .sof ((s.chip.hub.uframe + 1) % 16384) ∈ d.out ∧ d.regs = s.chip.regs ∧ d.stkMem = s.chip.stkMem ∧
         ∀ t ∈ d.hub.txns, t.frame ≠ d.hub.uframe) ∧
     (∀ p : Fin 8, s.chip.on HUB_STATUS.SUSPENDED = true → s.chip.resuming = false →
       Completes (.remoteWake p true) s fun d => d.hub = { s.chip.hub with
           resumeNs := some s.chip.timeNs, rsmHost := false, rsmPort := some p.val } ∧ .resume p ∈ d.out ∧ d.stkMem = s.chip.stkMem ∧
         (s.chip.fld HUB_STATUS.UP ≠ 1 → .resumeUp ∈ d.out ∧ d.queues = s.chip.queues)) ∧
     (∀ (p : Fin 8) permitted, s.chip.resuming = true → s.chip.hub.rsmHost = true →
       Completes (.remoteWake p permitted) s fun d => d.hub = s.chip.hub ∧ d.out = [] ∧ d.stkMem = s.chip.stkMem ∧
         (p.val < 6 → d.on (PORT_STATUS.RSM_DEV p) = true ∧ d.on (PORT_STATUS.RSM_HOST p) = true) ∧
         ∀ a, a ≠ PORT_STATUS p → a ≠ WAKE_CAUSE → d.reg a = s.chip.reg a) ∧
     (∀ p : Fin 8, s.chip.resuming = false →
       (s.chip.on HUB_STATUS.SUSPENDED = false → ∀ permitted,
         Completes (.remoteWake p permitted) s fun d => d = { s.chip with out := [] }) ∧
       Completes (.remoteWake p false) s fun d => d = { s.chip with out := [] }) ∧
     (∀ v, bit v 12 = true →
       Completes (.hubCntClr v) s fun d => d.fld HUB_STATUS.TUN_REJ = 0 ∧ d.stkMem = s.chip.stkMem ∧
         ∀ p : Fin 6, d.fld (PORT_STATUS.BABBLE_CNT p) = 0 ∧ d.fld (PORT_STATUS.OC_CNT p) = 0)) ∧
  (∀ s : State,
     (∀ (p : Fin 6) high wakes, s.chip.on (PORT_STATUS.VBUS_ON p) = true → s.chip.hubRuns = true →
       Completes (.portConnect p high wakes) s fun d => d.on (PORT_STATUS.CONNECTED p) = true ∧
         d.fld (PORT_STATUS.SPEED p) = (if high then 2 else 1) ∧ d.stkMem = s.chip.stkMem) ∧
     (∀ (p : Fin 6) wakes, s.chip.on (PORT_STATUS.CONNECTED p) = true →
       Completes (.portDisconnect p wakes) s fun d => d.on (PORT_STATUS.CONNECTED p) = false ∧ d.fld (PORT_STATUS.SPEED p) = 0 ∧
         (∀ t ∈ d.hub.txns, t.port ≠ p.val) ∧ d.stkMem = s.chip.stkMem) ∧
     (∀ (p : Fin 4) wakes, s.chip.on (PORT_STATUS.VBUS_ON p) = true → s.chip.hubRuns = true → s.chip.fld (PORT_STATUS.SPEED p) ≠ 3 →
       Completes (.receiverDetection p ⟨true, wakes⟩) s fun d => d.on (PORT_STATUS.CONNECTED p) = true ∧
         d.fld (PORT_STATUS.SPEED p) = 3 ∧ d.stkMem = s.chip.stkMem ∧
         if wakes = true ∧ s.chip.on HUB_STATUS.SUSPENDED = true then s.chip.resuming = false → .resume p ∈ d.out
         else ∀ a, a ≠ PORT_STATUS p → d.reg a = s.chip.reg a) ∧
     (∀ p : Fin 2, s.chip.domainOn 8 = false → Completes (.typecAttachDs p) s fun d => d = { s.chip with out := [] }) ∧
     (∀ p : Fin 2, (s.chip.port p).asked = true → (s.chip.port p).attached = false → s.chip.domainOn 8 = true →
       Completes (.typecAttachDs p) s fun d => (d.port p).attached = true ∧ d.stkMem = s.chip.stkMem ∧
         (d.wantsVbus p = true → d.on (PORT_STATUS.VBUS_ON p) = true ∨ (d.port p).waiting = true ∨ d.rampDue (.ds p) = true)) ∧
     (∀ p : Fin 2, Completes (.typecDetachDs p) s fun d => (d.port p).attached = false ∧ d.on (PORT_STATUS.VBUS_ON p) = false ∧
       (d.port p).waiting = false ∧ d.rampDue (.ds p) = false ∧ d.stkMem = s.chip.stkMem))

/-- Power and reset of the downstream ports. (R249, R258.) -/
def Obligations.PortPower : Prop :=
  ∀ s : State, (∀ p : Fin 6,
    (s.chip.on (PORT_STATUS.CUTOFF p) = false → (s.chip.port p).holdoff = false →
      Completes (.portPower p true) s fun d => (d.port p).asked = true ∧ (d.port p).heldReq = false ∧ d.stkMem = s.chip.stkMem ∧
        if d.wantsVbus p = true then
          d.on (PORT_STATUS.VBUS_ON p) = true ∨ (d.port p).waiting = true ∨ d.rampDue (.ds p) = true
        else d.on (PORT_STATUS.VBUS_ON p) = false ∧ (d.port p).waiting = false ∧ d.rampDue (.ds p) = false) ∧
    (s.chip.on (PORT_STATUS.CUTOFF p) = false → (s.chip.port p).holdoff = true →
      Completes (.portPower p true) s fun d => d.port p = { s.chip.port p with heldReq := true } ∧ d.regs = s.chip.regs ∧
        d.stkMem = s.chip.stkMem) ∧
    (s.chip.on (PORT_STATUS.CUTOFF p) = true → Completes (.portPower p true) s fun d => d = { s.chip with out := [] }) ∧
    Completes (.portPower p false) s (fun d => (d.port p).asked = false ∧ d.on (PORT_STATUS.VBUS_ON p) = false ∧
      (d.port p).waiting = false ∧ d.rampDue (.ds p) = false ∧ d.stkMem = s.chip.stkMem) ∧
    (s.chip.hubRuns = true → (List.range 6).find? (fun q => (s.chip.port q).waiting) = some p.val →
      Completes .vbusRampStart s fun d => d.port p = { s.chip.port p with waiting := false } ∧ d.rampDue (.ds p) = true ∧
        d.regs = s.chip.regs ∧ d.stkMem = s.chip.stkMem)) ∧
    ∀ p : Fin 8, Completes (.portReset p) s fun d => .usbReset p ∈ d.out ∧ (∀ t ∈ d.hub.txns, t.port ≠ p.val) ∧
      (∀ t ∈ d.hub.tts, t.1 ≠ p.val) ∧ d.stkMem = s.chip.stkMem ∧
      (p.val < 6 → d.port p = { s.chip.port p with disabled := false }) ∧ (p.val ≠ 6 → d.regs = s.chip.regs) ∧
      (p.val = 6 → d.svcf.write = none ∧ d.on SVCF_STATUS.CONFIGURED = false ∧ d.svcf.address = 0 ∧ d.svcf.setting = 0)

/-- Babble, over-current and the ganged rail of the downstream ports. (R250, R251, R252.) -/
def Obligations.PortFaults : Prop :=
  ∀ s : State, (∀ p : Fin 6,
    (s.chip.on (PORT_STATUS.CONNECTED p) = true → (s.chip.port p).disabled = false →
      let recent := ((s.chip.port p).babbles.filter fun t => decide (s.chip.timeNs < t + babbleSpan)) ++ [s.chip.timeNs]
      let lim := s.chip.fld HUB_CTRL.BABBLE_LIM
      (lim = 0 ∨ recent.length < lim →
        Completes (.babble p) s fun d => d.port p = { s.chip.port p with disabled := true, babbles := recent } ∧
          d.fld (PORT_STATUS.BABBLE_CNT p) = raised s.chip (PORT_STATUS.BABBLE_CNT p) ∧ d.stkMem = s.chip.stkMem ∧
          (∀ a, a ≠ PORT_STATUS p → d.reg a = s.chip.reg a) ∧ (s.chip.pageOn (evSource 161).page = true →
            d.firings = s.chip.firings ++ [{ src := 161, detail := p + 1, forced := false }])) ∧
      (lim ≠ 0 → lim ≤ recent.length →
        Completes (.babble p) s fun d => d.on (PORT_STATUS.CUTOFF p) = true ∧ (d.port p).asked = false ∧
          d.on (PORT_STATUS.VBUS_ON p) = false ∧ d.fld (PORT_STATUS.BABBLE_CNT p) = raised s.chip (PORT_STATUS.BABBLE_CNT p) ∧
          d.stkMem = s.chip.stkMem)) ∧
    (∀ wakes, s.chip.on (PORT_STATUS.VBUS_ON p) = true ∨ s.chip.boot.rampNow = some (.ds p) →
      Completes (.portOvercurrent p wakes) s fun d => s.chip.tripped d p ∧ d.stkMem = s.chip.stkMem) ∧
    ((s.chip.port p).heldReq = false →
      Completes (.overcurrentHoldoffEnd p) s fun d => (d.port p).holdoff = false ∧ (d.port p).heldReq = false ∧
        (d.port p).asked = (s.chip.port p).asked ∧ d.stkMem = s.chip.stkMem ∧
        if d.wantsVbus p = true then
          d.on (PORT_STATUS.VBUS_ON p) = true ∨ (d.port p).waiting = true ∨ d.rampDue (.ds p) = true
        else d.on (PORT_STATUS.VBUS_ON p) = false ∧ (d.port p).waiting = false ∧ d.rampDue (.ds p) = false) ∧
    ((s.chip.port p).heldReq = true → s.chip.on (PORT_STATUS.CUTOFF p) = false →
      Completes (.overcurrentHoldoffEnd p) s fun d => (d.port p).holdoff = false ∧ (d.port p).asked = true ∧
        (d.port p).heldReq = false ∧ d.stkMem = s.chip.stkMem)) ∧
    Completes .v5dsRailTrip s fun d => d.stkMem = s.chip.stkMem ∧
      ∀ p : Fin 6, s.chip.on (PORT_STATUS.GANGED p) = true → s.chip.tripped d p

/-- The hub's service function. (R255-R258, R400; log entries 52, 89.) -/
def Obligations.ServiceFunction : Prop :=
  ∀ s : State, s.chip.svcfOpen = true → s.chip.noRouter = false →
    (∀ (a : Word) (n : BitVec 16), a.toNat % 4 = 0 → n.toNat % 4 = 0 → 0 < n.toNat → n.toNat ≤ 256 → a.toNat + n.toNat ≤ 0x40000 →
      Completes (.svcfRegRead a n) s fun d => d.fld SVCF_STATUS.LAST_REQ = 1 ∧ d.fld SVCF_STATUS.RESULT = 0 ∧
        d.svcf = { s.chip.svcf with write := none, lastAddr := 0, busy := false } ∧ d.stkMem = s.chip.stkMem ∧
        ∃ bs, d.out = [.svcf bs] ∧ bs.length = n.toNat ∧
          (s.chip.svcf.write = none → s.chip.svcf.busy = false → s.chip.latch .svcf = none →
            (∀ i < n.toNat / 4, hiOf (a.toNat + 4 * i) = none) →
            bs = (List.range (n.toNat / 4)).flatMap fun i => toBytes 4
              (if pagePresent s.chip.part (pageOf (a.toNat + 4 * i)) then (s.chip.readWord (a.toNat + 4 * i)).toNat else 0))) ∧
    (∀ (a : Word) (n : BitVec 16), a.toNat % 4 = 0 → n.toNat % 4 = 0 → 0 < n.toNat → n.toNat ≤ 4096 → a.toNat + n.toNat ≤ 2 ^ 32 →
      s.chip.stkBadIn a.toNat n.toNat = false →
      Completes (.svcfStkRead a n) s fun d => d.fld SVCF_STATUS.LAST_REQ = 3 ∧ d.fld SVCF_STATUS.RESULT = 0 ∧
        d.out = [.svcf (s.chip.stkRead a.toNat n.toNat)] ∧ d.stkMem = s.chip.stkMem ∧
        ∀ b, b ≠ SVCF_STATUS → d.reg b = s.chip.reg b) ∧
    (∀ (a : Word) bs, a.toNat % 4 = 0 → bs.length % 4 = 0 → 0 < bs.length → bs.length ≤ 256 → a.toNat + bs.length ≤ 0x40000 →
      Completes (.svcfRegWrite a bs) s fun d => d.svcf.write = some { req := 2, addr := a.toNat, data := bs } ∧
        d.stkMem = s.chip.stkMem ∧ ∀ b, b ≠ SVCF_STATUS → d.reg b = s.chip.reg b) ∧
    (∀ (a : Word) bs, a.toNat % 4 = 0 → bs.length % 4 = 0 → 0 < bs.length → bs.length ≤ 4096 → a.toNat + bs.length ≤ 2 ^ 32 →
      Completes (.svcfStkWrite a bs) s fun d => d.svcf.write = some { req := 4, addr := a.toNat, data := bs } ∧
        d.stkMem = s.chip.stkMem ∧ ∀ b, b ≠ SVCF_STATUS → d.reg b = s.chip.reg b) ∧
    (∀ w, s.chip.svcf.write = some w → w.req = 4 → s.chip.svcf.busy = false →
      Completes .statusStage s fun d => d.svcf = { s.chip.svcf with write := none, lastAddr := 0, busy := false } ∧ d.out = [.statusStage] ∧
        d.fld SVCF_STATUS.LAST_REQ = 4 ∧ d.fld SVCF_STATUS.RESULT = 0 ∧ s.chip.stkAfter d w.addr w.data ∧
        ∀ b, b ≠ SVCF_STATUS → d.reg b = s.chip.reg b) ∧
    (s.chip.svcf.write = none →
      Completes (.lastStatus 0 8) s fun d => d.out = [.svcf s.chip.lastStatusBytes] ∧ d.regs = s.chip.regs ∧
        d.svcf = { s.chip.svcf with busy := false } ∧ d.stkMem = s.chip.stkMem) ∧
    (∀ on address setting, Completes (.setConfiguration ⟨on, address, setting⟩) s fun d => d.on SVCF_STATUS.CONFIGURED = on ∧
      d.svcf.write = none ∧ d.svcf.address = address.toNat ∧ d.svcf.setting = setting.toNat ∧ d.stkMem = s.chip.stkMem ∧
      ∀ b, b ≠ SVCF_STATUS → d.reg b = s.chip.reg b)

/-- The service port, and its supply and the V3P3 rail sensor. (R427-R430, R325, R380; log entries 53, 89.) -/
def Obligations.ServicePortAndSupplies : Prop :=
  (∀ s : State, (s.chip.boot.svcVref = true → s.chip.svcp.waiting = false → 2 ≤ s.chip.sstate →
       ∀ a bs x n, ∀ i ∈ [Instr.svcpRegWrite a bs, .svcpStkWrite a bs, .svcpRegRead x, .svcpStkRead x, .svcpRead n],
         Completes i s fun d => d.out = [.nack] ∧ d.svcp = s.chip.svcp ∧ d.stkMem = s.chip.stkMem ∧
           (∀ b, b ≠ WAKE_CAUSE → d.reg b = s.chip.reg b) ∧
           (s.chip.seq.target = 0 → (s.chip.fld PS_WAKE_EN.EN).testBit 9 = true → d.seq.woke = true)) ∧
     (s.chip.svcpOpen = true → s.chip.sstate < 2 → s.chip.svcp.waiting = false →
     (∀ (a : BitVec 40) bs, a.toNat % 0x1000 = 0x018 → a.toNat < 0x40000 → pagePresent s.chip.part (pageOf a.toNat) = true →
       bs.length = 4 →
       Completes (.svcpRegWrite a bs) s fun d => d.fld SVCP_STATUS.LAST_CMD = 0x10 ∧ d.svcp.addr = a.toNat + 4 ∧
         d.svcp.opened = true ∧ d.stkMem = s.chip.stkMem ∧
         d.reg a.toNat &&& BitVec.ofNat 32 (2 ^ pageSourceCount (pageOf a.toNat) - 1) =
           BitVec.ofNat 32 (ofBytes bs) &&& BitVec.ofNat 32 (2 ^ pageSourceCount (pageOf a.toNat) - 1) ∧
         ∀ b, b ≠ SVCP_STATUS → b ≠ WAKE_CAUSE → b ≠ a.toNat → d.reg b = s.chip.reg b) ∧
     (∀ (a : BitVec 40) bs, a.toNat % 4 = 0 → 2 ^ 32 ≤ a.toNat → a.toNat + bs.length ≤ 2 ^ 33 → bs.length % 4 = 0 →
       Completes (.svcpStkWrite a bs) s fun d => d.fld SVCP_STATUS.LAST_CMD = 0x20 ∧ d.svcp.addr = a.toNat + bs.length ∧
         s.chip.stkAfter d (a.toNat - 2 ^ 32) bs ∧ ∀ b, b ≠ SVCP_STATUS → b ≠ WAKE_CAUSE → d.reg b = s.chip.reg b) ∧
     (∀ a, a.other = none →
       Completes (.svcpRegRead a) s (fun d => d.fld SVCP_STATUS.LAST_CMD = 0x11 ∧ d.svcp.read = some (false, a.addr.toNat) ∧
         d.out = List.replicate a.after.length .nack ∧ d.svcp.opened = false ∧ d.stkMem = s.chip.stkMem ∧
         ∀ b, b ≠ SVCP_STATUS → b ≠ WAKE_CAUSE → d.reg b = s.chip.reg b) ∧
       Completes (.svcpStkRead a) s fun d => d.fld SVCP_STATUS.LAST_CMD = 0x21 ∧ d.svcp.read = some (true, a.addr.toNat) ∧
         d.out = List.replicate a.after.length .nack ∧ d.svcp.opened = false ∧ d.stkMem = s.chip.stkMem ∧
         ∀ b, b ≠ SVCP_STATUS → b ≠ WAKE_CAUSE → d.reg b = s.chip.reg b) ∧
     (∀ (n : Fin 256) a, s.chip.svcp.read = some (true, a) → a % 4 = 0 → 2 ^ 32 ≤ a → a + 4 * (n + 1) ≤ 2 ^ 33 →
       s.chip.stkBadIn (a - 2 ^ 32) (4 * (n + 1)) = false →
       Completes (.svcpRead n) s fun d => d.svcp.read = some (true, a + 4 * (n + 1)) ∧ d.stkMem = s.chip.stkMem ∧
         d.out = (List.range (n + 1)).map (fun i => .svcp (s.chip.stkRead (a - 2 ^ 32 + 4 * i) 4)) ∧
         ∀ b, b ≠ SVCP_STATUS → b ≠ WAKE_CAUSE → d.reg b = s.chip.reg b) ∧
     (∀ n : Fin 256, s.chip.svcp.read = none →
       Completes (.svcpRead n) s fun d => d.out = [.svcp (List.replicate (4 * (n + 1)) 0xFF)] ∧ d.fld SVCP_STATUS.RESULT = 5 ∧
         d.stkMem = s.chip.stkMem) ∧
     (∀ i ∈ [Instr.stop, Instr.sclTimeout], Completes i s fun d => d.svcp.opened = false ∧ d.svcp.part = [] ∧ d.svcp.todo = [] ∧
       d.fld SVCP_STATUS.ABORTED = (if s.chip.svcp.part = [] then s.chip.fld SVCP_STATUS.ABORTED
         else min (s.chip.fld SVCP_STATUS.ABORTED + 1) (2 ^ SVCP_STATUS.ABORTED.width - 1)) ∧
       d.stkMem = s.chip.stkMem ∧ ∀ b, b ≠ SVCP_STATUS → d.reg b = s.chip.reg b))) ∧
  (∀ s : State,
     Completes .svcVrefLoss s (fun d => d.boot = { s.chip.boot with svcVref := false } ∧ d.svcp.opened = false ∧
       d.stkMem = s.chip.stkMem ∧ ∀ b, b ≠ SVCP_STATUS → d.reg b = s.chip.reg b) ∧
     Completes .svcVrefReturn s (fun d => d = { s.chip with out := [], boot := { s.chip.boot with svcVref := true } }) ∧
     Completes .v3p3RailTrip s (fun d => d.stkMem = s.chip.stkMem ∧
       (∀ p : Fin 2, s.chip.copp.ganged.contains (1, p.val) = true → s.chip.on (PEP_STATUS.PWR_ON p) = true →
         d.on (PEP_STATUS.PWR_ON p) = false ∧ d.on (PEP_STATUS.PWR_FAULT p) = true) ∧
       (∀ o : Fin 4, s.chip.copp.ganged.contains (1, o.val + 2) = true → s.chip.on (DPTX_STATUS.PWR_ON o) = true →
         d.on (DPTX_STATUS.PWR_ON o) = false ∧ d.on (DPTX_STATUS.PWR_OC o) = true)))

/-- The PCIe tunnel. (R263-R269, R281; log entries 11, 90.) -/
def Obligations.PcieTunnel : Prop :=
  ∀ s : State,
    (∀ (f : Fin 256) m (dest : Fin 3) ahead, s.chip.tlpsOn = true → s.chip.safe = false →
      let t := tunnelledTlp m
      (s.chip.tlpBad f m dest = true →
        Completes (.tlp f m dest ahead) s fun d => d.fld PCIE_STATUS.TLP_REJ = raised s.chip PCIE_STATUS.TLP_REJ ∧
          d.pcie = { s.chip.pcie with malformed := true } ∧ d.stkMem = s.chip.stkMem) ∧
      (s.chip.tlpBad f m dest = false → dest = 0 → tlpClass t ≠ some clsNp →
        Completes (.tlp f m dest ahead) s fun d => d = { s.chip with out := [.tlp 0 t] }) ∧
      (∀ fn, s.chip.tlpBad f m dest = false → dest = 0 → tlpClass t = some clsNp → tlpIsConfig t = true → tlpHasData t = false →
        s.chip.cfgTarget t = some fn → s.chip.cfgFlow ≠ 0 → s.chip.on (FLOW_CFG.ENC s.chip.cfgFlow) = false →
        let g := s.chip.cfgFlow
        let answer := completionTlp (tlpNat t 8 2) (tlpRequest t) 0 4 0 (toBytes 4 (s.chip.switchWord fn (tlpReg t)).toNat)
        Completes (.tlp f m dest ahead) s fun d => d.regs = s.chip.regs ∧ d.stkMem = s.chip.stkMem ∧ d.pcie = s.chip.pcie ∧
          d.outQ (s.chip.sideLink g) g = s.chip.outQ (s.chip.sideLink g) g ++
            cellsOfMessage clsCpl s.chip.epoch ([0x40#8, 0] ++ toBytes 2 answer.length ++ toBytes 4 0 ++ answer)) ∧
      (∀ p : Fin 2, s.chip.tlpBad f m dest = false → dest.val = p + 1 → p.val ∈ s.chip.pepList →
        s.chip.on (PEP_STATUS.LINK_UP p) = true → tlpIsRead t = false ∨ s.chip.aheadFor f t = none →
        Completes (.tlp f m dest ahead) s fun d => d.out = [.tlp dest t] ∧ d.stkMem = s.chip.stkMem ∧
          (∀ a, a ≠ PCIE_PF_DISCARD → d.reg a = s.chip.reg a) ∧
          (tlpClass t = some clsNp → { req := tlpRequest t, cfg := tlpIsConfig t, peer := false } ∈ (d.pep p).reqs))) ∧
    (∀ (p : Fin 2) t cls, s.chip.on (PEP_STATUS.LINK_UP p) = true → t.length = tlpBytes t → tlpClass t = some cls →
      tlpIsCompletion t = false →
      (s.chip.tlpsOn = true → s.chip.pepFlow p ≠ 0 → s.chip.tlpHeld + 8 + t.length ≤ 131072 →
        s.chip.upSpace (s.chip.pepFlow p) t = true → s.chip.on (FLOW_CFG.ENC (s.chip.pepFlow p)) = false →
        let f := s.chip.pepFlow p
        Completes (.endpointTlp p ⟨t, false⟩) s fun d => d.regs = s.chip.regs ∧ d.stkMem = s.chip.stkMem ∧
          d.outQ (s.chip.sideLink f) f = s.chip.outQ (s.chip.sideLink f) f ++
            cellsOfMessage cls s.chip.epoch ([0x40#8] ++ toBytes 1 (p + 1) ++ toBytes 2 t.length ++ toBytes 4 0 ++ t)) ∧
      (s.chip.portLinked (1 - p) = true →
        Completes (.endpointTlp p ⟨t, true⟩) s fun d => d.out = [.tlp (2 - p) t] ∧ d.queues = s.chip.queues ∧
          d.stkMem = s.chip.stkMem)) ∧
    Completes .pciePrefetchExpiry s (fun d => d.stkMem = s.chip.stkMem ∧
      d.pcie.ahead = s.chip.pcie.ahead.filter fun b => !decide (b.epoch + 2 ≤ s.chip.epoch)) ∧
    (∀ v, bit v 31 = true →
      let named := (s.chip.writeMasked PCIE_TUN v).cfgFlow :: (s.chip.pepList.map s.chip.pepFlow).filter (· != 0)
      (named.all s.chip.pciFlow = true → named.Nodup →
        Completes (.pcieTunEnable v) s fun d => d.on PCIE_TUN.EN = true ∧ d.on PCIE_STATUS.UP = true ∧ d.stkMem = s.chip.stkMem) ∧
      (named.all s.chip.pciFlow = false ∨ ¬named.Nodup →
        Completes (.pcieTunEnable v) s fun d => d = { s.chip with out := [] })) ∧
    (∀ v, bit v 31 = false →
      Completes (.pcieTunEnable v) s fun d => d.on PCIE_TUN.EN = false ∧ d.on PCIE_STATUS.UP = false ∧ d.pcie.ahead = [] ∧
        d.pcie.upReqs = [] ∧ d.stkMem = s.chip.stkMem) ∧
    (∀ v, bit v 2 = true →
      Completes (.pcieCntClr v) s fun d => d.fld PCIE_STATUS.TLP_REJ = 0 ∧ d.reg PCIE_PF_DISCARD = 0 ∧ d.pcie = s.chip.pcie ∧
        d.stkMem = s.chip.stkMem ∧ ∀ p ∈ s.chip.pepList, d.fld (PEP_STATUS.DOWN_CNT p) = 0 ∧ d.fld (PEP_STATUS.OC_CNT p) = 0)

/-- Power and links of the M.2 sockets. (R270-R275.) -/
def Obligations.Sockets : Prop :=
  (∀ s : State, ∀ p : Fin 2,
     (s.chip.tlpsOn = true → p.val ∈ s.chip.pepList → (s.chip.pep p).asked = false →
       Completes (.powerControllerOn p) s fun d => (d.pep p).asked = true ∧ d.stkMem = s.chip.stkMem ∧
         (d.granted (itSock p) = true → (s.chip.pep p).cycled = false → 10 ≤ d.boot.step → d.domainOn 10 = true → d.safe = false →
           d.pageOn (0x2C + p) = true → d.switchWorks (3 + p) = true →
           (d.pep p).waiting = true ∨ d.on (PEP_STATUS.PWR_ON p) = true ∨ d.rampDue (.m2 p) = true)) ∧
     ((s.chip.pep p).waiting = true → s.chip.boot.rampNow = none →
       Completes (.socketRampStart p) s fun d => d.pep p = { s.chip.pep p with waiting := false, refclk := true } ∧
         .refclk p true ∈ d.out ∧ d.rampDue (.m2 p) = true ∧ d.regs = s.chip.regs ∧ d.stkMem = s.chip.stkMem) ∧
     (s.chip.on (PEP_STATUS.PWR_ON p) = true → (s.chip.pep p).ready = true → s.chip.on (PEP_STATUS.PERST p) = true →
       s.chip.safe = false →
       Completes (.perstRelease p) s fun d => d.on (PEP_STATUS.PERST p) = false ∧ d.out = [.perst p false] ∧
         d.stkMem = s.chip.stkMem ∧ ∀ a, a ≠ PEP_STATUS p → d.reg a = s.chip.reg a) ∧
     (s.chip.tlpsOn = true → p.val ∈ s.chip.pepList →
       Completes (.powerControllerOff p) s fun d => (d.pep p).asked = false ∧ (d.pep p).cycled = false ∧
         d.on (PEP_STATUS.PWR_ON p) = false ∧ d.on (PEP_STATUS.PERST p) = true ∧ (d.pep p).refclk = false ∧ d.stkMem = s.chip.stkMem) ∧
     (s.chip.pcie.offDelay = true → s.chip.native .ul = false →
       Completes .offDelayExpiry s fun d => d.pcie.offDelay = false ∧ (p.val ∈ s.chip.pepList → (d.pep p).asked = false ∧
         d.on (PEP_STATUS.PWR_ON p) = false) ∧
         d.stkMem = s.chip.stkMem) ∧
     (s.chip.on (PEP_STATUS.PWR_ON p) = true ∨ s.chip.boot.rampNow = some (.m2 p) →
       Completes (.socketOvercurrent p) s fun d => d.on (PEP_STATUS.PWR_ON p) = false ∧ d.on (PEP_STATUS.PWR_FAULT p) = true ∧
         d.fld (PEP_STATUS.OC_CNT p) = raised s.chip (PEP_STATUS.OC_CNT p) ∧ (d.pep p).cycled = true ∧
         d.on (PEP_STATUS.PERST p) = true ∧ (d.pep p).fault = true ∧ d.stkMem = s.chip.stkMem)) ∧
  (∀ s : State, ∀ p : Fin 2, s.chip.on (PEP_STATUS.PWR_ON p) = true →
     (∀ level l12, (s.chip.pep p).refclk ≠ !(level && l12) →
       Completes (.clkreq p level l12) s fun d => (d.pep p).refclk = !(level && l12) ∧ d.out = [.refclk p !(level && l12)] ∧
         d.regs = s.chip.regs ∧ d.stkMem = s.chip.stkMem) ∧
     (s.chip.tlpsOn = true → s.chip.cfgFlow ≠ 0 → s.chip.on (FLOW_CFG.ENC s.chip.cfgFlow) = false →
       let f := s.chip.cfgFlow
       Completes (.pewake p) s fun d => d.stkMem = s.chip.stkMem ∧ ∃ r, d.outQ (s.chip.sideLink f) f =
         s.chip.outQ (s.chip.sideLink f) f ++ cellsOfMessage clsP s.chip.epoch
           ([0x40#8] ++ toBytes 1 0 ++ toBytes 2 (pmeTlp r).length ++ toBytes 4 0 ++ pmeTlp r)) ∧
     (s.chip.on (PEP_STATUS.LINK_UP p) = true →
       Completes (.surpriseDown p) s fun d => d.on (PEP_STATUS.LINK_UP p) = false ∧ d.on (PEP_STATUS.SURPRISE p) = true ∧
         d.fld (PEP_STATUS.DOWN_CNT p) = raised s.chip (PEP_STATUS.DOWN_CNT p) ∧ (d.pep p).reqs = [] ∧
         (d.pep p).dllsc = true ∧ d.stkMem = s.chip.stkMem ∧ ∀ a, a ≠ PEP_STATUS p → d.reg a = s.chip.reg a) ∧
     (∀ (speed : Fin 5) (width : Fin 3), s.chip.on (PEP_STATUS.PERST p) = false → s.chip.on (PEP_STATUS.LINK_UP p) = false →
       speed.val ≤ s.chip.maxSpeed p →
       Completes (.downstreamLinkUp p speed width) s fun d => d.on (PEP_STATUS.LINK_UP p) = true ∧
         d.fld (PEP_STATUS.SPEED p) = speed ∧ d.fld (PEP_STATUS.WIDTH p) = 2 ^ width.val ∧ d.stkMem = s.chip.stkMem ∧
         ∀ a, a ≠ PEP_STATUS p → d.reg a = s.chip.reg a))

/-- Ethernet frames, auto-negotiation and low-power idle. (R259, R276-R280; log entries 5, 55, 91.) -/
def Obligations.Ethernet : Prop :=
  (∀ s : State, s.chip.ethOn = true →
     let sent (bs : List Byte) : Emit := .ethTx (bs ++ List.replicate (60 - bs.length) 0 ++
       toBytes 4 (crc32 (bs ++ List.replicate (60 - bs.length) 0)))
     (∀ (f : Fin 256) m, s.chip.native .ul = true → s.chip.on ENET_TUN.EN = true → s.chip.flowState f = 1 →
       s.chip.fld (FLOW_CFG.ENDPOINT f) = 8 →
       let body := ((m.flatMap fun x => fitBytes 120 x.payload).drop 8).take (hdrNat m 2 2)
       (s.chip.frameBad f m = false → s.chip.eth.pausedNs ≤ s.chip.timeNs →
         Completes (.frame f m) s fun d => d = { s.chip with lpi := false, out := [sent body] }) ∧
       (s.chip.frameBad f m = false → s.chip.timeNs < s.chip.eth.pausedNs →
         Completes (.frame f m) s fun d => d = { s.chip with
           lpi := false, out := [], eth := { s.chip.eth with txQ := s.chip.eth.txQ ++ [body] } }) ∧
       (s.chip.frameBad f m = true →
         Completes (.frame f m) s fun d => d.fld ENET_CNT.TX_REJ = raised s.chip ENET_CNT.TX_REJ ∧ d.out = [] ∧
           d.stkMem = s.chip.stkMem ∧ ∀ a, a ≠ ENET_CNT → d.reg a = s.chip.reg a)) ∧
     (∀ bs, 64 ≤ bs.length → bs.length ≤ s.chip.maxLen →
       let body := bs.take (bs.length - 4)
       let f := s.chip.pcpFlow (s.chip.framePcp body)
       (ofBytes (bs.drop (bs.length - 4)) ≠ crc32 body →
         Completes (.frameReceived bs) s fun d => d.fld ENET_RXERR.FCS_ERR = raised s.chip ENET_RXERR.FCS_ERR ∧
           d.stkMem = s.chip.stkMem ∧ ∀ a, a ≠ ENET_RXERR → d.reg a = s.chip.reg a) ∧
       (ofBytes (bs.drop (bs.length - 4)) = crc32 body → s.chip.on ENET_CTRL.PAUSE = true → s.chip.isPause body = true →
         s.chip.eth.txQ = [] →
         Completes (.frameReceived bs) s fun d => d = { s.chip with out := [], eth := { s.chip.eth with
           pausedNs := s.chip.timeNs + ((body.getD 16 0).toNat * 256 + (body.getD 17 0).toNat) * 512000 /
             ethMbps (s.chip.fld ENET_STATUS.SPEED) } }) ∧
       (ofBytes (bs.drop (bs.length - 4)) = crc32 body → s.chip.on ENET_CTRL.PAUSE = false ∨ s.chip.isPause body = false →
         s.chip.native .ul = true → f ≠ 0 → s.chip.flowState f = 1 → s.chip.fld (FLOW_CFG.ENDPOINT f) = 8 →
         s.chip.on ENET_TUN.EN = true → s.chip.rxHeld + 8 + body.length ≤ 262144 → s.chip.on (FLOW_CFG.ENC f) = false →
         Completes (.frameReceived bs) s fun d => d.regs = s.chip.regs ∧ d.stkMem = s.chip.stkMem ∧
           d.outQ (s.chip.sideLink f) f = s.chip.outQ (s.chip.sideLink f) f ++ cellsOfMessage clsP s.chip.epoch
             ([0x30#8] ++ toBytes 1 (s.chip.framePcp body) ++ toBytes 2 body.length ++ toBytes 4 0 ++ body)) ∧
       (ofBytes (bs.drop (bs.length - 4)) = crc32 body → s.chip.on ENET_CTRL.PAUSE = false ∨ s.chip.isPause body = false →
         s.chip.native .ul = false → 2 ≤ s.chip.fld HUB_STATUS.UP → s.chip.filterPasses body = true → s.chip.ncmReady = true →
         Completes (.frameReceived bs) s fun d => d = { s.chip with out := [.ncm body] })) ∧
     (∀ frames filter, 2 ≤ s.chip.fld HUB_STATUS.UP → s.chip.on HUB_STATUS.SUSPENDED = false →
       (s.chip.noRouter = true → Completes (.ntb ⟨frames, filter⟩) s fun d => d.out = [.nak] ∧ d.regs = s.chip.regs ∧
         d.eth = s.chip.eth ∧ d.queues = s.chip.queues ∧ d.stkMem = s.chip.stkMem ∧
         (s.chip.fld HUB_STATUS.UP = 2 ∨ s.chip.fld HUB_STATUS.UP = 3 → .network ∈ d.svcf.nrdy)) ∧
       (s.chip.noRouter = false → ntbFits frames = true → s.chip.eth.pausedNs ≤ s.chip.timeNs →
         (∀ x ∈ frames, 14 ≤ x.length ∧ x.length ≤ s.chip.maxLen - 4) →
         Completes (.ntb ⟨frames, filter⟩) s fun d => d.out = frames.map sent ∧ d.regs = s.chip.regs ∧ d.stkMem = s.chip.stkMem ∧
           d.eth = { s.chip.eth with filter := (filter.map (·.toNat)).getD s.chip.eth.filter }))) ∧
  (∀ s : State,
     Completes (.ethLinkChange none) s (fun d => d.on ENET_STATUS.LINK = false ∧ d.fld ENET_STATUS.SPEED = 0 ∧
       d.lpi = false ∧ d.stkMem = s.chip.stkMem ∧ ∀ a, a ≠ ENET_STATUS → a ≠ EPHY_STATUS → d.reg a = s.chip.reg a) ∧
     (∀ (adv : BitVec 5) eee (i : Fin 5), s.chip.ethRuns = true → s.chip.on ENET_STATUS.LINK = false →
       ((List.range 5).filter fun j => (s.chip.fld EPHY_CTRL.ADV &&& adv.toNat &&& s.chip.ethSpeeds).testBit j).getLast? = some i.val →
       Completes (.ethLinkChange (some (adv, eee))) s fun d => d.on ENET_STATUS.LINK = true ∧ d.fld ENET_STATUS.SPEED = i + 1 ∧
         d.fld EPHY_STATUS.LP_ADV = adv.toNat ∧ d.stkMem = s.chip.stkMem ∧
         ∀ a, a ≠ ENET_STATUS → a ≠ EPHY_STATUS → d.reg a = s.chip.reg a) ∧
     (∀ v, bit v 21 = true → s.chip.ethRuns = true →
       Completes (.reneg v) s fun d => d.on ENET_STATUS.LINK = false ∧ .autoneg ∈ d.out ∧ d.stkMem = s.chip.stkMem) ∧
     (s.chip.on ENET_STATUS.LINK = true → s.chip.on ENET_STATUS.EEE = true → s.chip.ethRuns = true → s.chip.eth.txQ = [] →
       s.chip.lpi = false →
       Completes .lowPowerIdle s fun d => d = { s.chip with lpi := true, out := [.lowPowerIdle] }) ∧
     (∀ v, bit v 25 = true →
       Completes (.enetCntClr v) s fun d => d.reg ENET_CNT = 0 ∧ d.reg ENET_RXERR = 0 ∧ d.stkMem = s.chip.stkMem))

/-- Type-C attach and detach. (R283-R285, R302.) -/
def Obligations.PortsAttachAndDetach : Prop :=
  ∀ s : State,
    (∀ (p : Fin 2) flip, s.chip.pdOn p = true → s.chip.attached p = false → s.chip.safe = false → 1 ≤ s.chip.boot.step →
      (p = 0 → s.chip.inputPresent = true) →
      Completes (.sinkAttach p flip) s fun d => d.attached p = true ∧ d.isSource p = true ∧
        d.on (PD_STATUS.FLIP p) = flip ∧ d.stkMem = s.chip.stkMem) ∧
    (∀ pi cur flip, s.chip.pdOn (if pi then 2 else 0) = true → s.chip.attached (if pi then 2 else 0) = false →
      1 ≤ s.chip.boot.step →
      Completes (.sourceAttach pi cur flip) s fun d => d.attached (if pi then 2 else 0) = true ∧
        d.isSource (if pi then 2 else 0) = false ∧ d.on (PD_STATUS.FLIP (if pi then 2 else 0)) = flip ∧
        (d.pdPort (if pi then 2 else 0)).adv = advMa cur ∧ d.stkMem = s.chip.stkMem) ∧
    (∀ (p : Fin 2) moving, s.chip.attached p = true → s.chip.isSource p = true →
      Completes (.sinkDetach p moving) s fun d => d.attached p = false ∧ d.reg (PD_CONTRACT p) = 0 ∧ d.stkMem = s.chip.stkMem) ∧
    (∀ moving, s.chip.attached 0 = true → s.chip.isSource 0 = false →
      Completes (.sourceDetach moving) s fun d => d.attached 0 = false ∧ d.reg (PD_CONTRACT 0) = 0 ∧ d.stkMem = s.chip.stkMem)

/-- Requests of the dock and of its partner. (R286-R290; log entries 10, 56.) -/
def Obligations.PdRequests : Prop :=
  (∀ s : State,
     (∀ pi caps, let p := if pi then 2 else 0
       s.chip.sourceOn p = true → s.chip.pdOn p = true → (s.chip.pdPort p).off = false →
       Completes (.sourceCapabilities pi caps) s fun d => (d.pdPort p).caps = caps ∧ d.stkMem = s.chip.stkMem ∧
         (∀ a, a ≠ PD_STATUS p → d.reg a = s.chip.reg a) ∧
         (d.candidates p caps = [] → d.out = []) ∧
         ∀ r, d.chooseRequest p caps = some r → (d.pdPort p).asked = some r ∧ d.out = [.pd p (.request r)] ∧
           (r.mismatch = false → (∃ x ∈ d.candidates p caps, r = requestFor x false) ∧
             1000000 * d.fld (PD_SNK_CFG.MIN_W p) ≤ r.mv * r.ma ∧ ∀ x ∈ d.candidates p caps,
               x.2.mv * x.2.ma < r.mv * r.ma ∨ (x.2.mv * x.2.ma = r.mv * r.ma ∧ x.2.mv ≤ r.mv)) ∧
           (r.mismatch = true → r.mv = 5000 ∧ r.typ = 2 ∧ ∀ x ∈ d.candidates p caps,
             x.2.mv * x.2.ma < 1000000 * d.fld (PD_SNK_CFG.MIN_W p))) ∧
     (∀ (p : Fin 3) r, (s.chip.pdPort p).asked = some r → (s.chip.pdPort p).waited = false ∨ (s.chip.pdPort p).swap = none →
       (∀ cur, s.chip.sourceOn p = true →
         Completes (.accept p cur) s fun d => d.reg (PD_CONTRACT p) = contractWord r ∧ (d.pdPort p).asked = none ∧
           d.stkMem = s.chip.stkMem) ∧
       Completes (.reject p) s (fun d => (d.pdPort p).asked = none ∧ d.fld (PD_CNT.REJECTS p) = raised s.chip (PD_CNT.REJECTS p) ∧
         d.stkMem = s.chip.stkMem ∧ ∀ a, a ≠ PD_CNT p → d.reg a = s.chip.reg a) ∧
       ((s.chip.pdPort p).tries < 8 →
         Completes (.wait p) s fun d => d.pdPort p = { s.chip.pdPort p with waited := true } ∧
           d.fld (PD_CNT.WAITS p) = raised s.chip (PD_CNT.WAITS p) ∧ d.stkMem = s.chip.stkMem ∧
           ∀ a, a ≠ PD_CNT p → d.reg a = s.chip.reg a) ∧
       ((s.chip.pdPort p).waited = true →
         Completes (.waitRetry p) s fun d => d.out = [.pd p (.request r)] ∧ d.regs = s.chip.regs ∧ d.stkMem = s.chip.stkMem ∧
           d.pdPort p = { s.chip.pdPort p with waited := false, tries := (s.chip.pdPort p).tries + 1 })) ∧
     (∀ p : Fin 3, s.chip.sourceOn p = true → 3 ≤ s.chip.fld (PD_CONTRACT.TYPE p) → (s.chip.pdPort p).asked = none →
       Completes (.ppsRequestTimer p) s fun d => (d.pdPort p).asked = some (s.chip.contractReq p) ∧
         d.out = [.pd p (.request (s.chip.contractReq p))] ∧ d.regs = s.chip.regs ∧ d.stkMem = s.chip.stkMem)) ∧
  (∀ s : State, ∀ p : Fin 2, ∀ pos : Fin 16, ∀ mv ma stale, (s.chip.pdPort p).switch = true → (s.chip.pdPort p).discharge = none →
     s.chip.safe = false →
     (∀ r, (s.chip.pdPort p).levelMoving = false ∨ stale = false → s.chip.partnerRequest p pos mv ma = some r →
       s.chip.inOffers p r = true →
       Completes (.request p pos mv ma false stale) s fun d => d.reg (PD_CONTRACT p) = contractWord r ∧
         d.on (PD_STATUS.EXPLICIT p) = true ∧ d.out = [.pd p .accept] ∧ d.stkMem = s.chip.stkMem ∧
         ∀ a, a ≠ PD_CONTRACT p → a ≠ PD_STATUS p → a ≠ WAKE_CAUSE → d.reg a = s.chip.reg a) ∧
     ((s.chip.pdPort p).levelMoving = false ∨ stale = false →
       (∀ r, s.chip.partnerRequest p pos mv ma = some r → s.chip.inOffers p r = false) →
       Completes (.request p pos mv ma false stale) s fun d => d.out = [.pd p .reject] ∧
         d.fld (PD_CNT.REJECTS p) = raised s.chip (PD_CNT.REJECTS p) ∧ d.stkMem = s.chip.stkMem ∧
         ∀ a, a ≠ PD_CNT p → d.reg a = s.chip.reg a) ∧
     ((s.chip.pdPort p).levelMoving = true → stale = true →
       Completes (.request p pos mv ma false stale) s fun d => d.out = [.pd p .wait] ∧
         d.fld (PD_CNT.WAITS p) = raised s.chip (PD_CNT.WAITS p) ∧ d.stkMem = s.chip.stkMem))

/-- Role swaps. (R282, R288, R291, R292, R299-R301; log entry 56.) -/
def Obligations.RoleSwaps : Prop :=
  ∀ s : State,
    (∀ p : Fin 3, s.chip.attached p = true → s.chip.pdOn p = true →
      (∀ cur, p ≠ 0 ∨ s.chip.isSource 0 = s.chip.inputPresent →
        Completes (.prSwap p cur) s fun d => d.out = [.pd p .reject] ∧ d.fld (PD_CNT.REJECTS p) = raised s.chip (PD_CNT.REJECTS p) ∧
          d.stkMem = s.chip.stkMem ∧ ∀ a, a ≠ PD_CNT p → d.reg a = s.chip.reg a) ∧
      (∀ cur, p = 0 → s.chip.safe = false → s.chip.isSource 0 ≠ s.chip.inputPresent →
        Completes (.prSwap p cur) s fun d => d.isSource 0 = !s.chip.isSource 0 ∧ d.stkMem = s.chip.stkMem) ∧
      Completes (.drSwap p) s (fun d => d.out = [.pd p .reject] ∧ d.fld (PD_CNT.REJECTS p) = raised s.chip (PD_CNT.REJECTS p) ∧
        d.stkMem = s.chip.stkMem ∧ ∀ a, a ≠ PD_CNT p → d.reg a = s.chip.reg a) ∧
      (p ≠ 2 → s.chip.safe = false →
        Completes (.vconnSwap p) s fun d =>
          d.on (PD_STATUS.VCONN p) = (if p = 0 then !s.chip.on (PD_STATUS.VCONN 0) else s.chip.on (PD_STATUS.VCONN p)) ∧
          .pd p .accept ∈ d.out ∧ d.stkMem = s.chip.stkMem ∧ ∀ a, a ≠ PD_STATUS p → d.reg a = s.chip.reg a)) ∧
    ((s.chip.pdPort 0).asked = none ∨ (s.chip.pdPort 0).waited = true → (s.chip.pdPort 0).swapWaited = false →
      (∀ cur, (s.chip.pdPort 0).swap = some .toSource →
        Completes (.accept 0 cur) s fun d => d.isSource 0 = true ∧ d.stkMem = s.chip.stkMem) ∧
      (∀ cur, (s.chip.pdPort 0).swap = some .toSink →
        Completes (.accept 0 cur) s fun d => d.isSource 0 = false ∧ d.stkMem = s.chip.stkMem) ∧
      (∀ cur, (s.chip.pdPort 0).swap = some .vconn →
        Completes (.accept 0 cur) s fun d => d.on (PD_STATUS.VCONN 0) = !s.chip.on (PD_STATUS.VCONN 0) ∧ d.stkMem = s.chip.stkMem ∧
          ∀ a, a ≠ PD_STATUS 0 → d.reg a = s.chip.reg a) ∧
      (∀ x, (s.chip.pdPort 0).swap = some x → x ≠ .vconn → (s.chip.pdPort 0).swapTries < 3 →
        ∀ i ∈ [(Instr.reject 0, PD_CNT.REJECTS 0), (.wait 0, PD_CNT.WAITS 0)],
          Completes i.1 s fun d => d.pdPort 0 = { s.chip.pdPort 0 with swapWaited := true } ∧ d.fld i.2 = raised s.chip i.2 ∧
            d.out = [] ∧ d.stkMem = s.chip.stkMem ∧ ∀ a, a ≠ PD_CNT 0 → d.reg a = s.chip.reg a)) ∧
    ((s.chip.pdPort 0).swapWaited = true → (s.chip.pdPort 0).swap.isSome = true →
      Completes .prSwapRetry s fun d => d.out = [.pd 0 .prSwap] ∧ d.regs = s.chip.regs ∧ d.stkMem = s.chip.stkMem ∧
        d.pdPort 0 = { s.chip.pdPort 0 with swapWaited := false, swapTries := (s.chip.pdPort 0).swapTries + 1 }) ∧
    (s.chip.attached 0 = true → s.chip.pdOn 0 = true → s.chip.safe = false →
      (s.chip.pd.frs = .fed → Completes .frSwap s fun d => d.isSource 0 = false ∧ d.pd.frs = .idle ∧ d.stkMem = s.chip.stkMem) ∧
      (s.chip.pd.frs ≠ .fed → Completes .frSwap s fun d => d.out = [.pd 0 .reject] ∧ d.pd = s.chip.pd ∧
        d.stkMem = s.chip.stkMem))

/-- Cable discovery and alternate modes. (R293-R297; log entry 12.) -/
def Obligations.CableAndModes : Prop :=
  ∀ s : State,
    (∀ (p : Fin 2) id, s.chip.attached p = true → s.chip.on (PD_STATUS.VCONN p) = true → s.chip.on (PD_STATUS.CBL_DONE p) = false →
      p = 0 ∨ s.chip.paired = false →
      Completes (.cableDiscovery p id) s fun d => d.on (PD_STATUS.CBL_DONE p) = true ∧ d.stkMem = s.chip.stkMem ∧
        ∀ x, id = some x → d.on (PD_STATUS.CBL_EMARK p) = true ∧ d.fld (PD_STATUS.CBL_CUR p) = (if x.amps = 5 then 2 else 1)) ∧
    (s.chip.attached 0 = true → s.chip.pdOn 0 = true → 1 ≤ s.chip.boot.step → s.chip.boot.step ≤ 3 →
      ∀ m pin, ∀ i ∈ [Instr.discoverIdentity, .discoverSvids, .discoverModes m, .enterMode m, .exitMode m, .dpConfigure pin, .dpStatus],
        Completes i s fun d => d = { s.chip with out := [.pd 0 .busy] }) ∧
    (s.chip.attached 0 = true → s.chip.pdOn 0 = true → 4 ≤ s.chip.boot.step →
      Completes .discoverIdentity s (fun d => d.regs = s.chip.regs ∧ d.stkMem = s.chip.stkMem ∧ ∃ hdr ufp,
        d.out = [.pd 0 (.ack [hdr, s.chip.reg (PD_IDENT1 0),
          BitVec.ofNat 32 (s.chip.fld (PD_IDENT0.PID 0) * 65536 + (s.chip.reg COLOPHON).toNat % 65536), ufp])] ∧
        hdr &&& 0x3C00FFFF = BitVec.ofNat 32 (0xC000000 + s.chip.fld (PD_IDENT0.VID 0)) ∧ ufp &&& 0x05000030 = 0x05000010) ∧
      Completes .discoverSvids s (fun d => d.regs = s.chip.regs ∧ d.stkMem = s.chip.stkMem ∧ d.out = [.pd 0 (
        match s.chip.offersMode .caraxline, s.chip.offersMode .displayPort with
        | true, true => .ack [0xC4A2FF01, 0]
        | true, false => .ack [0xC4A20000]
        | false, true => .ack [0xFF010000]
        | false, false => .nak)]) ∧
      (∀ m, s.chip.offersMode m = false →
        Completes (.discoverModes m) s fun d => d.out = [.pd 0 .nak] ∧ d.regs = s.chip.regs ∧ d.stkMem = s.chip.stkMem) ∧
      (s.chip.offersMode .caraxline = true →
        Completes (.discoverModes .caraxline) s fun d => d.out = [.pd 0 (.ack [s.chip.modeVdo])] ∧ d.regs = s.chip.regs ∧
          d.stkMem = s.chip.stkMem) ∧
      (s.chip.offersMode .displayPort = true →
        Completes (.discoverModes .displayPort) s fun d => d.regs = s.chip.regs ∧ d.stkMem = s.chip.stkMem ∧
          ∃ vdo, d.out = [.pd 0 (.ack [vdo])] ∧ vdo.getLsbD 18 = s.chip.on (PD_ALT_CFG.PIN_C 0) ∧
            vdo.getLsbD 19 = s.chip.on (PD_ALT_CFG.PIN_D 0)) ∧
      (s.chip.offersMode .caraxline = true → s.chip.inMode = false →
        Completes (.enterMode .caraxline) s fun d => d.fld (PD_STATUS.MODE 0) = 2 ∧ d.stkMem = s.chip.stkMem) ∧
      (s.chip.offersMode .displayPort = true → s.chip.inMode = false →
        Completes (.enterMode .displayPort) s fun d => d.pd.dpMode = true ∧ d.out = [.pd 0 (.ack [])] ∧ d.regs = s.chip.regs ∧
          d.stkMem = s.chip.stkMem) ∧
      (∀ m, s.chip.inMode = true →
        Completes (.enterMode m) s fun d => d.out = [.pd 0 .nak] ∧ d.regs = s.chip.regs ∧ d.pd = s.chip.pd) ∧
      (∀ m, s.chip.isMode m = true → s.chip.inMode = true →
        Completes (.exitMode m) s fun d => d.fld (PD_STATUS.MODE 0) = 1 ∧ d.pd.dpMode = false ∧ d.stkMem = s.chip.stkMem) ∧
      (∀ pinD : Bool, s.chip.pd.dpMode = true → s.chip.on (if pinD then PD_ALT_CFG.PIN_D 0 else PD_ALT_CFG.PIN_C 0) = true →
        Completes (.dpConfigure (some pinD)) s fun d => d.fld (PD_STATUS.MODE 0) = (if pinD then 4 else 3) ∧
          .pd 0 (.ack []) ∈ d.out ∧ d.stkMem = s.chip.stkMem) ∧
      (s.chip.pd.dpMode = true →
        Completes .dpStatus s fun d => d.regs = s.chip.regs ∧ d.stkMem = s.chip.stkMem ∧ ∃ vdo, d.out = [.pd 0 (.ack [vdo])] ∧
          vdo.getLsbD 7 = decide (3 ≤ s.chip.fld (PD_STATUS.MODE 0)) ∧ vdo.getLsbD 4 = s.chip.on (PD_ALT_CFG.MF_PREF 0))) ∧
    (∀ q, s.chip.pdOn 1 = true → s.chip.paired = false → s.chip.on (PD_STATUS.EXPLICIT 1) = true → s.chip.native .ul = true →
      s.chip.on (PD_ALT_CFG.CARAX 1) = true → s.chip.native .cs = false → s.chip.position = some q → q ≠ 3 →
      Completes (.csDiscovery true) s fun d => d.fld (PD_STATUS.MODE 1) = 2 ∧ .pd 1 .enterMode ∈ d.out ∧ d.stkMem = s.chip.stkMem)

/-- Hard resets, loss of the input, Fast Role Swap and the budget. (R298-R304, R309, R312; log entry 58.) -/
def Obligations.HardResetsAndInput : Prop :=
  (∀ s : State,
     (∀ p : Fin 3, s.chip.attached p = true →
       Completes (.hardReset p) s (fun d => d.fld (PD_CNT.HARD_RESETS p) = raised s.chip (PD_CNT.HARD_RESETS p) ∧
         d.stkMem = s.chip.stkMem) ∧
       ∀ v, bit v 25 = true → (s.chip.writeMasked (PD_CTRL p) v).on (PD_CTRL.EN p) = true →
         Completes (.hrst p v) s fun d => d.fld (PD_CNT.HARD_RESETS p) = raised s.chip (PD_CNT.HARD_RESETS p) ∧
           d.stkMem = s.chip.stkMem) ∧
     (∀ p : Fin 2, s.chip.attached p = true →
       (s.chip.isSource p = true → 3 ≤ s.chip.fld (PD_CONTRACT.TYPE p) →
         Completes (.ppsTimeout p) s fun d => d.fld (PD_CNT.HARD_RESETS p) = raised s.chip (PD_CNT.HARD_RESETS p) ∧
           d.stkMem = s.chip.stkMem) ∧
       ((s.chip.pdPort p).overLevel = true →
         Completes (.levelFallTimeout p) s fun d => d.fld (PD_CNT.HARD_RESETS p) = raised s.chip (PD_CNT.HARD_RESETS p) ∧
           d.stkMem = s.chip.stkMem) ∧
       ((s.chip.pdPort p).switch = true →
         Completes (.sourceOvercurrent p) s fun d => d.fld (PD_CNT.HARD_RESETS p) = raised s.chip (PD_CNT.HARD_RESETS p) ∧
           s.chip.timeNs ∈ (d.pdPort p).trips ∧ d.stkMem = s.chip.stkMem))) ∧
  (∀ s : State,
     (∀ gone moving, s.chip.attached 2 = true → gone = true ∨ (s.chip.pdPort 2).off = false →
       Completes (.inputLoss gone moving) s fun d => d.reg (PD_CONTRACT 2) = 0 ∧ d.attached 2 = !gone ∧ d.stkMem = s.chip.stkMem ∧
         (s.chip.fld PP_STATUS.FEED = 1 → s.chip.attached 0 = true → s.chip.isSource 0 = true → s.chip.safe = false →
           s.chip.on (PD_CTRL.FRS_EN 0) = true → s.chip.frsMa ≠ 0 → d.pd.frs = .signal)) ∧
     (s.chip.pd.frs = .signal →
       Completes .frsSignalEnd s fun d => d.pd = { s.chip.pd with frs := .waiting } ∧ d.out = [.frSignal false] ∧
         d.regs = s.chip.regs ∧ d.stkMem = s.chip.stkMem) ∧
     (s.chip.pd.frs = .signal ∨ s.chip.pd.frs = .waiting →
       Completes .frsVbusPresent s fun d => d.pd.frs = .fed ∧ d.stkMem = s.chip.stkMem) ∧
     (∀ p : Fin 3, ((s.chip.pdPort p).switch = false → s.chip.sourceOn p = true →
         Completes (.inputFault p) s fun d => (d.sourceOn p = true → (d.pdPort p).off = true) ∧ .pd p .hardReset ∈ d.out ∧
           d.fld (PD_CNT.HARD_RESETS p) = raised s.chip (PD_CNT.HARD_RESETS p) ∧ d.stkMem = s.chip.stkMem) ∧
       ((s.chip.pdPort p).switch = true → s.chip.attached p = true →
         Completes (.inputFault p) s fun d => .vbus p false ∈ d.out ∧ .pd p .hardReset ∈ d.out ∧
           d.fld (PD_CNT.HARD_RESETS p) = raised s.chip (PD_CNT.HARD_RESETS p) ∧ d.stkMem = s.chip.stkMem)) ∧
     (∀ p : Fin 2, (s.chip.pdPort p).discharge.isSome = true → (s.chip.pdPort p).stuck = false →
       Completes (.dischargeTimeout p) s fun d => d.pdPort p = { s.chip.pdPort p with stuck := true } ∧ d.out = [.rp p false] ∧
         d.regs = s.chip.regs ∧ d.stkMem = s.chip.stkMem) ∧
     Completes .restoreTimer s (fun d => d.budget.hold = false ∧ d.stkMem = s.chip.stkMem) ∧
     Completes .inputOverload s (fun d => d.budget.hold = true ∧ d.stkMem = s.chip.stkMem ∧
       d.fld PP_CNT.OVERLOADS = raised s.chip PP_CNT.OVERLOADS ∧ d.fld PP_CNT.SHEDS = raised s.chip PP_CNT.SHEDS ∧
       s.chip.shed d) ∧
     (∀ v, bit v 0 = true → Completes (.ppCntClr v) s fun d => d.reg PP_CNT = 0 ∧ d.budget = s.chip.budget ∧
       d.stkMem = s.chip.stkMem))

/-- State and operating-point commands, VCORE and the island supply. (R321, R322, R329, R330, R381; log entry 59.) -/
def Obligations.PowerCommands : Prop :=
  ∀ s : State,
    (∀ w, s.chip.cmdOf 1 = some w →
      (s.chip.safe = true →
        Completes .stateCmd s fun d => d.fld PS_STATUS.RESULT = 5 ∧ d.on PS_STATUS.BUSY = false ∧ d.seq.cmd = none ∧
          d.fld PS_CNT.REFUSALS = raised s.chip PS_CNT.REFUSALS ∧ d.stkMem = s.chip.stkMem ∧
          ∀ a, a ≠ PS_STATUS → a ≠ PS_CNT → d.reg a = s.chip.reg a) ∧
      (s.chip.safe = false → PS_MODE.STATE.get w ≠ 0 → PS_MODE.STATE.get w ≠ 1 ∨ s.chip.native .ul = true →
        PS_MODE.STATE.get w = 1 ∨ s.chip.fld PS_WAKE_EN.EN ≠ 0 ∨ s.chip.reg PS_TIMER ≠ 0 →
        Completes .stateCmd s fun d => d.seq.cmd = none ∧ d.seq.target = PS_MODE.STATE.get w ∧ d.seq.block = 1 ∧ d.seq.stopped = [] ∧
          d.regs = s.chip.regs ∧ d.stkMem = s.chip.stkMem)) ∧
    (∀ w, s.chip.cmdOf 2 = some w → s.chip.safe = false → s.chip.sstate = 0 →
      (PS_MODE.OP.get w = s.chip.op →
        Completes .oppoint s fun d => d.fld PS_STATUS.RESULT = 1 ∧ d.on PS_STATUS.BUSY = false ∧ d.seq.cmd = none ∧
          d.op = s.chip.op ∧ d.stkMem = s.chip.stkMem ∧ ∀ a, a ≠ PS_STATUS → d.reg a = s.chip.reg a) ∧
      (s.chip.op < PS_MODE.OP.get w →
        Completes .oppoint s fun d => d.seq.cmd = none ∧ d.seq.ramping = true ∧ d.seq.toOp = some (PS_MODE.OP.get w) ∧
          d.regs = s.chip.regs ∧ d.stkMem = s.chip.stkMem) ∧
      (PS_MODE.OP.get w < s.chip.op → s.chip.pointFits (PS_MODE.OP.get w) = true →
        Completes .oppoint s fun d => d.on PS_STATUS.LOWERING = true ∧ d.seq.toOp = some (PS_MODE.OP.get w) ∧ d.op = s.chip.op ∧
          d.stkMem = s.chip.stkMem ∧ ∀ a, a ≠ PS_STATUS → d.reg a = s.chip.reg a)) ∧
    (∀ t, s.chip.seq.toOp = some t → s.chip.seq.ramping = true → s.chip.swinging = true →
      Completes .vcoreSettled s fun d => d = { s.chip with out := [], seq := { s.chip.seq with settled := true } }) ∧
    (∀ t, s.chip.seq.toOp = some t → t < 4 → s.chip.seq.ramping = true → s.chip.swinging = false →
      Completes .vcoreSettled s fun d => d.op = t ∧ d.seq.toOp = none ∧ d.seq.ramping = false ∧ d.fld PS_STATUS.RESULT = 1 ∧
        d.on PS_STATUS.BUSY = false ∧ d.on PS_STATUS.LOWERING = false ∧ d.stkMem = s.chip.stkMem ∧
        ∀ a, a ≠ PS_STATUS → d.reg a = s.chip.reg a) ∧
    (∀ need : Fin 4,
      Completes (.vislRaiseRequest need) s fun d => d.fld PS_ISL.NEED = max need.val (s.chip.fld PS_ISL.NEED) ∧
        d.fld PS_ISL.VISL = max need.val (s.chip.fld PS_ISL.VISL) ∧ d.stkMem = s.chip.stkMem ∧
        ∀ a, a ≠ PS_ISL → d.reg a = s.chip.reg a) ∧
    Completes .vislLower s fun d => d.fld PS_ISL.NEED = min s.chip.vislNeed (s.chip.fld PS_ISL.VISL) ∧
      d.fld PS_ISL.VISL = min s.chip.vislNeed (s.chip.fld PS_ISL.VISL) ∧ d.stkMem = s.chip.stkMem ∧
      ∀ a, a ≠ PS_ISL → d.reg a = s.chip.reg a

/-- Entry into and exit from S1, S2 and S3. (R318, R323-R328.) -/
def Obligations.PowerEntriesAndExits : Prop :=
  (∀ s : State, s.chip.seq.target ≠ 0 → s.chip.seq.target < 4 →
     (∀ l2, s.chip.blockAnswer s.chip.seq.block l2 = .agrees →
       (∀ n, s.chip.seq.block ≤ 2 → (s.chip.blocks s.chip.seq.target).find? (fun b => decide (s.chip.seq.block < b)) = some n →
         Completes (.blockAgrees l2) s fun d => d.seq.block = n ∧ d.seq.target = s.chip.seq.target ∧
           d.seq.stopped = s.chip.seq.stopped ++ [s.chip.seq.block] ∧ d.regs = s.chip.regs ∧ d.stkMem = s.chip.stkMem) ∧
       (s.chip.seq.block ∈ [2, 7, 8, 10, 11, 12] → s.chip.seq.woke = false → s.chip.recordWaits = false →
         (s.chip.blocks s.chip.seq.target).find? (fun b => decide (s.chip.seq.block < b)) = none →
         Completes (.blockAgrees l2) s fun d => d.sstate = s.chip.seq.target ∧ d.seq.target = 0 ∧ d.fld PS_STATUS.RESULT = 1 ∧
           d.on PS_STATUS.BUSY = false ∧ d.fld PS_CNT.ENTRIES = raised s.chip PS_CNT.ENTRIES ∧ d.stkMem = s.chip.stkMem)) ∧
     (∀ l2 code, s.chip.blockAnswer s.chip.seq.block l2 = .refuses code →
       Completes (.blockAgrees l2) s fun d => d.fld PS_STATUS.RESULT = 2 ∧ d.fld PS_STATUS.REFUSER = s.chip.seq.block % 256 ∧
         d.fld PS_STATUS.DETAIL = code % 256 ∧ d.seq.target = 0 ∧ d.sstate = s.chip.sstate ∧ d.stkMem = s.chip.stkMem ∧
         ∀ a, a ≠ PS_STATUS → a ≠ PS_CNT → d.reg a = s.chip.reg a) ∧
     Completes .agreementTimeout s fun d => d.fld PS_STATUS.RESULT = 2 ∧ d.fld PS_STATUS.REFUSER = s.chip.seq.block % 256 ∧
       d.fld PS_STATUS.DETAIL = 0xFF ∧ d.seq.target = 0 ∧ d.sstate = s.chip.sstate ∧ d.stkMem = s.chip.stkMem ∧
       ∀ a, a ≠ PS_STATUS → a ≠ PS_CNT → d.reg a = s.chip.reg a) ∧
  (∀ s : State,
     (s.chip.seq.target = 0 → s.chip.seq.exiting = none →
       (∀ b : Fin 11, s.chip.wakesFrom s.chip.sstate b = true →
         (s.chip.sstate = 2 →
           Completes (.wake (some b)) s fun d => d.seq.exiting = some 2 ∧ d.seq.woke = false ∧ d.on PS_STATUS.BUSY = true ∧
             d.seq.ramps = s.chip.restartOrder ∧ (b.val < 10 → (d.fld WAKE_CAUSE.CAUSE).testBit b = true) ∧ d.stkMem = s.chip.stkMem ∧
             ∀ a, a ≠ WAKE_CAUSE → a ≠ PS_SLEPT → a ≠ PS_STATUS → d.reg a = s.chip.reg a) ∧
         (s.chip.sstate = 3 →
           Completes (.wake (some b)) s fun d => d.boot.step = 1 ∧ d.boot.kind = 2 ∧ d.stkMem = [] ∧ d.seq.exiting = some 3 ∧
             d.part = s.chip.part)) ∧
       (s.chip.sstate = 2 → s.chip.reg PS_TIMER ≠ 0 →
         Completes .psTimerExpiry s fun d => d.seq.exiting = some 2 ∧ d.seq.woke = false ∧ d.on PS_STATUS.BUSY = true ∧
           d.seq.ramps = s.chip.restartOrder ∧ d.stkMem = s.chip.stkMem ∧
           ∀ a, a ≠ PS_SLEPT → a ≠ PS_STATUS → d.reg a = s.chip.reg a)) ∧
     (∀ x xs, s.chip.seq.ramps = x :: xs →
       Completes .domainRamp s fun d => d.seq.ramps = xs ∧ d.rampDue (.domain x) = true ∧ d.regs = s.chip.regs ∧
         d.stkMem = s.chip.stkMem) ∧
     (∀ x, s.chip.boot.rampNow = some (.domain x) → x ∈ [3, 4, 6] →
       Completes .rampEnd s fun d => d.domainOn x = true ∧ d.on ⟨PS_DOMAIN, 16 + x, 1⟩ = false ∧ d.stkMem = s.chip.stkMem))

/-- DERIVE, IMPORT, ECDH, CLEAR and INVALIDATE. (R358-R364; log entries 4, 94.) -/
def Obligations.KeyCommands : Prop :=
  ∀ s : State, ∀ v root, s.chip.takesKey v root →
    let dst := KD_CMD.DST.get v
    let typ := KD_CMD.TYPE.get v
    let buf := s.chip.regBytes KD_IN 128
    (∀ k, KD_CMD.OP.get v = 1 → KD_CMD.PERSIST.get v = 0 → (s.chip.slot dst).state = 0 →
      (buf.take (s.chip.fld KD_LEN.LLEN)).take 3 ≠ asciiBytes "MH-" →
      (s.chip.parentKey (KD_CMD.PARENT.get v)).1 = some k →
      Completes (.derive v) s fun d => s.chip.keyDone d v fun x => x.state = 1 ∧ x.typ = typ ∧ x.origin = 0 ∧
        x.parent = KD_CMD.PARENT.get v ∧ x.persist = false ∧
        x.key = fitBytes 48 (keyOfType typ (kdf k (buf.take (s.chip.fld KD_LEN.LLEN))
          ((buf.drop (s.chip.fld KD_LEN.LLEN)).take (s.chip.fld KD_LEN.CLEN))))) ∧
    (KD_CMD.OP.get v = 2 → KD_CMD.PERSIST.get v = 0 → (s.chip.slot dst).state = 0 →
      s.chip.masked = true ∨ ofBytes ((buf.drop 48).take 4) = (s.chip.newSlot dst typ 1 0xFF false).checkOf (buf.take 48) →
      Completes (.importKey v) s fun d => s.chip.keyDone d v fun x => x.state = 1 ∧ x.typ = typ ∧ x.origin = 1 ∧ x.persist = false ∧
        x.key = buf.take 48) ∧
    (KD_CMD.OP.get v = 3 → KD_CMD.PERSIST.get v = 0 → entReady s.chip = true →
      let q := s.chip.regBytes KD_IN 96
      let sc := scalarOf (s.chip.random 48).1
      let qd := fitBytes 96 ((Config.p384Public sc).drop 1)
      Completes (.ecdh v) s fun d =>
        if Config.p384Valid (4 :: q) then
          s.chip.keyDone d v fun x => x.state = 1 ∧ x.typ = 1 ∧ x.origin = 2 ∧ x.persist = false ∧
            x.key = fitBytes 48 (kdf (Config.p384Shared sc (4 :: q)) (asciiBytes "MH-SESSION") (q ++ qd))
        else d.fld KD_STATUS.RESULT = 12 ∧ d.on KD_STATUS.BUSY = false ∧ d.muni = s.chip.muni ∧
          d.stkMem = s.chip.stkMem ∧ ∀ a, a ≠ KD_CMD → a ≠ KD_STATUS → d.reg a = s.chip.reg a) ∧
    (KD_CMD.OP.get v = 4 → s.chip.slotInUse dst = false → (s.chip.slot dst).persist = false →
      Completes (.clear v) s fun d => s.chip.keyDone d v fun x => x = (s.chip.slot dst).cleared) ∧
    (KD_CMD.OP.get v = 4 → s.chip.slotInUse dst = true →
      Completes (.clear v) s fun d => d.fld KD_STATUS.RESULT = 11 ∧ d.on KD_STATUS.BUSY = false ∧ d.muni = s.chip.muni ∧
        d.stkMem = s.chip.stkMem ∧ ∀ a, a ≠ KD_CMD → a ≠ KD_STATUS → d.reg a = s.chip.reg a) ∧
    (KD_CMD.OP.get v = 5 → (s.chip.slot dst).persist = false →
      Completes (.invalidate v) s fun d => d.fld KD_STATUS.RESULT = 1 ∧ d.on KD_STATUS.BUSY = false ∧
        d.slot dst = (s.chip.slot dst).cleared ∧ d.stkMem = s.chip.stkMem ∧
        ∀ t ∈ descendants s.chip.muni.slots dst, (s.chip.slot t).state = 1 → (d.slot t).state = 2)

/-- Attestation statements, the certificate and life-cycle transitions. (R353, R354, R361, R370-R372; log entries 4, 94.) -/
def Obligations.AttestationAndLifeCycle : Prop :=
  ∀ s : State, s.chip.muni.queue = [] → s.chip.muni.after = none →
    (∀ v root, bit v 31 = true → bit v 30 = false → s.chip.on ATST_STATUS.BUSY = false → s.chip.muni.root = some root →
      Completes (.atstGo v) s fun d => d.on ATST_STATUS.VALID = entReady s.chip ∧
        d.fld ATST_STATUS.RESULT = (if entReady s.chip then 1 else 2) ∧ d.on ATST_CTRL.GO = false ∧ d.muni = s.chip.muni ∧
        d.stkMem = s.chip.stkMem ∧
        (entReady s.chip = true → s.chip.signedStatement root (d.regBytes ATST_STMT 344)) ∧
        (entReady s.chip = false → ∀ i : Fin 86, d.reg (ATST_STMT i) = 0) ∧
        ∀ a, a ≠ ATST_CTRL → a ≠ ATST_STATUS → (∀ i : Fin 86, a ≠ ATST_STMT i) → d.reg a = s.chip.reg a) ∧
    (∀ v burnOk, s.chip.on ATST_STATUS.BUSY = true → ∀ i ∈ [Instr.atstGo v, .certWrite v burnOk],
      Completes i s fun d => d = { s.chip with out := [] }) ∧
    (∀ v burnOk, bit v 30 = true → bit v 31 = false → s.chip.on ATST_STATUS.BUSY = false →
      s.chip.fld LC_STATUS.STATE = 1 ∨ s.chip.fld LC_STATUS.STATE = 2 →
      0 < s.chip.fld ATST_CERT_SRC.LEN → s.chip.fld ATST_CERT_SRC.LEN ≤ 2048 →
      let bs := s.chip.stkRead (4096 * s.chip.fld ATST_CERT_SRC.BASE) (s.chip.fld ATST_CERT_SRC.LEN)
      Completes (.certWrite v burnOk) s fun d => d.on ATST_CTRL.CERT_WRITE = false ∧ d.stkMem = s.chip.stkMem ∧
        (∀ a, a ≠ ATST_CTRL → a ≠ ATST_STATUS → a ≠ STAK_ECC → d.reg a = s.chip.reg a) ∧
        if containsBytes (4 :: s.chip.identityPublic) bs = false then d.fld ATST_STATUS.RESULT = 4 ∧ d.muni = s.chip.muni
        else if burnOk then d.fld ATST_STATUS.RESULT = 1 ∧ d.muni = { s.chip.muni with cert := bs }
        else d.fld ATST_STATUS.RESULT = 6 ∧ d.muni = s.chip.muni) ∧
    (∀ v burnOk, bit v 31 = true → s.chip.on LC_CTRL.GO = false →
      let t := LC_CTRL.TARGET.get v
      let may := s.chip.on LC_STATUS.PEND = false ∧ LC_CTRL.CONFIRM.get v = 0xA5 ∧ lcAllowed (s.chip.fld LC_STATUS.STATE) t = true
      (may → burnOk = true → t = 2 → s.chip.fuses.seeds.length < 4 → s.chip.muni.seedWritten = 0xFFF →
        Completes (.lcGo v burnOk) s fun d => d.fld LC_STATUS.PENDING = t ∧ d.on LC_STATUS.PEND = true ∧ d.fld LC_STATUS.RESULT = 1 ∧
          d.fuses = { s.chip.fuses with pending := t, seeds := s.chip.fuses.seeds ++ [s.chip.regBytes LC_SEED 48] } ∧
          d.fld LC_STATUS.STATE = s.chip.fld LC_STATUS.STATE ∧ d.on LC_CTRL.GO = false ∧ d.stkMem = s.chip.stkMem ∧
          ∀ a, a ≠ LC_CTRL → a ≠ LC_STATUS → d.reg a = s.chip.reg a) ∧
      (may → burnOk = true → t ≠ 2 →
        Completes (.lcGo v burnOk) s fun d => d.fld LC_STATUS.PENDING = t ∧ d.on LC_STATUS.PEND = true ∧ d.fld LC_STATUS.RESULT = 1 ∧
          d.fuses = { s.chip.fuses with pending := t } ∧ d.fld LC_STATUS.STATE = s.chip.fld LC_STATUS.STATE ∧
          d.on LC_CTRL.GO = false ∧ d.stkMem = s.chip.stkMem ∧ ∀ a, a ≠ LC_CTRL → a ≠ LC_STATUS → d.reg a = s.chip.reg a) ∧
      (¬may →
        Completes (.lcGo v burnOk) s fun d => d.fld LC_STATUS.RESULT = 2 ∧ d.fuses = s.chip.fuses ∧ d.on LC_CTRL.GO = false ∧
          d.stkMem = s.chip.stkMem ∧ ∀ a, a ≠ LC_CTRL → a ≠ LC_STATUS → d.reg a = s.chip.reg a))

/-- Rebinding, sealing and opening of flows; entropy, remasking and scrub of the key slots. (R356, R359-R361, R365-R369, R374; log
entries 4, 61, 62, 94.) -/
def Obligations.FlowEncryptionAndEntropy : Prop :=
  (∀ s : State, ∀ f : Fin 256,
     (∀ v, s.chip.on (FLOW_KEY.BOUND f) = false ∨ (FLOW_KEY.SLOT f).get v ≠ s.chip.fld (FLOW_KEY.SLOT f) →
       ((s.chip.slot ((FLOW_KEY.SLOT f).get v)).usable 2 = true →
         Completes (.rebinding f v) s fun d =>
           d.keyFlow f = { s.chip.keyFlow f with rebind := some ((FLOW_KEY.SLOT f).get v) } ∧ d.stkMem = s.chip.stkMem ∧
           d.fld (FLOW_KEY.SLOT f) = (FLOW_KEY.SLOT f).get v ∧ ∀ a, a ≠ FLOW_KEY f → d.reg a = s.chip.reg a) ∧
       ((s.chip.slot ((FLOW_KEY.SLOT f).get v)).usable 2 = false →
         Completes (.rebinding f v) s fun d => d.fld KD_STATUS.RESULT = 3 ∧ d.muni = s.chip.muni ∧ d.stkMem = s.chip.stkMem ∧
           ∀ a, a ≠ KD_STATUS → d.reg a = s.chip.reg a)) ∧
     (∀ cls cells sl key, s.chip.on (FLOW_CFG.ENC f) = true → s.chip.flowState f = 1 → s.chip.safe = false → cells ≠ [] →
       cells.length ≤ 63 → (s.chip.keyFlow f).cur = some sl → (s.chip.useSlot sl 2).1 = some key →
       Completes (.seal f cls cells) s fun d =>
         let q := d.outQ (s.chip.sideLink f) f
         q.length = (s.chip.outQ (s.chip.sideLink f) f).length + cells.length + 1 ∧
           q.take (s.chip.outQ (s.chip.sideLink f) f).length = s.chip.outQ (s.chip.sideLink f) f ∧
           (q.getLast?.map fun x => (x.typ, x.len)) = some (cls.val, 4) ∧
           d.keyFlow f = { s.chip.keyFlow f with ctrOut := (s.chip.keyFlow f).ctrOut + 1 } ∧ d.regs = s.chip.regs ∧
           d.stkMem = s.chip.stkMem) ∧
     (∀ k m, s.chip.on (FLOW_CFG.ENC f) = true → s.chip.safe = false →
       let x := s.chip.keyFlow f
       let n := heldCells x.held + m.cells.length + 1
       let entered := { s.chip.muni with entered := s.chip.muni.entered.erase (f.val, m.cls % 8) }
       (s.chip.flowState f = 3 → x.early.contains (m.cls % 8) = false → n ≤ 16 * s.chip.fld (FLOW_CFG.HOLD_LIM f) → s.chip.holdStore + m.cells.length + 1 ≤ 4096 →
         Completes (.openMsg k f m) s fun d => d.keyFlow f = { x with held := x.held ++ [(k, m)] } ∧ (d.flow f).rekeyIn = n ∧
           d.regs = s.chip.regs ∧ d.stkMem = s.chip.stkMem) ∧
       (∀ sl key, s.chip.flowState f = 1 ∨ s.chip.flowState f = 2 → x.early.contains (m.cls % 8) = false → x.prev = none →
         ofBytes ((m.tail.drop 8).take 2) = s.chip.fld (FLOW_KEY.KGEN f) → x.cur = some sl → (s.chip.useSlot sl 2).1 = some key →
         let ctr := ofBytes (m.tail.take 8)
         let ctrOk := if s.chip.isIso f then !x.seen || decide (x.ctrIn < ctr + 1) else ctr == x.ctrIn
         Completes (.openMsg k f m) s fun d => d.stkMem = s.chip.stkMem ∧ (∀ a, a ≠ MUNI_CNT → d.reg a = s.chip.reg a) ∧
           match Config.aesGcmOpen (key.take 32) (sealNonce ((key.drop 32).take 4) ctr)
             (sealAad f 0 (ofBytes ((m.tail.drop 8).take 2)) m.cls m.lens) (m.cells.flatMap (fitBytes 120)) ((m.tail.drop 16).take 16),
             ctrOk with
           | some t, true => d.keyFlow f = { x with ctrIn := ctr + 1, seen := true } ∧ d.reg MUNI_CNT = s.chip.reg MUNI_CNT ∧
               d.out = [.delivered k f (m.cls % 8) ((m.lens.zip (chunks 120 (fitBytes (120 * m.lens.length) t))).flatMap
                 fun p => p.2.take (8 * p.1))]
           | _, _ => d.out = [] ∧ d.muni = entered ∧ d.fld MUNI_CNT.AUTH_FAIL = raised s.chip MUNI_CNT.AUTH_FAIL) ∧
       (s.chip.flowState f ≠ 0 → x.early.contains (m.cls % 8) = true → x.prev = none →
         ofBytes ((m.tail.drop 8).take 2) = s.chip.fld (FLOW_KEY.KGEN f) →
         let ctr := ofBytes (m.tail.take 8)
         let ctrOk := if s.chip.isIso f then !x.seen || decide (x.ctrIn < ctr + 1) else ctr == x.ctrIn
         let rest := { x with early := x.early.erase (m.cls % 8) }
         Completes (.openMsg k f m) s fun d => d.stkMem = s.chip.stkMem ∧ (∀ a, a ≠ MUNI_CNT → d.reg a = s.chip.reg a) ∧
           match Config.aesGcmOpen (x.earlyKey.take 32) (sealNonce ((x.earlyKey.drop 32).take 4) ctr)
             (sealAad f 0 (ofBytes ((m.tail.drop 8).take 2)) m.cls m.lens) (m.cells.flatMap (fitBytes 120)) ((m.tail.drop 16).take 16),
             ctrOk with
           | some t, true => d.keyFlow f = { rest with ctrIn := ctr + 1, seen := true } ∧ d.reg MUNI_CNT = s.chip.reg MUNI_CNT ∧
               d.out = [.delivered k f (m.cls % 8) ((m.lens.zip (chunks 120 (fitBytes (120 * m.lens.length) t))).flatMap
                 fun p => p.2.take (8 * p.1))]
           | _, _ => d.out = [] ∧ d.keyFlow f = rest ∧ d.fld MUNI_CNT.AUTH_FAIL = raised s.chip MUNI_CNT.AUTH_FAIL) ∧
       (∀ p, s.chip.flowState f = 1 ∨ s.chip.flowState f = 2 → x.early.contains (m.cls % 8) = false → x.prev = some p → ofBytes ((m.tail.drop 8).take 2) = p.kgen →
         s.chip.epoch ≤ p.epoch + 2 →
         let ctr := ofBytes (m.tail.take 8)
         let ctrOk := if s.chip.isIso f then !p.seen || decide (p.ctrIn < ctr + 1) else ctr == p.ctrIn
         Completes (.openMsg k f m) s fun d => d.stkMem = s.chip.stkMem ∧ (∀ a, a ≠ MUNI_CNT → d.reg a = s.chip.reg a) ∧
           match Config.aesGcmOpen (p.key.take 32) (sealNonce ((p.key.drop 32).take 4) ctr) (sealAad f 0 p.kgen m.cls m.lens)
             (m.cells.flatMap (fitBytes 120)) ((m.tail.drop 16).take 16), ctrOk with
           | some t, true => d.keyFlow f = { x with prev := some { p with ctrIn := ctr + 1, seen := true } } ∧
               d.reg MUNI_CNT = s.chip.reg MUNI_CNT ∧
               d.out = [.delivered k f (m.cls % 8) ((m.lens.zip (chunks 120 (fitBytes (120 * m.lens.length) t))).flatMap
                 fun p => p.2.take (8 * p.1))]
           | _, _ => d.out = [] ∧ d.muni = entered ∧ d.fld MUNI_CNT.AUTH_FAIL = raised s.chip MUNI_CNT.AUTH_FAIL))) ∧
  (∀ s : State,
     (entRuns s.chip = true → entReady s.chip = false → s.chip.muni.contFail = true ∨ s.chip.muni.entFails < 3 →
       Completes (.entropyTest true) s (fun d => entReady d = true ∧ d.muni.entFails = 0 ∧ d.muni.contFail = false ∧
         d.muni.seed = s.chip.free ∧ d.stkMem = s.chip.stkMem) ∧
       (s.chip.muni.contFail = false →
         Completes (.entropyTest false) s fun d => d.muni = { s.chip.muni with entFails := s.chip.muni.entFails + 1 } ∧
           (s.chip.muni.entFails = 2 → d.fld MUNI_STATUS.ENT = 2) ∧ d.stkMem = s.chip.stkMem ∧
           ∀ a, a ≠ MUNI_STATUS → d.reg a = s.chip.reg a)) ∧
     (entRuns s.chip = true → entReady s.chip = true →
       Completes .reseed s (fun d => d.muni = { s.chip.muni with seed := s.chip.free } ∧ d.free = s.chip.free + 1 ∧
         d.regs = s.chip.regs ∧ d.stkMem = s.chip.stkMem) ∧
       Completes .continuousTestFail s (fun d => d.fld MUNI_STATUS.ENT = 2 ∧ d.muni = { s.chip.muni with contFail := true } ∧
         d.stkMem = s.chip.stkMem ∧ ∀ a, a ≠ MUNI_STATUS → d.reg a = s.chip.reg a) ∧
       (s.chip.masked = true → s.chip.maintAnswer [.keys] = .granted → ∀ retry, retry = false ∨ s.chip.muni.remaskDone = false →
         Completes (.remask retry) s fun d => d.muni.remaskDone = true ∧ d.muni.remaskMissed = 0 ∧ d.stkMem = s.chip.stkMem ∧
           (∀ a, a ≠ MUNI_CNT → d.reg a = s.chip.reg a) ∧
           ∀ t, (s.chip.slot t).data.length = 48 → (s.chip.slot t).mask = [] ∨ (s.chip.slot t).mask.length = 48 →
             (d.slot t).key = (s.chip.slot t).key ∧ (d.slot t).state = (s.chip.slot t).state)) ∧
     (s.chip.on MUNI_CTRL.SCRUB_EN = true → s.chip.resting 3 = false → s.chip.maintAnswer [.keys] = .granted →
       Completes (.slotScrub []) s (fun d => d = { s.chip with out := [] }) ∧
       ∀ i : Fin 64, (s.chip.slot i).state = 1 ∨ (s.chip.slot i).state = 2 →
         Completes (.slotScrub [(i, true)]) s fun d => (d.slot i).state = 3 ∧ (d.slot i).data = [] ∧ d.stkMem = s.chip.stkMem) ∧
     (s.chip.folio.job = none → s.chip.folio.keyClear = true →
       (s.chip.keyFoliosClear = true →
         Completes .keyFolioClear s fun d => d = { s.chip with out := [], folio := { s.chip.folio with keyClear := false } }) ∧
       (s.chip.keyFoliosClear = false → s.chip.maintAnswer [.folio s.chip.writeTarget] = .granted →
         Completes .keyFolioClear s fun d => d.folio.keyClear = true ∧ d.folio.job.map (·.writer) = some 5 ∧
           d.on FOLIO_STATUS.BUSY = true ∧ d.stkMem = s.chip.stkMem)))

/-- Fabric planes, SRAM rows, slack monitors and Coppice's counters. (R376, R377, R381, R382, R393.) -/
def Obligations.FabricAndSram : Prop :=
  ∀ s : State,
    (∀ flit (x : FlitFault),
      ((∀ p, x.planes ≠ [p]) →
        Completes (.flitParityError flit x) s fun d => d.copp = s.chip.copp ∧ d.regs = s.chip.regs ∧
          d.stkMem = s.chip.stkMem ∧ s.chip.cellLost d (if x.planes = [] then none else x.cell)) ∧
      ∀ p, x.planes = [p] →
        Completes (.flitParityError flit x) s fun d => d.regs = s.chip.regs ∧ d.stkMem = s.chip.stkMem ∧
          s.chip.cellLost d (if s.chip.nextSpare kPlane 0 = none then x.cell else none) ∧
          d.copp.planeHits = (s.chip.copp.planeHits ++ [(p.val, flit)]).filter (fun h => decide (flit < h.2 + 2 ^ 20)) ∧
          (p.val < 8 → s.chip.copp.planeDue = none → s.chip.repairs 73 = true → s.chip.nextSpare kPlane 0 ≠ none →
            16 ≤ (d.copp.planeHits.filter fun h => h.1 == p.val).length → d.copp.planeDue = some p.val)) ∧
    (∀ (m : Fin 184) (row : BitVec 16) test, s.chip.repairOn = true →
      let again := s.chip.copp.sramHits.any fun h => h.1 == m.val && h.2.1 == row.toNat && decide (s.chip.timeNs ≤ h.2.2 + dayNs)
      (∀ sp, test = true ∨ again = true → s.chip.nextSpare kSram m = some sp →
        Completes (.sramRowRepair m row test) s fun d => s.chip.repairMade d kSram m row.toNat sp ∧ d.stkMem = s.chip.stkMem) ∧
      (test = false → again = false →
        Completes (.sramRowRepair m row test) s fun d => d.copp.map = s.chip.copp.map ∧
          d.copp.sramHits = s.chip.copp.sramHits ++ [(m.val, row.toNat, s.chip.timeNs)] ∧ d.regs = s.chip.regs ∧
          d.stkMem = s.chip.stkMem)) ∧
    (∀ (i : Fin 9) m, s.chip.pageOn 0x3B = true →
      Completes (.slackMeasurement (List.replicate i none ++ [some m])) s fun d => d.fld ⟨MON_TBL i, 20, 12⟩ = m % 4096 ∧
        d.fld ⟨MON_TBL i, 8, 12⟩ = s.chip.baseline i % 4096 ∧ d.stkMem = s.chip.stkMem ∧
        d.fld MON_STATUS.BAR = (if Config.cyclePs s.chip.op < m ∧ i.val ≠ 1 ∧ i.val ≠ 2
          then s.chip.fld MON_STATUS.BAR ||| (2 ^ (s.chip.op + 1) - 1) else s.chip.fld MON_STATUS.BAR)) ∧
    (∀ v, bit v 12 = true →
      Completes (.coppCntClr v) s fun d => d.reg COPP_CNT = 0 ∧ d.copp = s.chip.copp ∧ d.stkMem = s.chip.stkMem ∧
        ∀ a, a ≠ COPP_CNT → a ≠ COPP_CTRL → a ≠ PAGE_STATUS 0x07 → d.reg a = s.chip.reg a)

/-- Repairs of Stacks rows and banks, scrub, lanes, switch segments and sensors. (R377-R380, R383, R384, R394; log entries 67,
96.) -/
def Obligations.CoppiceRepairs : Prop :=
  (∀ s : State,
     (∀ (addr : BitVec 32) bank row uncor head, s.chip.granuleFilled addr.toNat = true →
       Completes (.stacksBurstError addr bank row uncor head) s fun d =>
         d.fld (if uncor then STAK_ECC.UNCOR else STAK_ECC.CORR) = raised s.chip (if uncor then STAK_ECC.UNCOR else STAK_ECC.CORR) ∧
           d.burstBad addr.toNat = (uncor || s.chip.burstBad addr.toNat) ∧
           (d.copp.suspects.getLast?.map fun e => (e.unitNo, e.row, e.uncor)) =
             some (channelOf addr.toNat * 33 + bank, row.val, uncor && (!head || s.chip.react 137 == 3)) ∧
           d.stkMem = s.chip.stkMem ∧ ∀ a, a ≠ STAK_ECC → d.reg a = s.chip.reg a) ∧
     (∀ kind r, kind = kRow ∨ kind = kBank → (s.chip.copp.waiting.find? fun r => r.kind == kind) = some r → s.chip.repairOn = true →
       s.chip.deferredRepair r = false → s.chip.maintAnswer r.locks = .granted →
       Completes (if kind = kRow then .rowRepair else .bankRepair) s fun d => d.copp.running = s.chip.copp.running ++ [r] ∧
         d.copp.waiting = s.chip.copp.waiting.filter (· != r) ∧ (∀ l ∈ r.locks, d.locked l = true) ∧
         d.unitsHeld = s.chip.unitsHeld + 1 ∧ d.regs = s.chip.regs ∧ d.stkMem = s.chip.stkMem) ∧
     (∀ r, (s.chip.copp.running.find? fun r => r.kind == kBank && r.bist) = some r →
       Completes (.bankBistDone true) s (fun d =>
         d.copp.running = s.chip.copp.running.filter (· != r) ++ [{ r with bist := false }] ∧ d.maint = s.chip.maint ∧
         d.regs = s.chip.regs ∧ d.stkMem = s.chip.stkMem) ∧
       Completes (.bankBistDone false) s fun d => d.copp.running = s.chip.copp.running.filter (· != r) ∧ d.stkMem = s.chip.stkMem ∧
         d.on ⟨COPP_STATUS, 11 + kBank, 1⟩ = true ∧
         ∃ e ∈ d.copp.map, e.kind = kBank ∧ e.unitNo = r.unitNo ∧ e.spare = r.spare ∧ e.retired = true) ∧
     (∀ r, s.chip.endingCopy = some r → r.kind = kRow ∨ r.kind = kBank →
       Completes .repairCopyDone s fun d => d.copp.running = s.chip.copp.running.filter (· != r) ∧
         s.chip.repairMade d r.kind r.unitNo r.orig r.spare ∧ d.stkMem = s.chip.stkMem) ∧
     (∀ (ch : Fin 8) (bank : Fin 33), s.chip.fld SCRB_CTRL.PERIOD ≠ 0 → s.chip.on STAK_STATUS.FILLED = true →
       s.chip.resting 6 = false → s.chip.maintAnswer [.bank ch bank] = .granted →
       (∀ found, Completes (.scrubStretch ch bank found) s fun d =>
         d.fld SCRB_POS.STRETCH = (s.chip.fld SCRB_POS.STRETCH + 1) % 65536 ∧ d.stkMem = s.chip.stkMem ∧
         d.fld SCRB_POS.PASSES = (if s.chip.fld SCRB_POS.STRETCH = 65535 then raised s.chip SCRB_POS.PASSES
           else s.chip.fld SCRB_POS.PASSES) ∧ ∀ a, a ≠ SCRB_POS → a ≠ SCRB_STATUS → d.reg a = s.chip.reg a) ∧
       ∀ (a : BitVec 32) row, Completes (.scrubStretch ch bank [(a, row, true)]) s fun d => d.burstBad a.toNat = true ∧
         d.fld SCRB_STATUS.UNCOR = raised s.chip SCRB_STATUS.UNCOR) ∧
     (∀ v, bit v 8 = true →
       Completes (.scrbCntClr v) s fun d => d.reg SCRB_STATUS = 0 ∧ d.copp = s.chip.copp ∧ d.stkMem = s.chip.stkMem ∧
         ∀ a, a ≠ SCRB_STATUS → a ≠ SCRB_CTRL → a ≠ PAGE_STATUS 0x3A → d.reg a = s.chip.reg a)) ∧
  (∀ s : State, s.chip.repairOn = true →
     (∀ (l : Fin 8) (i : Fin 28), (l.val, i.val) ∉ s.chip.copp.slices → (l.val, i.val) ∉ s.chip.copp.badSlices →
       (s.chip.nextSpare kSlice l ≠ none → s.chip.linkState (lnkOf l) ≠ 1 ∨ 5 ≤ (s.chip.link (lnkOf l)).step →
         Completes (.backgroundCalibration l [i]) s fun d => d.copp.slices = s.chip.copp.slices ++ [(l.val, i.val)] ∧
           d.regs = s.chip.regs ∧ d.stkMem = s.chip.stkMem) ∧
       (s.chip.nextSpare kSlice l = none →
         Completes (.backgroundCalibration l [i]) s fun d => (l.val, i.val) ∈ d.copp.badSlices ∧ (l.val, i.val) ∉ d.copp.slices ∧
           d.copp.map = s.chip.copp.map ∧ d.regs = s.chip.regs ∧ d.stkMem = s.chip.stkMem)) ∧
     (∀ l : Fin 8, (s.chip.copp.slices.any fun e => e.1 == l.val) = true → s.chip.inService l = true → (s.chip.lane l).out = .in_ →
       s.chip.linkUp (lnkOf l) = true →
       ((s.chip.group (lnkOf l) (s.chip.fld (LANE_STATUS.DIR l))).any fun m => m != l && (s.chip.lane m).out == .in_) = true →
       s.chip.maintAnswer [.lane l] = .granted →
       Completes (.laneRepair l) s fun d => d.copp.repairLanes = s.chip.copp.repairLanes ++ [l.val] ∧ (d.lane l).out = .leaving ∧
         d.locked (.lane l) = true ∧
         (d.link (lnkOf l)).lmcs = (s.chip.link (lnkOf l)).lmcs ++ [{ code := 0x23, body := toBytes 1 (s.chip.linkLane l) ++ [0], urgent := false }] ∧
         d.regs = s.chip.regs ∧ d.stkMem = s.chip.stkMem) ∧
     (∀ (sw : Fin 5) (i : Fin 14), (sw.val, i.val) ∉ s.chip.copp.lostSegments →
       (∀ sp, s.chip.nextSpare kSegment sw = some sp →
         Completes (.segmentCheck sw [i]) s fun d => s.chip.repairMade d kSegment sw i sp ∧ d.goodSegments sw = s.chip.goodSegments sw ∧
           d.stkMem = s.chip.stkMem) ∧
       (s.chip.nextSpare kSegment sw = none →
         Completes (.segmentCheck sw [i]) s fun d => d.copp.lostSegments = s.chip.copp.lostSegments ++ [(sw.val, i.val)] ∧
           d.goodSegments sw = s.chip.goodSegments sw - 1 ∧ d.copp.map = s.chip.copp.map ∧ d.stkMem = s.chip.stkMem ∧
           ((kSegment, sw.val) ∉ s.chip.copp.told → s.chip.pageOn (evSource 238).page = true →
             { src := 238, detail := repairDetail kSegment sw i, forced := false } ∈ d.firings))) ∧
     (∀ (pool : Fin 3) (port : Fin 6), s.chip.copp.ganged.contains (pool.val, port.val) = false →
       (∀ sp, s.chip.nextSpare kSensor pool = some sp →
         Completes (.sensorSelfTest pool port) s fun d => s.chip.repairMade d kSensor pool port sp ∧
           d.copp.ganged = s.chip.copp.ganged ∧ d.stkMem = s.chip.stkMem) ∧
       (s.chip.nextSpare kSensor pool = none →
         Completes (.sensorSelfTest pool port) s fun d => d.copp.ganged = s.chip.copp.ganged ++ [(pool.val, port.val)] ∧
           (pool = 0 → d.on (PORT_STATUS.GANGED port) = true ∧ (s.chip.pageOn (evSource 162).page = true →
             { src := 162, detail := port + 1, forced := false } ∈ d.firings)) ∧ d.stkMem = s.chip.stkMem ∧
           ∀ a, a ≠ PORT_STATUS port → d.reg a = s.chip.reg a)))

/-- Router fail-over and the standby. (R386-R391; log entries 69, 95.) -/
def Obligations.RouterFailover : Prop :=
  ∀ s : State,
    ((s.chip.pageOn (evSource 75).page = true →
        Completes .stateErr s fun d => d.regs = s.chip.regs ∧ d.stkMem = s.chip.stkMem ∧
          d.firings = s.chip.firings ++ [{ src := 75, detail := s.chip.fld ROUT_STATUS.ACTIVE, forced := false }]) ∧
      (∀ port : Fin 16, s.chip.pageOn (evSource 76).page = true →
        Completes (.arbCheck port) s fun d => d.regs = s.chip.regs ∧ d.stkMem = s.chip.stkMem ∧
          d.firings = s.chip.firings ++ [{ src := 76, detail := s.chip.fld ROUT_STATUS.ACTIVE + 256 * port, forced := false }]) ∧
      (s.chip.pageOn (evSource 77).page = true →
        Completes .ckptLate s fun d => (∀ a, a ≠ STBY_STATUS → d.reg a = s.chip.reg a) ∧ d.stkMem = s.chip.stkMem ∧
          (let h := s.chip.fld STBY_STATUS.HALF
           ∀ k, s.chip.on STBY_STATUS.CKPT_VALID = true → (if h = 0 then s.chip.router.halfA else s.chip.router.halfB) = some k →
             k.epoch = s.chip.epoch → d.fld STBY_STATUS.HALF = 1 - h ∧
               (if h = 0 then d.router.halfA else d.router.halfB) = none) ∧
          d.firings = s.chip.firings ++ [{ src := 77, detail := s.chip.fld ROUT_STATUS.ACTIVE, forced := false }])) ∧
    (∀ v, bit v 31 = true → s.chip.sstate = 0 → s.chip.fld ROUT_STATUS.STATE = 0 → s.chip.safe = false →
      Completes (.force v) s fun d => d.router.want = some 5 ∧ d.stkMem = s.chip.stkMem ∧
        ∀ a, a ≠ ROUT_CTRL → a ≠ PAGE_STATUS 0x08 → d.reg a = s.chip.reg a) ∧
    (∀ cause k badA badB, s.chip.router.want = some cause → s.chip.safe = false → s.chip.fld ROUT_STATUS.STATE = 0 →
      s.chip.on ROUT_STATUS.STBY_OK = true →
      (if s.chip.fld STBY_STATUS.HALF = 0 then s.chip.router.halfA = some k ∧ badA = false
        else s.chip.router.halfB = some k ∧ badB = false) →
      Completes (.failover badA badB false) s fun d => d.router.want = none ∧ d.router.phase = 1 ∧ d.scheds = k.scheds ∧
        d.fld ROUT_STATUS.STATE = 1 ∧ d.fld ROUT_STATUS.CAUSE = cause % 16 ∧
        (∀ f : Fin 256, d.reg (FLOW_DEF f) = cellsGet (regReset s.chip.part) k.words (FLOW_DEF f) ∧
          d.reg (FLOW_CNT f) = cellsGet (regReset s.chip.part) k.words (FLOW_CNT f)) ∧
        ((∀ l, (s.chip.link l).turn = none) → ∀ (i : Fin 2) (j : Fin 8), j ≠ 0 →
          d.reg (SCHED i j) = cellsGet (regReset s.chip.part) k.words (SCHED i j)) ∧
        (∀ x, s.chip.router.image = some x → d.reg CIRC_CTRL = cellsGet (regReset s.chip.part) x.words CIRC_CTRL ∧
          d.reg CIRC_TURN = cellsGet (regReset s.chip.part) x.words CIRC_TURN) ∧ d.stkMem = s.chip.stkMem) ∧
    (s.chip.router.phase = 1 → s.chip.fld ROUT_STATUS.STATE = 1 → s.chip.router.t0 < s.chip.timeNs → s.chip.router.held = [] →
      s.chip.svcp.waiting = false →
      Completes .restartComputation s fun d => d.fld ROUT_STATUS.STATE = 3 ∧ d.fld ROUT_STATUS.ACTIVE = 1 - s.chip.fld ROUT_STATUS.ACTIVE ∧
        d.on ROUT_STATUS.STBY_OK = false ∧ d.fld ROUT_STATUS.FAILOVERS = raised s.chip ROUT_STATUS.FAILOVERS ∧ d.router.phase = 2 ∧
        d.router.proofDue = true ∧ d.deferred = [] ∧ d.stkMem = s.chip.stkMem) ∧
    (s.chip.safe = false → (s.chip.router.proofDue = true ∧ s.chip.fld ROUT_STATUS.STATE = 3 ∧ s.chip.router.phase = 0) ∨
        (s.chip.fld ROUT_STATUS.STATE = 0 ∧ s.chip.fld ROUT_CTRL.PROVE ≠ 0 ∧ s.chip.sstate = 0) →
      Completes (.standbyProof .begins) s fun d => d.fld ROUT_STATUS.STATE = 2 ∧ d.router = s.chip.router ∧
        d.stkMem = s.chip.stkMem ∧ ∀ a, a ≠ ROUT_STATUS → d.reg a = s.chip.reg a) ∧
    (∀ pass, s.chip.fld ROUT_STATUS.STATE ≠ 2 → Completes (.standbyProof (.ends pass)) s fun d => d = { s.chip with out := [] }) ∧
    (s.chip.fld ROUT_STATUS.STATE = 2 →
      Completes (.standbyProof (.ends true)) s (fun d => d.fld ROUT_STATUS.STATE = 0 ∧ d.on ROUT_STATUS.STBY_OK = true ∧
        d.fld STBY_CNT.PROOF_PASS = raised s.chip STBY_CNT.PROOF_PASS ∧ d.router = { s.chip.router with proofDue := false } ∧
        d.stkMem = s.chip.stkMem ∧ ∀ a, a ≠ ROUT_STATUS → a ≠ STBY_CNT → d.reg a = s.chip.reg a) ∧
      Completes (.standbyProof (.ends false)) s fun d => d.fld ROUT_STATUS.STATE = 3 ∧ d.on ROUT_STATUS.STBY_OK = false ∧
        d.fld STBY_CNT.PROOF_FAIL = raised s.chip STBY_CNT.PROOF_FAIL ∧
        d.router.retired = s.chip.router.retired ++ [1 - s.chip.fld ROUT_STATUS.ACTIVE] ∧ d.router.proofDue = false ∧
        d.stkMem = s.chip.stkMem)
end

