-- ==== Sys2Proof/Laws/Cells.lean ====
section
/-! SUPPORT. The sparse store: read after write, and every operation keeps the canonical form. -/

namespace Sys2Proof

variable {β : Type}

@[simp] theorem cellsGet_nil (d : Nat → β) (a : Nat) : cellsGet d [] a = d a := rfl

theorem cellsGet_del_self (d : Nat → β) (m : Cells β) (a : Nat) : cellsGet d (cellsDel m a) a = d a := by
  induction m with
  | nil => rfl
  | cons p m ih => by_cases h : a = p.1 <;> simp [cellsDel, cellsGet, h] <;> simp_all

theorem cellsGet_del_ne (d : Nat → β) (m : Cells β) {a b : Nat} (h : b ≠ a) :
    cellsGet d (cellsDel m a) b = cellsGet d m b := by
  induction m with
  | nil => rfl
  | cons p m ih =>
    by_cases ha : a = p.1
    · have hb : ¬ b = p.1 := fun e => h (e.trans ha.symm)
      simp [cellsDel, cellsGet, ha, hb]
      simpa [ha] using ih
    · simp [cellsDel, cellsGet, ha, ih]

theorem cellsGet_put_self (d : Nat → β) (m : Cells β) (a : Nat) (x : β) : cellsGet d (cellsPut m a x) a = x := by
  induction m with
  | nil => simp [cellsPut, cellsGet]
  | cons p m ih =>
    by_cases h : a < p.1
    · simp [cellsPut, cellsGet, h]
    · by_cases h' : a = p.1
      · simp [cellsPut, cellsGet, h']
      · simp [cellsPut, cellsGet, h, h', ih]

theorem cellsGet_put_ne (d : Nat → β) (m : Cells β) {a b : Nat} (x : β) (h : b ≠ a) :
    cellsGet d (cellsPut m a x) b = cellsGet d m b := by
  induction m with
  | nil => simp [cellsPut, cellsGet, h]
  | cons p m ih =>
    by_cases h1 : a < p.1
    · simp [cellsPut, cellsGet, h1, h]
    · by_cases h2 : a = p.1
      · have hb : ¬ b = p.1 := fun e => h (e.trans h2.symm)
        simp [cellsPut, cellsGet, h2, hb]
      · simp [cellsPut, cellsGet, h1, h2, ih]

variable [DecidableEq β]

/-- A read after a write of the same key gives the value written, in every store. -/
@[simp] theorem cellsGet_set_self (d : Nat → β) (m : Cells β) (a : Nat) (x : β) : cellsGet d (cellsSet d m a x) a = x := by
  unfold cellsSet
  split
  · next h => rw [cellsGet_del_self, h]
  · exact cellsGet_put_self d m a x

/-- A write leaves every other key alone. -/
theorem cellsGet_set_ne (d : Nat → β) (m : Cells β) {a b : Nat} (x : β) (h : b ≠ a) :
    cellsGet d (cellsSet d m a x) b = cellsGet d m b := by
  unfold cellsSet
  split
  · exact cellsGet_del_ne d m h
  · exact cellsGet_put_ne d m x h

theorem cellsGet_set (d : Nat → β) (m : Cells β) (a b : Nat) (x : β) :
    cellsGet d (cellsSet d m a x) b = if b = a then x else cellsGet d m b := by
  split
  · next h => rw [h, cellsGet_set_self]
  · next h => exact cellsGet_set_ne d m x h

/-! ## The canonical form -/

theorem cellsWfFrom_mono (d : Nat → β) {lo lo' : Nat} (h : lo' ≤ lo) (m : Cells β) (hm : cellsWfFrom d lo m) :
    cellsWfFrom d lo' m := by
  cases m with
  | nil => rfl
  | cons p m =>
    simp only [cellsWfFrom, Bool.and_eq_true, decide_eq_true_eq] at *
    exact ⟨⟨by omega, hm.1.2⟩, hm.2⟩

theorem cellsWfFrom_del (d : Nat → β) (m : Cells β) (a : Nat) :
    ∀ lo, cellsWfFrom d lo m → cellsWfFrom d lo (cellsDel m a) := by
  induction m with
  | nil => intro _ h; exact h
  | cons p m ih =>
    intro lo h
    simp only [cellsWfFrom, Bool.and_eq_true, decide_eq_true_eq] at h
    by_cases ha : a = p.1
    · simp only [cellsDel, ha, if_true]
      have := ih (p.1 + 1) h.2
      rw [ha] at this
      exact cellsWfFrom_mono d (by omega) _ this
    · simp only [cellsDel, ha, if_false, cellsWfFrom, Bool.and_eq_true, decide_eq_true_eq]
      exact ⟨h.1, ih _ h.2⟩

theorem cellsWfFrom_put (d : Nat → β) (m : Cells β) (a : Nat) (x : β) (hx : x ≠ d a) :
    ∀ lo, lo ≤ a → cellsWfFrom d lo m → cellsWfFrom d lo (cellsPut m a x) := by
  induction m with
  | nil => intro lo hlo _; simp [cellsPut, cellsWfFrom, hlo, hx]
  | cons p m ih =>
    intro lo hlo h
    simp only [cellsWfFrom, Bool.and_eq_true, decide_eq_true_eq] at h
    by_cases h1 : a < p.1
    · simp only [cellsPut, h1, if_true, cellsWfFrom, Bool.and_eq_true, decide_eq_true_eq]
      exact ⟨⟨hlo, hx⟩, ⟨by omega, h.1.2⟩, h.2⟩
    · by_cases h2 : a = p.1
      · simp only [cellsPut, if_neg h1, if_pos h2, cellsWfFrom, Bool.and_eq_true, decide_eq_true_eq]
        exact ⟨⟨hlo, hx⟩, by rw [h2]; exact h.2⟩
      · simp only [cellsPut, h1, h2, if_false, cellsWfFrom, Bool.and_eq_true, decide_eq_true_eq]
        exact ⟨h.1, ih _ (by omega) h.2⟩

/-- A write keeps the canonical form. -/
theorem cellsWf_set (d : Nat → β) (m : Cells β) (a : Nat) (x : β) (h : cellsWf d m) : cellsWf d (cellsSet d m a x) := by
  unfold cellsSet
  split
  · exact cellsWfFrom_del d m a 0 h
  · next hx => exact cellsWfFrom_put d m a x hx 0 (Nat.zero_le a) h

theorem cellsWfFrom_filter (d : Nat → β) (p : Nat × β → Bool) (m : Cells β) :
    ∀ lo, cellsWfFrom d lo m → cellsWfFrom d lo (m.filter p) := by
  induction m with
  | nil => intro _ h; exact h
  | cons q m ih =>
    intro lo h
    simp only [cellsWfFrom, Bool.and_eq_true, decide_eq_true_eq] at h
    by_cases hp : p q
    · simp only [List.filter_cons, hp, if_true, cellsWfFrom, Bool.and_eq_true, decide_eq_true_eq]
      exact ⟨h.1, ih _ h.2⟩
    · simp only [List.filter_cons, hp]
      exact cellsWfFrom_mono d (by omega) _ (ih (q.1 + 1) h.2)

/-- Dropping entries keeps the canonical form. -/
theorem cellsWf_filter (d : Nat → β) (p : Nat × β → Bool) (m : Cells β) (h : cellsWf d m) : cellsWf d (m.filter p) :=
  cellsWfFrom_filter d p m 0 h

end Sys2Proof
end

