-- ==== Sys2Proof/Laws/FrameLinks.lean ====
section
/-! SUPPORT. What leaves the bytes of the local Stacks as they are: links, lanes and the transport. -/

set_option linter.unusedSimpArgs false
set_option linter.unusedTactic false
set_option linter.unreachableTactic false

namespace Sys2Proof.Machine

/-! ## Ops -/

theorem ite_stkMem (p : Prop) [Decidable p] (a b : Chip) : (if p then a else b).stkMem = if p then a.stkMem else b.stkMem :=
    by split <;> rfl
theorem foldl_stkMem {α : Type} {f : Chip → α → Chip} (h : ∀ c a, (f c a).stkMem = c.stkMem) (l : List α)
    (c : Chip) : (l.foldl f c).stkMem = c.stkMem := by
  induction l generalizing c with
  | nil => rfl
  | cons a l ih => rw [List.foldl_cons, ih, h]
theorem foldlP_stkMem {α β : Type} {f : β → α → β} {g : β → Chip} (h : ∀ b a, (g (f b a)).stkMem = (g b).stkMem)
    (l : List α) (b : β) : (g (l.foldl f b)).stkMem = (g b).stkMem := by
  induction l generalizing b with
  | nil => rfl
  | cons a l ih => rw [List.foldl_cons, ih, h]
theorem when_stkMem {f : Chip → Chip} (h : ∀ c, (f c).stkMem = c.stkMem) (c : Chip)
    (b : Bool) : (c.when b f).stkMem = c.stkMem := by
  cases b <;> simp [Chip.when, h]
theorem Chip.setReg_stkMem (c : Chip) (a : Nat) (v : Word) : (Chip.setReg c a v).stkMem = c.stkMem :=
    by unfold Chip.setReg; rfl
theorem Chip.setFld_stkMem (c : Chip) (f : Fld) (x : Nat) : (Chip.setFld c f x).stkMem = c.stkMem := by
  simp only [Chip.setFld, Chip.setReg_stkMem]
theorem Chip.count_stkMem (c : Chip) (f : Fld) (n : Nat := 1) : (Chip.count c f n).stkMem = c.stkMem := by
  simp only [Chip.count, Chip.setFld_stkMem]
theorem Chip.clearRegs_stkMem (c : Chip) (x0 : List Nat) : (Chip.clearRegs c x0).stkMem = c.stkMem := by
  induction x0 generalizing c <;> unfold Chip.clearRegs <;> repeat' (first
    | with_reducible rfl | with_reducible assumption | (simp only [Chip.setReg_stkMem, apply_ite Prod.snd, *]) | split
    | (refine (foldl_stkMem ?_ _ _).trans ?_; intro c a) | (refine foldl_stkMem ?_ _ _; intro c a)
    | (refine (when_stkMem ?_ _ _).trans ?_; intro c) | (refine when_stkMem ?_ _ _; intro c) | rfl)
theorem Chip.emit_stkMem (c : Chip) (e : Emit) : (Chip.emit c e).stkMem = c.stkMem := by unfold Chip.emit; rfl
theorem Chip.fresh_stkMem (c : Chip) : (Chip.fresh c).2.stkMem = c.stkMem := by unfold Chip.fresh; rfl
theorem Chip.fresh_stkMem2 (c : Chip) {y0 e0} (hEq_ : (Chip.fresh c) = (y0, e0)) : e0.stkMem = c.stkMem := by
  have := Chip.fresh_stkMem c; rw [hEq_] at this; exact this
theorem Chip.raise_stkMem (c : Chip) (src detail : Nat) : (Chip.raise c src detail).stkMem = c.stkMem := by
  simp only [Chip.raise, ite_stkMem, ite_self]
theorem Chip.raiseOpen_stkMem (c : Chip) (src : Nat) : (Chip.raiseOpen c src).stkMem = c.stkMem := by
  simp only [Chip.raiseOpen, Chip.fresh_stkMem, Chip.raise_stkMem]
theorem Chip.setRaw_stkMem (c : Chip) (src : Nat) (b : Bool) : (Chip.setRaw c src b).stkMem = c.stkMem := by
  simp only [Chip.setRaw, Chip.setFld_stkMem]
theorem Chip.setLane_stkMem (c : Chip) (l : Nat) (x : LaneSt) : (Chip.setLane c l x).stkMem = c.stkMem :=
    by unfold Chip.setLane; rfl
theorem Chip.modLane_stkMem (c : Chip) (l : Nat) (f : LaneSt → LaneSt) : (Chip.modLane c l f).stkMem = c.stkMem := by
  simp only [Chip.modLane, Chip.setLane_stkMem]
theorem Chip.setLink_stkMem (c : Chip) (k : Lnk) (x : LinkSt) : (Chip.setLink c k x).stkMem = c.stkMem :=
    by unfold Chip.setLink; rfl
theorem Chip.modLink_stkMem (c : Chip) (k : Lnk) (f : LinkSt → LinkSt) : (Chip.modLink c k f).stkMem = c.stkMem := by
  simp only [Chip.modLink, Chip.setLink_stkMem]
theorem Chip.setFlow_stkMem (c : Chip) (f : Nat) (x : FlowEnt) : (Chip.setFlow c f x).stkMem = c.stkMem :=
    by unfold Chip.setFlow; rfl
theorem Chip.modFlow_stkMem (c : Chip) (f : Nat) (g : FlowEnt → FlowEnt) : (Chip.modFlow c f g).stkMem = c.stkMem := by
  simp only [Chip.modFlow, Chip.setFlow_stkMem]
theorem Chip.setSched_stkMem (c : Chip) (k : Lnk) (x : Sched) : (Chip.setSched c k x).stkMem = c.stkMem :=
    by unfold Chip.setSched; rfl
theorem Chip.modSched_stkMem (c : Chip) (k : Lnk) (f : Sched → Sched) : (Chip.modSched c k f).stkMem = c.stkMem := by
  simp only [Chip.modSched, Chip.setSched_stkMem]
theorem Chip.setOutQ_stkMem (c : Chip) (k : Lnk) (f : Nat) (q : List QCell) : (Chip.setOutQ c k f q).stkMem = c.stkMem :=
    by unfold Chip.setOutQ; rfl
theorem Chip.raiseVisl_stkMem (c : Chip) (need : Nat) : (Chip.raiseVisl c need).stkMem = c.stkMem := by
  simp only [Chip.raiseVisl, Chip.setFld_stkMem]
theorem Chip.notReady_stkMem (c : Chip) (e : HubEnd) : (Chip.notReady c e).stkMem = c.stkMem := by
  simp only [Chip.notReady, Chip.emit_stkMem, ite_stkMem, ite_self]
theorem Chip.nowReady_stkMem (c : Chip) (e : HubEnd) : (Chip.nowReady c e).stkMem = c.stkMem := by
  simp only [Chip.nowReady, Chip.emit_stkMem, ite_stkMem, ite_self]
theorem Chip.fabricReady_stkMem (c : Chip) : (Chip.fabricReady c).stkMem = c.stkMem := by
  unfold Chip.fabricReady
  repeat' (first
    | with_reducible rfl | simp only [Chip.nowReady_stkMem, ite_stkMem, ite_self] | split
    | (refine (foldl_stkMem ?_ _ _).trans ?_; intro c a) | rfl)
theorem Chip.forgetReady_stkMem (c : Chip) : (Chip.forgetReady c).stkMem = c.stkMem := by unfold Chip.forgetReady; rfl
theorem Chip.setBurstBad_stkMem (c : Chip) (b : Nat) (bad : Bool) : (Chip.setBurstBad c b bad).stkMem = c.stkMem :=
    by unfold Chip.setBurstBad; rfl
theorem Chip.maintTake_stkMem (c : Chip) (code : Nat) (locks : List LockRes) :
    (Chip.maintTake c code locks).stkMem = c.stkMem := by
  simp only [Chip.maintTake, ite_stkMem, ite_self]
theorem Chip.maintRefuse_stkMem (c : Chip) (code : Nat) : (Chip.maintRefuse c code).stkMem = c.stkMem := by
  simp only [Chip.maintRefuse, Chip.count_stkMem, Chip.raise_stkMem]
theorem Chip.maintRequest_stkMem (c : Chip) (code : Nat) (locks : List LockRes) :
    (Chip.maintRequest c code locks).2.stkMem = c.stkMem := by
  unfold Chip.maintRequest
  repeat' (first
    | with_reducible rfl | simp only [Chip.maintRefuse_stkMem, Chip.maintTake_stkMem] | split)
theorem Chip.maintRequest_stkMem2 (c : Chip) (code : Nat) (locks : List LockRes) {y0 e0} (hEq_ :
    (Chip.maintRequest c code locks) = (y0, e0)) : e0.stkMem = c.stkMem := by
  have := Chip.maintRequest_stkMem c code locks; rw [hEq_] at this; exact this
theorem Chip.maintDrop_stkMem (c : Chip) (p : MaintHold → Bool) : (Chip.maintDrop c p).stkMem = c.stkMem :=
    by unfold Chip.maintDrop; rfl
theorem Chip.maintRelease_stkMem (c : Chip) (r : LockRes) : (Chip.maintRelease c r).stkMem = c.stkMem := by
  simp only [Chip.maintRelease, Chip.maintDrop_stkMem]
theorem Chip.queueCells_stkMem (c : Chip) (k : Lnk) (f : Nat) (xs : List QCell) :
    (Chip.queueCells c k f xs).stkMem = c.stkMem := by
  simp only [Chip.queueCells, Chip.count_stkMem, Chip.setOutQ_stkMem, ite_stkMem, ite_self]
theorem Chip.countBad_stkMem (c : Chip) (a n : Nat) : (Chip.countBad c a n).stkMem = c.stkMem := by
  simp only [Chip.countBad, Chip.count_stkMem]
theorem Chip.queueMsg_stkMem (c : Chip) (k : Lnk) (f cls : Nat) (bytes : List Byte) :
    (Chip.queueMsg c k f cls bytes).stkMem = c.stkMem := by
  simp only [Chip.queueMsg, Chip.emit_stkMem, Chip.queueCells_stkMem, ite_stkMem, ite_self]
theorem Chip.queueLmc_stkMem (c : Chip) (k : Lnk) (code : Nat) (body : List Byte) :
    (Chip.queueLmc c k code body).stkMem = c.stkMem := by
  simp only [Chip.queueLmc, Chip.modLink_stkMem]
theorem Chip.queueUrgent_stkMem (c : Chip) (k : Lnk) (code : Nat) (body : List Byte) :
    (Chip.queueUrgent c k code body).stkMem = c.stkMem := by
  simp only [Chip.queueUrgent, Chip.modLink_stkMem]

/-! ## Peers -/

theorem Chip.countWinError_stkMem (c : Chip) (win : Option Nat) (status : Nat) :
    (Chip.countWinError c win status).stkMem = c.stkMem := by
  unfold Chip.countWinError
  repeat' (first
    | with_reducible rfl | simp only [Chip.count_stkMem, ite_stkMem, ite_self] | split)
theorem Chip.logFailure_stkMem (c : Chip) (win : Option Nat) (status flow addr pos : Nat) :
    (Chip.logFailure c win status flow addr pos).stkMem = c.stkMem := by
  simp only [Chip.logFailure, Chip.raise_stkMem, Chip.setFld_stkMem, Chip.setReg_stkMem, ite_stkMem, ite_self]
theorem Chip.answer_stkMem (c : Chip) (k : Lnk) (f : Nat) (win : Option Nat) (hdr : List Byte) (status : Nat)
    (data : List Byte) : (Chip.answer c k f win hdr status data).stkMem = c.stkMem := by
  simp only [Chip.answer, Chip.countWinError_stkMem, Chip.queueMsg_stkMem, Chip.raise_stkMem, ite_stkMem, ite_self]
theorem Chip.voidAhead_stkMem (c : Chip) (p : Nat → PrefetchBuf → Bool) : (Chip.voidAhead c p).stkMem = c.stkMem :=
    by unfold Chip.voidAhead; rfl
theorem Chip.discardPrefetch_stkMem (c : Chip) (p : Nat → PrefetchBuf → Bool) : (Chip.discardPrefetch c p).stkMem = c.stkMem :=
    by
  simp only [Chip.discardPrefetch, Chip.count_stkMem, Chip.voidAhead_stkMem, ite_stkMem, ite_self]
theorem Chip.discardOver_stkMem (c : Chip) (a n : Nat) : (Chip.discardOver c a n).stkMem = c.stkMem := by
  simp only [Chip.discardOver, Chip.discardPrefetch_stkMem]
theorem Chip.fillPrefetch_stkMem (c : Chip) (w : Nat) (k : Lnk) (a : Nat) (bs : List Byte) (bad : List Nat) :
    (Chip.fillPrefetch c w k a bs bad).stkMem = c.stkMem := by
  simp only [Chip.fillPrefetch, ite_stkMem, ite_self]
theorem Chip.syncTags_stkMem (c : Chip) : (Chip.syncTags c).stkMem = c.stkMem := by
  simp only [Chip.syncTags, Chip.setFld_stkMem]
theorem Chip.dropReq_stkMem (c : Chip) (r : FwdReq) : (Chip.dropReq c r).stkMem = c.stkMem := by
  simp only [Chip.dropReq, Chip.syncTags_stkMem]
theorem Chip.addReq_stkMem (c : Chip) (r : FwdReq) : (Chip.addReq c r).stkMem = c.stkMem := by unfold Chip.addReq; rfl
theorem Chip.unasked_stkMem (c : Chip) (x : Asker) : (Chip.unasked c x).stkMem = c.stkMem := by unfold Chip.unasked; rfl
theorem Chip.svcfEnd_stkMem (c : Chip) (req addr status : Nat) (data : List Byte) :
    (Chip.svcfEnd c req addr status data).stkMem = c.stkMem := by
  simp only [Chip.svcfEnd, Chip.count_stkMem, Chip.emit_stkMem, Chip.nowReady_stkMem, Chip.raise_stkMem, Chip.setFld_stkMem,
      ite_stkMem, ite_self]
theorem Chip.svcfDone_stkMem (c : Chip) (r : FwdReq) (status : Nat) (data : List Byte) :
    (Chip.svcfDone c r status data).stkMem = c.stkMem := by
  simp only [Chip.svcfDone, Chip.svcfEnd_stkMem]
theorem Chip.modSvcp_stkMem (c : Chip) (f : Svcp → Svcp) : (Chip.modSvcp c f).stkMem = c.stkMem := by unfold Chip.modSvcp; rfl
theorem Chip.svcpRefuse_stkMem (c : Chip) (status : Nat) : (Chip.svcpRefuse c status).stkMem = c.stkMem := by
  simp only [Chip.svcpRefuse, Chip.count_stkMem, Chip.setFld_stkMem]
theorem Chip.svcpReject_stkMem (c : Chip) (status : Nat) : (Chip.svcpReject c status).stkMem = c.stkMem := by
  simp only [Chip.svcpReject, Chip.emit_stkMem, Chip.modSvcp_stkMem, Chip.svcpRefuse_stkMem]
theorem Chip.svcpOnes_stkMem (c : Chip) (status : Nat) : (Chip.svcpOnes c status).stkMem = c.stkMem := by
  simp only [Chip.svcpOnes, Chip.emit_stkMem, Chip.modSvcp_stkMem, Chip.svcpRefuse_stkMem]
theorem Chip.svcpWrote_stkMem (c : Chip) (r : FwdReq) (status : Nat) : (Chip.svcpWrote c r status).stkMem = c.stkMem := by
  unfold Chip.svcpWrote
  repeat' (first
    | with_reducible rfl | simp only [Chip.addReq_stkMem, Chip.modSvcp_stkMem, Chip.svcpReject_stkMem, ite_stkMem, ite_self]
    | split)
theorem Chip.svcpGot_stkMem (c : Chip) (r : FwdReq) (status : Nat) (data : List Byte) :
    (Chip.svcpGot c r status data).stkMem = c.stkMem := by
  unfold Chip.svcpGot
  repeat' (first
    | with_reducible rfl | simp only [Chip.addReq_stkMem, Chip.emit_stkMem, Chip.modSvcp_stkMem, Chip.svcpOnes_stkMem,
        ite_stkMem, ite_self] | split | (refine (foldl_stkMem ?_ _ _).trans ?_; intro c a))
theorem Chip.svcpDone_stkMem (c : Chip) (r : FwdReq) (status : Nat) (data : List Byte) :
    (Chip.svcpDone c r status data).stkMem = c.stkMem := by
  simp only [Chip.svcpDone, Chip.svcpGot_stkMem, Chip.svcpWrote_stkMem, ite_stkMem, ite_self]
theorem Chip.endReq_stkMem (c : Chip) (r : FwdReq) (status : Nat) (data : List Byte) :
    (Chip.endReq c r status data).stkMem = c.stkMem := by
  unfold Chip.endReq
  repeat' (first
    | with_reducible rfl | simp only [Chip.answer_stkMem, Chip.dropReq_stkMem, Chip.fillPrefetch_stkMem, Chip.setFld_stkMem,
        Chip.setReg_stkMem, Chip.svcfDone_stkMem, Chip.svcpDone_stkMem, ite_stkMem, ite_self] | split)
theorem Chip.failTowards_stkMem (c : Chip) (p : FwdReq → Bool) : (Chip.failTowards c p).stkMem = c.stkMem := by
  unfold Chip.failTowards
  repeat' (first
    | with_reducible rfl | simp only [Chip.endReq_stkMem] | split | (refine (foldl_stkMem ?_ _ _).trans ?_; intro c a) | rfl)
theorem Chip.declareAbsent_stkMem (c : Chip) (missed : Bool) : (Chip.declareAbsent c missed).stkMem = c.stkMem := by
  simp only [Chip.declareAbsent, Chip.failTowards_stkMem, Chip.raise_stkMem, Chip.setFld_stkMem, ite_stkMem, ite_self]
theorem Chip.linkLost_stkMem (c : Chip) (k : Lnk) (ended : Bool) : (Chip.linkLost c k ended).stkMem = c.stkMem := by
  simp only [Chip.linkLost, Chip.declareAbsent_stkMem, Chip.failTowards_stkMem, Chip.setFld_stkMem, ite_stkMem, ite_self]

/-! ## LinkOps -/

theorem Chip.lightExit_stkMem (c : Chip) : (Chip.lightExit c).stkMem = c.stkMem := by
  simp only [Chip.lightExit, Chip.setFld_stkMem, ite_stkMem, ite_self]
theorem Chip.syncMaps_stkMem (c : Chip) (k : Lnk) : (Chip.syncMaps c k).stkMem = c.stkMem := by
  simp only [Chip.syncMaps, Chip.setFld_stkMem]
theorem Chip.loadRx_stkMem (c : Chip) (l : Nat) (ws : List Word) : (Chip.loadRx c l ws).stkMem = c.stkMem := by
  unfold Chip.loadRx
  repeat' (first
    | with_reducible rfl | simp only [Chip.fresh_stkMem, Chip.modLane_stkMem, Chip.setFld_stkMem, Chip.setReg_stkMem]
    | split | exact Chip.fresh_stkMem2 (hEq_ := by assumption) | rw [Chip.fresh_stkMem2 (hEq_ := by assumption)]
    | (refine (foldl_stkMem ?_ _ _).trans ?_; intro c a))
theorem Chip.endEye_stkMem (c : Chip) (l code : Nat) : (Chip.endEye c l code).stkMem = c.stkMem := by
  simp only [Chip.endEye, Chip.maintDrop_stkMem, Chip.modLane_stkMem, Chip.setFld_stkMem, ite_stkMem, ite_self]
theorem Chip.endLoop_stkMem (c : Chip) (l : Nat) : (Chip.endLoop c l).stkMem = c.stkMem := by
  simp only [Chip.endLoop, Chip.maintDrop_stkMem, Chip.setFld_stkMem, ite_stkMem, ite_self]
theorem Chip.endLaneActivity_stkMem (c : Chip) (l eyeCode : Nat) : (Chip.endLaneActivity c l eyeCode).stkMem = c.stkMem := by
  simp only [Chip.endLaneActivity, Chip.endEye_stkMem, Chip.endLoop_stkMem, Chip.maintDrop_stkMem, Chip.modLane_stkMem,
      Chip.setFld_stkMem, ite_stkMem, ite_self]
theorem Chip.dropTurn_stkMem (c : Chip) (k : Lnk) : (Chip.dropTurn c k).stkMem = c.stkMem := by
  unfold Chip.dropTurn
  repeat' (first
    | with_reducible rfl | simp only [Chip.maintDrop_stkMem, Chip.modLane_stkMem, Chip.modLink_stkMem, Chip.setFld_stkMem]
    | split | (refine (foldl_stkMem ?_ _ _).trans ?_; intro c a))
theorem Chip.laneReset_stkMem (c : Chip) (l align : Nat) : (Chip.laneReset c l align).stkMem = c.stkMem := by
  simp only [Chip.laneReset, Chip.modLane_stkMem, Chip.setFld_stkMem]
theorem Chip.idleLanes_stkMem (c : Chip) (k : Lnk) : (Chip.idleLanes c k).stkMem = c.stkMem := by
  unfold Chip.idleLanes
  repeat' (first
    | with_reducible rfl | simp only [Chip.dropTurn_stkMem, Chip.endLaneActivity_stkMem, Chip.laneReset_stkMem,
        Chip.setFld_stkMem] | split | (refine (foldl_stkMem ?_ _ _).trans ?_; intro c a) | rfl)
theorem Chip.linkDown_stkMem (c : Chip) (k : Lnk) (code : Nat) : (Chip.linkDown c k code).stkMem = c.stkMem := by
  simp only [Chip.linkDown, Chip.idleLanes_stkMem, Chip.linkLost_stkMem, Chip.modLink_stkMem, Chip.setFld_stkMem,
      Chip.syncMaps_stkMem]

/-! ## Sending -/

theorem Chip.returnCredit_stkMem (c : Chip) (k : Lnk) (cls : Nat) : (Chip.returnCredit c k cls).stkMem = c.stkMem := by
  simp only [Chip.returnCredit, Chip.modLink_stkMem]
theorem Chip.openCredits_stkMem (c : Chip) (k : Lnk) : (Chip.openCredits c k).stkMem = c.stkMem := by
  simp only [Chip.openCredits, Chip.modLink_stkMem]
theorem Chip.sendCell_stkMem (c : Chip) (k : Lnk) (p : Nat × Nat × Nat) : (Chip.sendCell c k p).2.stkMem = c.stkMem := by
  unfold Chip.sendCell
  repeat' (first
    | with_reducible rfl | simp only [Chip.modLink_stkMem, Chip.setOutQ_stkMem] | split)
theorem Chip.sendCell_stkMem2 (c : Chip) (k : Lnk) (p : Nat × Nat × Nat) {y0 e0} (hEq_ : (Chip.sendCell c k p) = (y0,
    e0)) : e0.stkMem = c.stkMem := by
  have := Chip.sendCell_stkMem c k p; rw [hEq_] at this; exact this
theorem Chip.takeLmc_stkMem {c : Chip} {k : Lnk} {p : Lmc → Bool} {r : Lmc × Chip} (h : c.takeLmc k p = some r) : r.2.stkMem = c.stkMem := by
  unfold Chip.takeLmc at h
  cases hf : (c.link k).lmcs.find? p with
  | none => simp [hf] at h
  | some m => simp only [hf, Option.map_some, Option.some.injEq] at h; rw [← h, Chip.modLink_stkMem]
theorem Chip.linkSlot_stkMem (c : Chip) (l bcnt : Nat) : (Chip.linkSlot c l bcnt).2.stkMem = c.stkMem := by
  unfold Chip.linkSlot; dsimp only; split
  · rename_i h; exact Chip.takeLmc_stkMem h
  · rfl
theorem Chip.linkSlot_stkMem2 (c : Chip) (l bcnt : Nat) {y0 e0} (hEq_ : (Chip.linkSlot c l bcnt) = (y0,
    e0)) : e0.stkMem = c.stkMem := by
  have := Chip.linkSlot_stkMem c l bcnt; rw [hEq_] at this; exact this
theorem Chip.dataSlot_stkMem (c : Chip) (l : Nat) : (Chip.dataSlot c l).2.2.stkMem = c.stkMem := by
  unfold Chip.dataSlot; dsimp only; split
  · simp only [Chip.count_stkMem, Chip.modLink_stkMem]
  · split
    · rename_i h; exact Chip.takeLmc_stkMem h
    · split
      · rfl
      · split
        · rfl
        · split <;> exact Chip.sendCell_stkMem2 (hEq_ := by assumption)
theorem Chip.dataSlot_stkMem2 (c : Chip) (l : Nat) {y0 y1 e0} (hEq_ : (Chip.dataSlot c l) = (y0, y1,
    e0)) : e0.stkMem = c.stkMem := by
  have := Chip.dataSlot_stkMem c l; rw [hEq_] at this; exact this
theorem Chip.fillSlot_stkMem (c : Chip) (l bcnt : Nat) (before : List Cell) :
    (Chip.fillSlot c l bcnt before).2.2.stkMem = c.stkMem := by
  unfold Chip.fillSlot; dsimp only; split
  · rfl
  · split
    · rfl
    · split
      · simp only [Chip.linkSlot_stkMem]
      · split
        · rfl
        · split
          · rename_i h; exact Chip.takeLmc_stkMem h
          · split
            · rfl
            · simp only [Chip.dataSlot_stkMem]
theorem Chip.fillSlot_stkMem2 (c : Chip) (l bcnt : Nat) (before : List Cell) {y0 y1 e0} (hEq_ :
    (Chip.fillSlot c l bcnt before) = (y0, y1, e0)) : e0.stkMem = c.stkMem := by
  have := Chip.fillSlot_stkMem c l bcnt before; rw [hEq_] at this; exact this
theorem Chip.sendBlock_stkMem (c : Chip) (l : Nat) : (Chip.sendBlock c l).stkMem = c.stkMem := by
  have one : ∀ b (acc : List Cell × List (Cell × Nat) × Chip) s, (Chip.addSlot l b acc s).2.2.stkMem = acc.2.2.stkMem := by
    intro b acc s; unfold Chip.addSlot; simp only [Chip.setLink_stkMem, Chip.fillSlot_stkMem]
  have key : ∀ b (xs : List Nat) acc, (xs.foldl (Chip.addSlot l b) acc).2.2.stkMem = acc.2.2.stkMem := by
    intro b xs; induction xs with
    | nil => intro acc; rfl
    | cons x xs ih => intro acc; rw [List.foldl_cons, ih, one]
  unfold Chip.sendBlock
  dsimp only
  split
  · rfl
  · simp only [Chip.emit_stkMem, Chip.modLane_stkMem]; split <;> simp [Chip.modLink_stkMem, key]
theorem Chip.sendQuiet_stkMem (c : Chip) (l : Nat) : (Chip.sendQuiet c l).stkMem = c.stkMem := by
  simp only [Chip.sendQuiet, Chip.modLane_stkMem, Chip.sendBlock_stkMem]

/-! ## LinkStarts -/

theorem Chip.trainLane_stkMem (c : Chip) (l : Nat) : (Chip.trainLane c l).stkMem = c.stkMem := by
  simp only [Chip.trainLane, Chip.endLaneActivity_stkMem, Chip.laneReset_stkMem, Chip.loadRx_stkMem, Chip.setFld_stkMem,
      Chip.setReg_stkMem]
theorem Chip.startAttempt_stkMem (c : Chip) (k : Lnk) : (Chip.startAttempt c k).stkMem = c.stkMem := by
  unfold Chip.startAttempt
  repeat' (first
    | with_reducible rfl | simp only [Chip.dropTurn_stkMem, Chip.modLink_stkMem, Chip.openCredits_stkMem,
        Chip.queueLmc_stkMem, Chip.setFld_stkMem, Chip.syncMaps_stkMem, Chip.trainLane_stkMem] | split
    | (refine (foldl_stkMem ?_ _ _).trans ?_; intro c a))
theorem Chip.startTraining_stkMem (c : Chip) (k : Lnk) : (Chip.startTraining c k).stkMem = c.stkMem := by
  simp only [Chip.startTraining, Chip.modLink_stkMem, Chip.setFld_stkMem, Chip.startAttempt_stkMem]
theorem Chip.recoverBlock_stkMem (c : Chip) (l : Nat) : (Chip.recoverBlock c l).stkMem = c.stkMem := by
  simp only [Chip.recoverBlock, Chip.fresh_stkMem, Chip.modLink_stkMem, Chip.sendQuiet_stkMem, ite_stkMem, ite_self]
theorem Chip.recoverLane_stkMem (c : Chip) (l : Nat) : (Chip.recoverLane c l).stkMem = c.stkMem := by
  simp only [Chip.recoverLane, Chip.emit_stkMem, Chip.endEye_stkMem, Chip.laneReset_stkMem, Chip.maintDrop_stkMem,
      Chip.modLane_stkMem, Chip.setFld_stkMem, ite_stkMem, ite_self]
theorem Chip.startRecovery_stkMem (c : Chip) (k : Lnk) : (Chip.startRecovery c k).stkMem = c.stkMem := by
  unfold Chip.startRecovery
  repeat' (first
    | with_reducible rfl | simp only [Chip.count_stkMem, Chip.discardPrefetch_stkMem, Chip.dropTurn_stkMem,
        Chip.modLink_stkMem, Chip.raiseOpen_stkMem, Chip.recoverBlock_stkMem, Chip.recoverLane_stkMem, Chip.setFld_stkMem,
        Chip.syncMaps_stkMem, ite_stkMem] | split | (refine (foldl_stkMem ?_ _ _).trans ?_; intro c a))
theorem Chip.takeLaneOut_stkMem (c : Chip) (l reason : Nat) (tell : Bool) :
    (Chip.takeLaneOut c l reason tell).stkMem = c.stkMem := by
  simp only [Chip.takeLaneOut, Chip.modLane_stkMem, Chip.queueLmc_stkMem, Chip.startRecovery_stkMem, ite_stkMem, ite_self]
theorem Chip.sendPatternOnce_stkMem (c : Chip) (k : Lnk) : (Chip.sendPatternOnce c k).stkMem = c.stkMem := by
  simp only [Chip.sendPatternOnce, Chip.emit_stkMem, Chip.modLink_stkMem, ite_stkMem, ite_self]
theorem Chip.linkSleep_stkMem (c : Chip) (k : Lnk) (level : Nat) : (Chip.linkSleep c k level).stkMem = c.stkMem := by
  unfold Chip.linkSleep
  repeat' (first
    | with_reducible rfl | simp only [Chip.modLane_stkMem, Chip.modLink_stkMem, Chip.sendPatternOnce_stkMem,
        Chip.sendQuiet_stkMem, Chip.setFld_stkMem, ite_stkMem, ite_self] | split
    | (refine (foldl_stkMem ?_ _ _).trans ?_; intro c a))

/-! ## Access -/

theorem Chip.countLockIgn_stkMem (c : Chip) (p : Nat) : (Chip.countLockIgn c p).stkMem = c.stkMem := by
  simp only [Chip.countLockIgn, Chip.count_stkMem]
theorem Chip.writeMasked_stkMem (c : Chip) (a : Nat) (v : Word) : (Chip.writeMasked c a v).stkMem = c.stkMem := by
  unfold Chip.writeMasked
  repeat' (first
    | with_reducible rfl | simp only [Chip.countLockIgn_stkMem, Chip.setReg_stkMem, ite_stkMem, ite_self] | split)

/-! ## Adapt -/

theorem Chip.setTapByte_stkMem (c : Chip) (a : Nat) (b : Byte) : (Chip.setTapByte c a b).stkMem = c.stkMem :=
    by unfold Chip.setTapByte; rfl
theorem Chip.setTapBytes_stkMem (c : Chip) (a : Nat) (x0 : List Byte) : (Chip.setTapBytes c a x0).stkMem = c.stkMem := by
  induction x0 generalizing c a <;> unfold Chip.setTapBytes <;> repeat' (first
    | with_reducible rfl | with_reducible assumption | (simp only [Chip.setTapByte_stkMem, apply_ite Prod.snd, *]) | split
    | (refine (foldl_stkMem ?_ _ _).trans ?_; intro c a) | (refine foldl_stkMem ?_ _ _; intro c a)
    | (refine (when_stkMem ?_ _ _).trans ?_; intro c) | (refine when_stkMem ?_ _ _; intro c) | rfl)
theorem Chip.countUse_stkMem (c : Chip) (k : Lnk) (r? : Option Nat) : (Chip.countUse c k r?).stkMem = c.stkMem := by
  unfold Chip.countUse
  repeat' (first
    | with_reducible rfl | simp only [Chip.setTapBytes_stkMem] | split)
theorem Chip.queueEq_stkMem (c : Chip) (k : Lnk) (f : Nat → List Byte) : (Chip.queueEq c k f).stkMem = c.stkMem := by
  simp only [Chip.queueEq, Chip.queueLmc_stkMem]
theorem Chip.sendRequests_stkMem (c : Chip) (k : Lnk) (ls : List Nat) : (Chip.sendRequests c k ls).stkMem = c.stkMem := by
  simp only [Chip.sendRequests, Chip.queueEq_stkMem]
theorem Chip.startAdapt_stkMem (c : Chip) (l rate : Nat) (r? : Option Nat) : (Chip.startAdapt c l rate r?).stkMem = c.stkMem :=
    by
  simp only [Chip.startAdapt, Chip.loadRx_stkMem, Chip.modLane_stkMem, Chip.setFld_stkMem, Chip.setReg_stkMem]
theorem Chip.askStep_stkMem (c : Chip) (l : Nat) : (Chip.askStep c l).stkMem = c.stkMem := by
  simp only [Chip.askStep, Chip.fresh_stkMem, Chip.modLane_stkMem, Chip.queueEq_stkMem]
theorem Chip.adaptBlock_stkMem (c : Chip) (l : Nat) : (Chip.adaptBlock c l).stkMem = c.stkMem := by
  unfold Chip.adaptBlock
  repeat' (first
    | with_reducible rfl | simp only [Chip.askStep_stkMem, Chip.setFld_stkMem, ite_stkMem, ite_self] | split)
theorem Chip.eqAnswer_stkMem (c : Chip) (l resp : Nat) : (Chip.eqAnswer c l resp).stkMem = c.stkMem := by
  simp only [Chip.eqAnswer, Chip.askStep_stkMem, Chip.modLane_stkMem, Chip.setFld_stkMem, Chip.setReg_stkMem, ite_stkMem,
      ite_self]
theorem Chip.eqApply_stkMem (c : Chip) (l : Nat) (q : EqLane) : (Chip.eqApply c l q).1.stkMem = c.stkMem := by
  unfold Chip.eqApply; dsimp only
  split <;> split <;> (try split) <;> simp only [Chip.setReg_stkMem, Chip.setFld_stkMem]
theorem Chip.takeEq_stkMem (c : Chip) (k : Lnk) (qs : List EqLane) : (Chip.takeEq c k qs).stkMem = c.stkMem := by
  unfold Chip.takeEq
  dsimp only
  split
  all_goals
    try rw [Chip.queueEq_stkMem]
    refine foldlP_stkMem (g := Prod.fst) (fun b ll => ?_) _ _
    split
    · split
      · rfl
      · split
        · exact Chip.eqApply_stkMem _ _ _
        · dsimp only
          split
          · exact Chip.eqAnswer_stkMem _ _ _
          · rfl
    · rfl
theorem Chip.trackTaps_stkMem (c : Chip) (l : Nat) (taps : List Word) : (Chip.trackTaps c l taps).stkMem = c.stkMem := by
  simp only [Chip.trackTaps, Chip.emit_stkMem, Chip.loadRx_stkMem, Chip.setFld_stkMem, Chip.setReg_stkMem, ite_stkMem,
      ite_self]

/-! ## Lanes -/

theorem Chip.clearEyeResults_stkMem (c : Chip) (l : Nat) : (Chip.clearEyeResults c l).stkMem = c.stkMem := by
  unfold Chip.clearEyeResults
  repeat' (first
    | with_reducible rfl | simp only [Chip.setReg_stkMem] | split | (refine (foldl_stkMem ?_ _ _).trans ?_; intro c a) | rfl)
theorem Chip.eyeStart_stkMem (c : Chip) (l : Nat) : (Chip.eyeStart c l).stkMem = c.stkMem := by
  unfold Chip.eyeStart
  repeat' (first
    | with_reducible rfl | simp only [Chip.clearEyeResults_stkMem, Chip.maintRefuse_stkMem, Chip.maintTake_stkMem,
        Chip.modLane_stkMem, Chip.setFld_stkMem, ite_stkMem, ite_self] | split)
theorem Chip.writeEyeCtrl_stkMem (c : Chip) (l : Nat) (v : Word) : (Chip.writeEyeCtrl c l v).stkMem = c.stkMem := by
  unfold Chip.writeEyeCtrl
  repeat' (first
    | with_reducible rfl | simp only [Chip.endEye_stkMem, Chip.eyeStart_stkMem, Chip.writeMasked_stkMem, ite_stkMem] | split
    | (refine (when_stkMem ?_ _ _).trans ?_; intro c) | rfl)
theorem Chip.eyePointDone_stkMem (c : Chip) (l errors : Nat) : (Chip.eyePointDone c l errors).stkMem = c.stkMem := by
  unfold Chip.eyePointDone
  repeat' (first
    | with_reducible rfl | simp only [Chip.count_stkMem, Chip.endEye_stkMem, Chip.modLane_stkMem, Chip.setFld_stkMem] | split)
theorem Chip.checkPattern_stkMem (c : Chip) (l : Nat) (levels : List Nat) : (Chip.checkPattern c l levels).stkMem = c.stkMem :=
    by
  simp only [Chip.checkPattern, Chip.count_stkMem, Chip.modLane_stkMem]
theorem Chip.loopReceive_stkMem (c : Chip) (l : Nat) (levels : List Nat) : (Chip.loopReceive c l levels).stkMem = c.stkMem :=
    by
  unfold Chip.loopReceive
  repeat' (first
    | with_reducible rfl | simp only [Chip.checkPattern_stkMem, Chip.emit_stkMem, ite_stkMem, ite_self] | split)
theorem Chip.sendPattern_stkMem (c : Chip) (l : Nat) : (Chip.sendPattern c l).stkMem = c.stkMem := by
  simp only [Chip.sendPattern, Chip.emit_stkMem, Chip.modLane_stkMem]
theorem Chip.selectLoop_stkMem (c : Chip) (l mode : Nat) : (Chip.selectLoop c l mode).stkMem = c.stkMem := by
  unfold Chip.selectLoop
  repeat' (first
    | with_reducible rfl | simp only [Chip.emit_stkMem, Chip.endLoop_stkMem, Chip.modLane_stkMem, Chip.setFld_stkMem,
        Chip.setReg_stkMem, ite_stkMem] | split | exact Chip.maintRequest_stkMem2 (hEq_ := by assumption)
    | rw [Chip.maintRequest_stkMem2 (hEq_ := by assumption)])
theorem Chip.writeLaneCtrl_stkMem (c : Chip) (l : Nat) (v : Word) : (Chip.writeLaneCtrl c l v).stkMem = c.stkMem := by
  unfold Chip.writeLaneCtrl
  repeat' (first
    | with_reducible rfl | simp only [Chip.selectLoop_stkMem, Chip.setFld_stkMem, ite_stkMem] | split
    | (refine (when_stkMem ?_ _ _).trans ?_; intro c))
theorem Chip.retrainLive_stkMem (c : Chip) (l rate : Nat) : (Chip.retrainLive c l rate).stkMem = c.stkMem := by
  simp only [Chip.retrainLive, Chip.loadRx_stkMem, Chip.setFld_stkMem, Chip.startAdapt_stkMem]
theorem Chip.beginRetrain_stkMem (c : Chip) (l : Nat) : (Chip.beginRetrain c l).stkMem = c.stkMem := by
  simp only [Chip.beginRetrain, Chip.countUse_stkMem, Chip.modLane_stkMem, Chip.retrainLive_stkMem, Chip.sendRequests_stkMem,
      Chip.setFld_stkMem, Chip.setReg_stkMem, Chip.startAdapt_stkMem, ite_stkMem, ite_self]
theorem Chip.retrainLane_stkMem (c : Chip) (l : Nat) : (Chip.retrainLane c l).2.stkMem = c.stkMem := by
  unfold Chip.retrainLane
  repeat' (first
    | with_reducible rfl | simp only [Chip.beginRetrain_stkMem] | split
    | exact Chip.maintRequest_stkMem2 (hEq_ := by assumption) | rw [Chip.maintRequest_stkMem2 (hEq_ := by assumption)])
theorem Chip.retrainLane_stkMem2 (c : Chip) (l : Nat) {y0 e0} (hEq_ : (Chip.retrainLane c l) = (y0,
    e0)) : e0.stkMem = c.stkMem := by
  have := Chip.retrainLane_stkMem c l; rw [hEq_] at this; exact this
theorem Chip.writeLaneEqCtrl_stkMem (c : Chip) (l : Nat) (v : Word) : (Chip.writeLaneEqCtrl c l v).stkMem = c.stkMem := by
  unfold Chip.writeLaneEqCtrl
  repeat' (first
    | with_reducible rfl | simp only [Chip.setFld_stkMem, Chip.takeLaneOut_stkMem, Chip.writeMasked_stkMem, ite_stkMem,
        ite_self] | split | exact Chip.retrainLane_stkMem2 (hEq_ := by assumption)
    | rw [Chip.retrainLane_stkMem2 (hEq_ := by assumption)])
theorem Chip.receiverRelease_stkMem (c : Chip) (l : Nat) : (Chip.receiverRelease c l).stkMem = c.stkMem := by
  simp only [Chip.receiverRelease, Chip.modLane_stkMem, Chip.setFld_stkMem, Chip.syncMaps_stkMem]
theorem Chip.transmitterRelease_stkMem (c : Chip) (l : Nat) : (Chip.transmitterRelease c l).stkMem = c.stkMem := by
  simp only [Chip.transmitterRelease, Chip.modLane_stkMem, Chip.setFld_stkMem, Chip.syncMaps_stkMem]
theorem Chip.loseLock_stkMem (c : Chip) (l : Nat) : (Chip.loseLock c l).stkMem = c.stkMem := by
  simp only [Chip.loseLock, Chip.count_stkMem, Chip.endLaneActivity_stkMem, Chip.modLane_stkMem, Chip.raiseOpen_stkMem,
      Chip.receiverRelease_stkMem, Chip.setFld_stkMem, Chip.takeLaneOut_stkMem, ite_stkMem, ite_self]
theorem Chip.laneImpaired_stkMem (c : Chip) (l : Nat) : (Chip.laneImpaired c l).stkMem = c.stkMem := by
  simp only [Chip.laneImpaired, Chip.endEye_stkMem, Chip.modLane_stkMem, Chip.raiseOpen_stkMem, Chip.takeLaneOut_stkMem,
      ite_stkMem, ite_self]
theorem Chip.turnStep_stkMem (c : Chip) (l : Nat) (ok : LaneSt → Bool) (f : Chip → Chip) (hf : ∀ c,
    (f c).stkMem = c.stkMem) : (Chip.turnStep c l ok f).stkMem = c.stkMem := by
  unfold Chip.turnStep; split <;> simp [hf]

/-! ## Transport -/

theorem Chip.protoErr_stkMem (c : Chip) (k : Lnk) : (Chip.protoErr c k).stkMem = c.stkMem := by
  simp only [Chip.protoErr, Chip.count_stkMem, Chip.raiseOpen_stkMem]
theorem Chip.noteCell_stkMem (c : Chip) (k : Lnk) (f : Nat) : (Chip.noteCell c k f).stkMem = c.stkMem := by
  simp only [Chip.noteCell, Chip.modSched_stkMem, ite_stkMem, ite_self]
theorem Chip.checkGrant_stkMem (c : Chip) (k : Lnk) (f : Nat) : (Chip.checkGrant c k f).stkMem = c.stkMem := by
  simp only [Chip.checkGrant, Chip.count_stkMem, Chip.noteCell_stkMem, Chip.raise_stkMem, ite_stkMem, ite_self]
theorem Chip.keepBuffer_stkMem (c : Chip) (f : Nat) : (Chip.keepBuffer c f).stkMem = c.stkMem := by
  simp only [Chip.keepBuffer, ite_stkMem, ite_self]
theorem Chip.noteEntered_stkMem (c : Chip) (k : Lnk) (f cls : Nat) : (Chip.noteEntered c k f cls).stkMem = c.stkMem := by
  simp only [Chip.noteEntered, ite_stkMem, ite_self]
theorem Chip.assemble_stkMem (c : Chip) (k : Lnk) (x : Cell) : (Chip.assemble c k x).stkMem = c.stkMem := by
  simp only [Chip.assemble, Chip.emit_stkMem, Chip.keepBuffer_stkMem, Chip.modLink_stkMem, Chip.noteEntered_stkMem,
      ite_stkMem, ite_self]
theorem Chip.forwardCell_stkMem (c : Chip) (src dst : Lnk) (x : Cell) : (Chip.forwardCell c src dst x).stkMem = c.stkMem := by
  simp only [Chip.forwardCell, Chip.count_stkMem, Chip.modLink_stkMem, Chip.setOutQ_stkMem, ite_stkMem, ite_self]
theorem Chip.placeCell_stkMem (c : Chip) (k : Lnk) (x : Cell) : (Chip.placeCell c k x).stkMem = c.stkMem := by
  unfold Chip.placeCell
  repeat' (first
    | with_reducible rfl | simp only [Chip.assemble_stkMem, Chip.count_stkMem, Chip.forwardCell_stkMem,
        Chip.returnCredit_stkMem, ite_stkMem] | split)
theorem Chip.drainSrf_stkMem (c : Chip) (k : Lnk) (x0 : Nat) : (Chip.drainSrf c k x0).stkMem = c.stkMem := by
  induction x0 generalizing c k <;> unfold Chip.drainSrf <;> repeat' (first
    | with_reducible rfl | with_reducible assumption | (simp only [Chip.modLink_stkMem, Chip.placeCell_stkMem, ite_stkMem,
        apply_ite Prod.snd, ite_self, *]) | split | (refine (foldl_stkMem ?_ _ _).trans ?_; intro c a)
    | (refine foldl_stkMem ?_ _ _; intro c a) | (refine (when_stkMem ?_ _ _).trans ?_; intro c)
    | (refine when_stkMem ?_ _ _; intro c) | rfl)
theorem Chip.drainIngress_stkMem (c : Chip) : (Chip.drainIngress c).stkMem = c.stkMem := by
  simp only [Chip.drainIngress, Chip.drainSrf_stkMem, ite_stkMem, ite_self]
theorem Chip.deliverCell_stkMem (c : Chip) (k : Lnk) (x : Cell) : (Chip.deliverCell c k x).stkMem = c.stkMem := by
  simp only [Chip.deliverCell, Chip.checkGrant_stkMem, Chip.modLink_stkMem, Chip.placeCell_stkMem, Chip.protoErr_stkMem,
      Chip.returnCredit_stkMem, ite_stkMem, ite_self]
theorem Chip.drainStalled_stkMem (c : Chip) (k : Lnk) : (Chip.drainStalled c k).stkMem = c.stkMem := by
  unfold Chip.drainStalled
  repeat' (first
    | with_reducible rfl | simp only [Chip.deliverCell_stkMem, Chip.modLink_stkMem] | split
    | (refine (foldl_stkMem ?_ _ _).trans ?_; intro c a) | rfl)
theorem Chip.drainEarly_stkMem (c : Chip) (k : Lnk) (x0 : Nat) : (Chip.drainEarly c k x0).stkMem = c.stkMem := by
  induction x0 generalizing c k <;> unfold Chip.drainEarly <;> repeat' (first
    | with_reducible rfl | with_reducible assumption | (simp only [Chip.deliverCell_stkMem, Chip.modLink_stkMem,
        apply_ite Prod.snd, *]) | split | (refine (foldl_stkMem ?_ _ _).trans ?_; intro c a)
    | (refine foldl_stkMem ?_ _ _; intro c a) | (refine (when_stkMem ?_ _ _).trans ?_; intro c)
    | (refine when_stkMem ?_ _ _; intro c) | rfl)
theorem Chip.takeData_stkMem (c : Chip) (k : Lnk) (x : Cell) : (Chip.takeData c k x).stkMem = c.stkMem := by
  simp only [Chip.takeData, Chip.deliverCell_stkMem, Chip.drainEarly_stkMem, Chip.modLink_stkMem, Chip.protoErr_stkMem,
      Chip.returnCredit_stkMem, Chip.startRecovery_stkMem, ite_stkMem, ite_self]
theorem Chip.takeCell_stkMem (c : Chip) (k : Lnk) (x : Cell) : (Chip.takeCell c k x).stkMem = c.stkMem := by
  simp only [Chip.takeCell, Chip.emit_stkMem, Chip.modLink_stkMem, Chip.protoErr_stkMem, Chip.takeData_stkMem, ite_stkMem,
      ite_self]
theorem Chip.count64_stkMem (c : Chip) (a n : Nat) : (Chip.count64 c a n).stkMem = c.stkMem := by
  simp only [Chip.count64, Chip.setReg_stkMem]
theorem Chip.badBlock_stkMem (c : Chip) (l : Nat) (m : Marker) : (Chip.badBlock c l m).stkMem = c.stkMem := by
  simp only [Chip.badBlock, Chip.count_stkMem, Chip.modLane_stkMem, Chip.modLink_stkMem, Chip.queueUrgent_stkMem,
      Chip.raiseOpen_stkMem]
theorem Chip.holdEnds_stkMem (c : Chip) (k : Lnk) : (Chip.holdEnds c k).stkMem = c.stkMem := by
  simp only [Chip.holdEnds, Chip.modLink_stkMem, Chip.setFld_stkMem, ite_stkMem, ite_self]
theorem Chip.codeword_stkMem (c : Chip) (l : Nat) (m : Marker) (bits : List Bool) :
    (Chip.codeword c l m bits).stkMem = c.stkMem := by
  unfold Chip.codeword
  repeat' (first
    | with_reducible rfl | simp only [Chip.badBlock_stkMem, Chip.count_stkMem, Chip.count64_stkMem, Chip.holdEnds_stkMem,
        Chip.modLane_stkMem, Chip.modLink_stkMem, Chip.takeCell_stkMem, ite_stkMem, ite_self] | split
    | (refine (foldl_stkMem ?_ _ _).trans ?_; intro c a))
theorem Chip.lockedBlock_stkMem (c : Chip) (l : Nat) (nrz present : Bool) (levels : List Nat) :
    (Chip.lockedBlock c l nrz present levels).stkMem = c.stkMem := by
  simp only [Chip.lockedBlock, Chip.codeword_stkMem, Chip.count_stkMem, Chip.loseLock_stkMem, Chip.modLane_stkMem,
      Chip.setFld_stkMem, ite_stkMem, ite_self]
theorem Chip.learnLanes_stkMem (c : Chip) (l lane : Nat) : (Chip.learnLanes c l lane).stkMem = c.stkMem := by
  unfold Chip.learnLanes
  repeat' (first
    | with_reducible rfl | simp only [Chip.setFld_stkMem, ite_stkMem] | split
    | (refine (foldl_stkMem ?_ _ _).trans ?_; intro c a) | rfl)
theorem Chip.verifyBlock_stkMem (c : Chip) (l : Nat) (nrz present : Bool) (levels : List Nat) :
    (Chip.verifyBlock c l nrz present levels).stkMem = c.stkMem := by
  unfold Chip.verifyBlock
  repeat' (first
    | with_reducible rfl | simp only [Chip.learnLanes_stkMem, Chip.modLane_stkMem, Chip.setFld_stkMem, ite_stkMem] | split)
theorem Chip.alignBlocks_stkMem (c : Chip) (l : Nat) (nrz : Bool) (x0 : Nat) (x1 : List Nat) :
    (Chip.alignBlocks c l nrz x0 x1).stkMem = c.stkMem := by
  induction x0 generalizing c l nrz x1 <;> unfold Chip.alignBlocks <;> repeat' (first
    | with_reducible rfl | with_reducible assumption | (simp only [Chip.lockedBlock_stkMem, Chip.modLane_stkMem,
        Chip.setFld_stkMem, Chip.verifyBlock_stkMem, ite_stkMem, apply_ite Prod.snd, ite_self, *]) | split
    | (refine (foldl_stkMem ?_ _ _).trans ?_; intro c a) | (refine foldl_stkMem ?_ _ _; intro c a)
    | (refine (when_stkMem ?_ _ _).trans ?_; intro c) | (refine when_stkMem ?_ _ _; intro c) | rfl)
theorem Chip.blockReceive_stkMem (c : Chip) (l skewNs : Nat) (levels : List Nat) :
    (Chip.blockReceive c l skewNs levels).stkMem = c.stkMem := by
  simp only [Chip.blockReceive, Chip.adaptBlock_stkMem, Chip.alignBlocks_stkMem, Chip.loopReceive_stkMem,
      Chip.modLane_stkMem, ite_stkMem, ite_self]
theorem Chip.blockTransmit_stkMem (c : Chip) (l : Nat) : (Chip.blockTransmit c l).stkMem = c.stkMem := by
  unfold Chip.blockTransmit
  repeat' (first
    | with_reducible rfl | simp only [Chip.linkSleep_stkMem, Chip.sendBlock_stkMem, Chip.sendPattern_stkMem, ite_stkMem,
        ite_self] | split)
theorem Chip.ackEntry_stkMem (c : Chip) (k : Lnk) (m : AckMsg) (e : ReplayEntry) : (Chip.ackEntry c k m e).stkMem = c.stkMem :=
    by
  unfold Chip.ackEntry
  repeat' (first
    | with_reducible rfl | simp only [Chip.count_stkMem, Chip.modLink_stkMem, Chip.raiseOpen_stkMem, ite_stkMem, ite_self]
    | split | (refine (foldl_stkMem ?_ _ _).trans ?_; intro c a))
theorem Chip.takeAck_stkMem (c : Chip) (k : Lnk) (m : AckMsg) : (Chip.takeAck c k m).stkMem = c.stkMem := by
  unfold Chip.takeAck
  repeat' (first
    | with_reducible rfl | simp only [Chip.ackEntry_stkMem, Chip.modLink_stkMem, Chip.startRecovery_stkMem, ite_stkMem,
        ite_self] | split | (refine (foldl_stkMem ?_ _ _).trans ?_; intro c a))

end Sys2Proof.Machine
end

