-- ==== Sys2Proof/Laws/FrameDisplay.lean ====
section
/-! SUPPORT. What leaves the bytes of the local Stacks as they are: surfaces and heads. -/

set_option linter.unusedSimpArgs false
set_option linter.unusedTactic false
set_option linter.unreachableTactic false

namespace Sys2Proof.Machine

/-! ## SurfOps -/

theorem Chip.rejectTile_stkMem (c : Chip) (reason flow surf op tx ty : Nat) :
    (Chip.rejectTile c reason flow surf op tx ty).stkMem = c.stkMem := by
  simp only [Chip.rejectTile, Chip.count_stkMem, Chip.raise_stkMem, Chip.setReg_stkMem, ite_stkMem, ite_self]
theorem Chip.rejectMsg_stkMem (c : Chip) (reason flow : Nat) (m : List MsgCell) :
    (Chip.rejectMsg c reason flow m).stkMem = c.stkMem := by
  simp only [Chip.rejectMsg, Chip.rejectTile_stkMem]
theorem Chip.flowGone_stkMem (c : Chip) (f : Nat) : (Chip.flowGone c f).stkMem = c.stkMem := by
  unfold Chip.flowGone
  repeat' (first
    | with_reducible rfl | simp only [Chip.modLink_stkMem, Chip.rejectMsg_stkMem, ite_stkMem] | split
    | (refine (foldl_stkMem ?_ _ _).trans ?_; intro c a))
theorem Chip.setRingTag_stkMem (c : Chip) (ring line tag : Nat) : (Chip.setRingTag c ring line tag).stkMem = c.stkMem :=
    by unfold Chip.setRingTag; rfl

/-! ## HeadOps -/

theorem Chip.setHead_stkMem (c : Chip) (h : Nat) (x : HeadSt) : (Chip.setHead c h x).stkMem = c.stkMem :=
    by unfold Chip.setHead; rfl
theorem Chip.modHead_stkMem (c : Chip) (h : Nat) (f : HeadSt → HeadSt) : (Chip.modHead c h f).stkMem = c.stkMem := by
  simp only [Chip.modHead, Chip.setHead_stkMem]
theorem Chip.setDp_stkMem (c : Chip) (o : Nat) (x : DpSt) : (Chip.setDp c o x).stkMem = c.stkMem := by unfold Chip.setDp; rfl
theorem Chip.modDp_stkMem (c : Chip) (o : Nat) (f : DpSt → DpSt) : (Chip.modDp c o f).stkMem = c.stkMem := by
  simp only [Chip.modDp, Chip.setDp_stkMem]
theorem Chip.setStream_stkMem (c : Chip) (k : Nat) (x : Option Raster × Nat) : (Chip.setStream c k x).stkMem = c.stkMem :=
    by unfold Chip.setStream; rfl
theorem Chip.applySlots_stkMem (c : Chip) (h : Nat) : (Chip.applySlots c h).stkMem = c.stkMem := by
  simp only [Chip.applySlots, Chip.modHead_stkMem]
theorem Chip.startStream_stkMem (c : Chip) (h : Nat) : (Chip.startStream c h).stkMem = c.stkMem := by
  simp only [Chip.startStream, Chip.emit_stkMem, Chip.modHead_stkMem, Chip.raise_stkMem, Chip.setFld_stkMem, ite_stkMem,
      ite_self]
theorem Chip.restreams_stkMem (c : Chip) (o : Nat) : (Chip.restreams c o).stkMem = c.stkMem := by
  unfold Chip.restreams
  repeat' (first
    | with_reducible rfl | simp only [Chip.applySlots_stkMem, Chip.startStream_stkMem] | split
    | (refine (foldl_stkMem ?_ _ _).trans ?_; intro c a) | rfl)
theorem Chip.takeMarg_stkMem (c : Chip) (h : Nat) : (Chip.takeMarg c h).stkMem = c.stkMem := by
  simp only [Chip.takeMarg, Chip.modHead_stkMem, Chip.setFld_stkMem]
theorem Chip.takePlane_stkMem (c : Chip) (h : Nat) : (Chip.takePlane c h).stkMem = c.stkMem := by
  simp only [Chip.takePlane, Chip.modHead_stkMem, Chip.setFld_stkMem]
theorem Chip.headRead_stkMem (c : Chip) (h a n : Nat) : (Chip.headRead c h a n).stkMem = c.stkMem := by
  unfold Chip.headRead
  repeat' (first
    | with_reducible rfl | simp only [Chip.count_stkMem, Chip.raise_stkMem] | split
    | (refine (foldl_stkMem ?_ _ _).trans ?_; intro c a) | rfl)
theorem Chip.readPalette_stkMem (c : Chip) (h : Nat) : (Chip.readPalette c h).stkMem = c.stkMem := by
  simp only [Chip.readPalette, Chip.headRead_stkMem, Chip.modHead_stkMem, ite_stkMem, ite_self]
theorem Chip.retakePlanes_stkMem (c : Chip) (h : Nat) : (Chip.retakePlanes c h).stkMem = c.stkMem := by
  simp only [Chip.retakePlanes, Chip.takeMarg_stkMem, Chip.takePlane_stkMem, ite_stkMem, ite_self]
theorem Chip.startHead_stkMem (c : Chip) (h : Nat) : (Chip.startHead c h).stkMem = c.stkMem := by
  simp only [Chip.startHead, Chip.modHead_stkMem, Chip.raiseVisl_stkMem, Chip.readPalette_stkMem, Chip.retakePlanes_stkMem,
      Chip.setFld_stkMem, Chip.setReg_stkMem, Chip.startStream_stkMem]
theorem Chip.stopHead_stkMem (c : Chip) (h : Nat) : (Chip.stopHead c h).stkMem = c.stkMem := by
  simp only [Chip.stopHead, Chip.emit_stkMem, Chip.modHead_stkMem, Chip.setFld_stkMem, ite_stkMem, ite_self]
theorem Chip.haltHead_stkMem (c : Chip) (h : Nat) : (Chip.haltHead c h).stkMem = c.stkMem := by
  simp only [Chip.haltHead, Chip.modHead_stkMem, ite_stkMem, ite_self]
theorem Chip.dpPower_stkMem (c : Chip) (o : Nat) (on : Bool) : (Chip.dpPower c o on).stkMem = c.stkMem := by
  simp only [Chip.dpPower, Chip.emit_stkMem, Chip.setFld_stkMem, ite_stkMem, ite_self]

/-! ## Surfaces -/

theorem Chip.countSurfIgn_stkMem (c : Chip) : (Chip.countSurfIgn c).stkMem = c.stkMem := by
  simp only [Chip.countSurfIgn, Chip.count_stkMem]
theorem Chip.loseSurface_stkMem (c : Chip) (n : Nat) : (Chip.loseSurface c n).stkMem = c.stkMem := by
  unfold Chip.loseSurface
  repeat' (first
    | with_reducible rfl | simp only [Chip.modHead_stkMem, ite_stkMem, ite_self] | split
    | (refine (foldl_stkMem ?_ _ _).trans ?_; intro c a) | rfl)
theorem Chip.writeSdCtrl_stkMem (c : Chip) (n : Nat) (v : Word) : (Chip.writeSdCtrl c n v).stkMem = c.stkMem := by
  simp only [Chip.writeSdCtrl, Chip.countSurfIgn_stkMem, Chip.loseSurface_stkMem, Chip.setReg_stkMem,
      Chip.writeMasked_stkMem, ite_stkMem, ite_self]
theorem Chip.writeSdWord_stkMem (c : Chip) (n a : Nat) (v : Word) : (Chip.writeSdWord c n a v).stkMem = c.stkMem := by
  simp only [Chip.writeSdWord, Chip.countSurfIgn_stkMem, Chip.setReg_stkMem, Chip.writeMasked_stkMem, ite_stkMem, ite_self]
theorem Chip.acceptTile_stkMem (c : Chip) (f : Nat) (m : List MsgCell) : (Chip.acceptTile c f m).stkMem = c.stkMem := by
  unfold Chip.acceptTile
  repeat' (first
    | with_reducible rfl | simp only [Chip.rejectMsg_stkMem] | split)
theorem Chip.tileArrives_stkMem (c : Chip) (f : Nat) (m : List MsgCell) : (Chip.tileArrives c f m).stkMem = c.stkMem := by
  simp only [Chip.tileArrives, Chip.acceptTile_stkMem, ite_stkMem, ite_self]
theorem Chip.bufferFree_stkMem (c : Chip) : (Chip.bufferFree c).stkMem = c.stkMem := by
  unfold Chip.bufferFree
  repeat' (first
    | with_reducible rfl | simp only [Chip.acceptTile_stkMem, Chip.drainIngress_stkMem, ite_stkMem, ite_self] | split)
theorem Chip.countLate_stkMem (c : Chip) (f s h : Nat) : (Chip.countLate c f s h).stkMem = c.stkMem := by
  simp only [Chip.countLate, Chip.count_stkMem, Chip.modHead_stkMem, Chip.raise_stkMem]
theorem Chip.setJob_stkMem (c : Chip) (j : SurfJob) (new : Option SurfJob) : (Chip.setJob c j new).stkMem = c.stkMem := by
  simp only [Chip.setJob]
theorem Chip.takeUnit_stkMem (c : Chip) (w : SurfWrite) : (Chip.takeUnit c w).stkMem = c.stkMem := by
  simp only [Chip.takeUnit, ite_stkMem, ite_self]
theorem Chip.beginTile_stkMem (c : Chip) (j : SurfJob) (d : SurfDesc) : (Chip.beginTile c j d).stkMem = c.stkMem := by
  unfold Chip.beginTile
  repeat' (first
    | with_reducible rfl | simp only [Chip.countLate_stkMem, Chip.setJob_stkMem, Chip.takeUnit_stkMem, ite_stkMem, ite_self]
    | split)
theorem Chip.startTile_stkMem (c : Chip) (f : Nat) : (Chip.startTile c f).stkMem = c.stkMem := by
  unfold Chip.startTile
  repeat' (first
    | with_reducible rfl | simp only [Chip.beginTile_stkMem, Chip.rejectMsg_stkMem, Chip.setJob_stkMem, ite_stkMem] | split)
theorem Chip.freeUnit_stkMem (c : Chip) (u : Nat) : (Chip.freeUnit c u).stkMem = c.stkMem := by
  simp only [Chip.freeUnit, ite_stkMem, ite_self]
theorem Chip.endJob_stkMem (c : Chip) (w : SurfWrite) : (Chip.endJob c w).stkMem = c.stkMem := by
  simp only [Chip.endJob, ite_stkMem, ite_self]
theorem Chip.unsupported_stkMem (c : Chip) (k : Nat) : (Chip.unsupported c k).stkMem = c.stkMem := by
  simp only [Chip.unsupported, Chip.raise_stkMem, Chip.setFld_stkMem, ite_stkMem, ite_self]
theorem Chip.endStream_stkMem (c : Chip) (k : Nat) : (Chip.endStream c k).stkMem = c.stkMem := by
  simp only [Chip.endStream, Chip.setFld_stkMem]
theorem Chip.loseStream_stkMem (c : Chip) (k : Nat) : (Chip.loseStream c k).stkMem = c.stkMem := by
  simp only [Chip.loseStream, Chip.endStream_stkMem, Chip.raise_stkMem, ite_stkMem, ite_self]
theorem Chip.writeRxCtrl_stkMem (c : Chip) (k : Nat) (v : Word) : (Chip.writeRxCtrl c k v).stkMem = c.stkMem := by
  simp only [Chip.writeRxCtrl, Chip.endStream_stkMem, Chip.writeMasked_stkMem, ite_stkMem, ite_self]
theorem Chip.writeSurfCtrl_stkMem (c : Chip) (v : Word) : (Chip.writeSurfCtrl c v).stkMem = c.stkMem := by
  unfold Chip.writeSurfCtrl
  repeat' (first
    | with_reducible rfl | simp only [Chip.clearRegs_stkMem, Chip.setFld_stkMem, Chip.writeMasked_stkMem, ite_stkMem]
    | split | (refine (foldl_stkMem ?_ _ _).trans ?_; intro c a))

/-! ## Heads -/

theorem Chip.readTile_stkMem (c : Chip) (h : Nat) (d : SurfDesc) (tx ty cols rows : Nat) :
    (Chip.readTile c h d tx ty cols rows).2.stkMem = c.stkMem := by
  unfold Chip.readTile
  repeat' (first
    | with_reducible rfl | simp only [Chip.headRead_stkMem] | split | (refine (foldl_stkMem ?_ _ _).trans ?_; intro c a))
theorem Chip.readTile_stkMem2 (c : Chip) (h : Nat) (d : SurfDesc) (tx ty cols rows : Nat) {y0 e0} (hEq_ :
    (Chip.readTile c h d tx ty cols rows) = (y0, e0)) : e0.stkMem = c.stkMem := by
  have := Chip.readTile_stkMem c h d tx ty cols rows; rw [hEq_] at this; exact this
theorem Chip.readTiles_stkMem (c : Chip) (h : Nat) (d : SurfDesc) (b w : Nat) (x0 x1 : Nat) (x2 : List (List Nat)) :
    (Chip.readTiles c h d b w x0 x1 x2).2.stkMem = c.stkMem := by
  induction x0 generalizing c x1 x2 with
  | zero => rfl
  | succ n ih => simp only [Chip.readTiles]; rw [ih, Chip.readTile_stkMem]
theorem Chip.readTiles_stkMem2 (c : Chip) (h : Nat) (d : SurfDesc) (b w : Nat) (x0 : Nat) (x1 : Nat)
    (x2 : List (List Nat)) {y0 e0} (hEq_ : (Chip.readTiles c h d b w x0 x1 x2) = (y0, e0)) : e0.stkMem = c.stkMem := by
  have := Chip.readTiles_stkMem c h d b w x0 x1 x2; rw [hEq_] at this; exact this
theorem Chip.readBand_stkMem (c : Chip) (h s b w v : Nat) : (Chip.readBand c h s b w v).2.stkMem = c.stkMem := by
  unfold Chip.readBand; dsimp only; split
  · simp only [Chip.readTiles_stkMem]
  · exact foldl_stkMem (fun c a => Chip.headRead_stkMem _ _ _ _) _ _
theorem Chip.readBand_stkMem2 (c : Chip) (h s b w v : Nat) {y0 e0} (hEq_ : (Chip.readBand c h s b w v) = (y0,
    e0)) : e0.stkMem = c.stkMem := by
  have := Chip.readBand_stkMem c h s b w v; rw [hEq_] at this; exact this
theorem Chip.startFetch_stkMem (c : Chip) (h : Nat) : (Chip.startFetch c h).stkMem = c.stkMem := by
  unfold Chip.startFetch
  repeat' (first
    | with_reducible rfl | simp only [Chip.modHead_stkMem, ite_stkMem, ite_self] | split)
theorem Chip.endFetch_stkMem (c : Chip) (h : Nat) : (Chip.endFetch c h).stkMem = c.stkMem := by
  unfold Chip.endFetch
  repeat' (first
    | with_reducible rfl | simp only [Chip.modHead_stkMem, Chip.readBand_stkMem] | split
    | exact Chip.readBand_stkMem2 (hEq_ := by assumption) | rw [Chip.readBand_stkMem2 (hEq_ := by assumption)])
theorem Chip.bandLine_stkMem (c : Chip) (h s line : Nat) (bg : List Nat) : (Chip.bandLine c h s line bg).2.stkMem = c.stkMem :=
    by
  unfold Chip.bandLine
  repeat' (first
    | with_reducible rfl | simp only [Chip.count_stkMem, Chip.raise_stkMem] | split)
theorem Chip.bandLine_stkMem2 (c : Chip) (h s line : Nat) (bg : List Nat) {y0 e0} (hEq_ :
    (Chip.bandLine c h s line bg) = (y0, e0)) : e0.stkMem = c.stkMem := by
  have := Chip.bandLine_stkMem c h s line bg; rw [hEq_] at this; exact this
theorem Chip.ringLine_stkMem (c : Chip) (h ring : Nat) (d : SurfDesc) (line w : Nat) :
    (Chip.ringLine c h ring d line w).2.stkMem = c.stkMem := by
  simp only [Chip.ringLine, Chip.count_stkMem, Chip.headRead_stkMem, Chip.raise_stkMem, ite_stkMem, ite_self]
theorem Chip.ringLine_stkMem2 (c : Chip) (h ring : Nat) (d : SurfDesc) (line w : Nat) {y0 e0} (hEq_ :
    (Chip.ringLine c h ring d line w) = (y0, e0)) : e0.stkMem = c.stkMem := by
  have := Chip.ringLine_stkMem c h ring d line w; rw [hEq_] at this; exact this
theorem Chip.mainLine_stkMem (c : Chip) (h line : Nat) : (Chip.mainLine c h line).2.stkMem = c.stkMem := by
  unfold Chip.mainLine
  repeat' (first
    | with_reducible rfl | simp only [Chip.bandLine_stkMem, Chip.ringLine_stkMem] | split
    | exact Chip.bandLine_stkMem2 (hEq_ := by assumption) | rw [Chip.bandLine_stkMem2 (hEq_ := by assumption)]
    | exact Chip.ringLine_stkMem2 (hEq_ := by assumption) | rw [Chip.ringLine_stkMem2 (hEq_ := by assumption)])
theorem Chip.mainLine_stkMem2 (c : Chip) (h line : Nat) {y0 e0} (hEq_ : (Chip.mainLine c h line) = (y0,
    e0)) : e0.stkMem = c.stkMem := by
  have := Chip.mainLine_stkMem c h line; rw [hEq_] at this; exact this
theorem Chip.overlay_stkMem (c : Chip) (h line : Nat) (px : List Nat) : (Chip.overlay c h line px).2.stkMem = c.stkMem := by
  unfold Chip.overlay
  repeat' (first
    | with_reducible rfl | simp only [Chip.headRead_stkMem] | split)
theorem Chip.overlay_stkMem2 (c : Chip) (h line : Nat) (px : List Nat) {y0 e0} (hEq_ : (Chip.overlay c h line px) = (y0,
    e0)) : e0.stkMem = c.stkMem := by
  have := Chip.overlay_stkMem c h line px; rw [hEq_] at this; exact this
theorem Chip.showLine_stkMem (c : Chip) (h line : Nat) : (Chip.showLine c h line).stkMem = c.stkMem := by
  simp only [Chip.showLine, Chip.emit_stkMem, Chip.mainLine_stkMem, Chip.overlay_stkMem, ite_stkMem, ite_self]
theorem Chip.clearArm_stkMem (c : Chip) (h : Nat) : (Chip.clearArm c h).stkMem = c.stkMem := by
  simp only [Chip.clearArm, Chip.modHead_stkMem, Chip.setFld_stkMem]
theorem Chip.clearMargArm_stkMem (c : Chip) (h : Nat) : (Chip.clearMargArm c h).stkMem = c.stkMem := by
  simp only [Chip.clearMargArm, Chip.modHead_stkMem, Chip.setFld_stkMem]
theorem Chip.applyCommit_stkMem (c : Chip) (h : Nat) : (Chip.applyCommit c h).stkMem = c.stkMem := by
  unfold Chip.applyCommit
  repeat' (first
    | with_reducible rfl | simp only [Chip.clearArm_stkMem, Chip.modHead_stkMem, Chip.raise_stkMem, Chip.setFld_stkMem,
        Chip.takePlane_stkMem, ite_stkMem] | split)
theorem Chip.applyMargCommit_stkMem (c : Chip) (h : Nat) : (Chip.applyMargCommit c h).stkMem = c.stkMem := by
  simp only [Chip.applyMargCommit, Chip.clearMargArm_stkMem, Chip.modHead_stkMem, Chip.raise_stkMem, Chip.setFld_stkMem,
      Chip.takeMarg_stkMem, ite_stkMem, ite_self]
theorem Chip.armHead_stkMem (c : Chip) (h : Nat) : (Chip.armHead c h).stkMem = c.stkMem := by
  simp only [Chip.armHead, Chip.count_stkMem, Chip.modHead_stkMem, Chip.raise_stkMem, Chip.setFld_stkMem, ite_stkMem,
      ite_self]
theorem Chip.armMarg_stkMem (c : Chip) (h : Nat) : (Chip.armMarg c h).stkMem = c.stkMem := by
  simp only [Chip.armMarg, Chip.modHead_stkMem, Chip.raise_stkMem, Chip.setFld_stkMem, ite_stkMem, ite_self]
theorem Chip.writeHeadCommit_stkMem (c : Chip) (h : Nat) (v : Word) : (Chip.writeHeadCommit c h v).stkMem = c.stkMem := by
  simp only [Chip.writeHeadCommit, Chip.armHead_stkMem, Chip.clearArm_stkMem, Chip.setFld_stkMem, ite_stkMem, ite_self]
theorem Chip.writeMargCommit_stkMem (c : Chip) (h : Nat) (v : Word) : (Chip.writeMargCommit c h v).stkMem = c.stkMem := by
  simp only [Chip.writeMargCommit, Chip.armMarg_stkMem, Chip.clearMargArm_stkMem, ite_stkMem, ite_self]
theorem Chip.writeHeadPlane_stkMem (c : Chip) (h : Nat) (v : Word) : (Chip.writeHeadPlane c h v).stkMem = c.stkMem := by
  simp only [Chip.writeHeadPlane, Chip.writeMasked_stkMem, ite_stkMem, ite_self]
theorem Chip.writeMargWord_stkMem (c : Chip) (h a : Nat) (v : Word) : (Chip.writeMargWord c h a v).stkMem = c.stkMem := by
  simp only [Chip.writeMargWord, Chip.writeMasked_stkMem, ite_stkMem, ite_self]
theorem Chip.writeHeadTiming_stkMem (c : Chip) (h a : Nat) (v : Word) : (Chip.writeHeadTiming c h a v).stkMem = c.stkMem := by
  simp only [Chip.writeHeadTiming, Chip.writeMasked_stkMem, ite_stkMem, ite_self]
theorem Chip.follow_stkMem (c : Chip) (h line : Nat) : (Chip.follow c h line).stkMem = c.stkMem := by
  simp only [Chip.follow, Chip.modHead_stkMem, Chip.raise_stkMem, Chip.setFld_stkMem, ite_stkMem, ite_self]
theorem Chip.refollow_stkMem (c : Chip) (h : Nat) : (Chip.refollow c h).stkMem = c.stkMem := by
  simp only [Chip.refollow, Chip.modHead_stkMem, Chip.setFld_stkMem, ite_stkMem, ite_self]
theorem Chip.beginBlank_stkMem (c : Chip) (h : Nat) : (Chip.beginBlank c h).stkMem = c.stkMem := by
  simp only [Chip.beginBlank, Chip.applyCommit_stkMem, Chip.applyMargCommit_stkMem, Chip.modHead_stkMem,
      Chip.readPalette_stkMem]
theorem Chip.beginFrame_stkMem (c : Chip) (h : Nat) : (Chip.beginFrame c h).stkMem = c.stkMem := by
  simp only [Chip.beginFrame, Chip.modHead_stkMem, Chip.refollow_stkMem, Chip.setFld_stkMem]
theorem Chip.nextLine_stkMem (c : Chip) (h : Nat) : (Chip.nextLine c h).stkMem = c.stkMem := by
  simp only [Chip.nextLine, Chip.beginBlank_stkMem, Chip.beginFrame_stkMem, Chip.follow_stkMem, Chip.setFld_stkMem,
      Chip.showLine_stkMem, ite_stkMem, ite_self]
theorem Chip.lineStart_stkMem (c : Chip) (h : Nat) : (Chip.lineStart c h).stkMem = c.stkMem := by
  simp only [Chip.lineStart, Chip.modHead_stkMem, Chip.nextLine_stkMem, Chip.setFld_stkMem, Chip.stopHead_stkMem, ite_stkMem,
      ite_self]
theorem Chip.teEdge_stkMem (c : Chip) (h : Nat) (rising : Bool) : (Chip.teEdge c h rising).stkMem = c.stkMem := by
  simp only [Chip.teEdge, Chip.modHead_stkMem, ite_stkMem, ite_self]
theorem Chip.teTimeout_stkMem (c : Chip) (h : Nat) : (Chip.teTimeout c h).stkMem = c.stkMem := by
  simp only [Chip.teTimeout, Chip.modHead_stkMem, Chip.raise_stkMem, ite_stkMem, ite_self]

end Sys2Proof.Machine
end

