-- ==== Sys2Proof/Laws/FramePower.lean ====
section
/-! SUPPORT. What leaves the bytes of the local Stacks as they are: supplies, storage, the budget, the hub, the outputs, the modes and the PD ports. -/

set_option linter.unusedSimpArgs false
set_option linter.unusedTactic false
set_option linter.unreachableTactic false

namespace Sys2Proof.Machine

/-! ## Supply -/

theorem Chip.askRamp_stkMem (c : Chip) (x : Supply) : (Chip.askRamp c x).stkMem = c.stkMem := by
  simp only [Chip.askRamp, ite_stkMem, ite_self]
theorem Chip.nextRamp_stkMem (c : Chip) : (Chip.nextRamp c).stkMem = c.stkMem := by unfold Chip.nextRamp; rfl
theorem Chip.dropRamp_stkMem (c : Chip) (x : Supply) : (Chip.dropRamp c x).stkMem = c.stkMem := by
  simp only [Chip.dropRamp, Chip.nextRamp_stkMem, ite_stkMem, ite_self]
theorem Chip.latchWake_stkMem (c : Chip) (b : Nat) : (Chip.latchWake c b).stkMem = c.stkMem := by
  simp only [Chip.latchWake, Chip.setFld_stkMem, ite_stkMem, ite_self]
theorem Chip.setPort_stkMem (c : Chip) (p : Nat) (x : PortSt) : (Chip.setPort c p x).stkMem = c.stkMem :=
    by unfold Chip.setPort; rfl
theorem Chip.modPort_stkMem (c : Chip) (p : Nat) (f : PortSt → PortSt) : (Chip.modPort c p f).stkMem = c.stkMem := by
  simp only [Chip.modPort, Chip.setPort_stkMem]
theorem Chip.closePort_stkMem (c : Chip) (p : Nat) : (Chip.closePort c p).stkMem = c.stkMem := by
  simp only [Chip.closePort, Chip.emit_stkMem, Chip.setFld_stkMem]
theorem Chip.dropTxns_stkMem (c : Chip) (p : Nat) : (Chip.dropTxns c p).stkMem = c.stkMem := by unfold Chip.dropTxns; rfl
theorem Chip.openPort_stkMem (c : Chip) (p : Nat) : (Chip.openPort c p).stkMem = c.stkMem := by
  simp only [Chip.openPort, Chip.dropRamp_stkMem, Chip.dropTxns_stkMem, Chip.emit_stkMem, Chip.modPort_stkMem,
      Chip.setFld_stkMem, ite_stkMem, ite_self]
theorem Chip.noteFall_stkMem (c : Chip) (p : Nat) (fell : Bool) : (Chip.noteFall c p fell).stkMem = c.stkMem := by
  simp only [Chip.noteFall, Chip.emit_stkMem, ite_stkMem, ite_self]
theorem Chip.syncPort_stkMem (c : Chip) (p : Nat) : (Chip.syncPort c p).stkMem = c.stkMem := by
  simp only [Chip.syncPort, Chip.modPort_stkMem, Chip.noteFall_stkMem, Chip.openPort_stkMem, Chip.setFld_stkMem, ite_stkMem,
      ite_self]
theorem Chip.syncDsPorts_stkMem (c : Chip) : (Chip.syncDsPorts c).stkMem = c.stkMem := by
  unfold Chip.syncDsPorts
  repeat' (first
    | with_reducible rfl | simp only [Chip.syncPort_stkMem] | split | (refine (foldl_stkMem ?_ _ _).trans ?_; intro c a)
    | rfl)
theorem Chip.discardSvcf_stkMem (c : Chip) : (Chip.discardSvcf c).stkMem = c.stkMem := by
  unfold Chip.discardSvcf
  repeat' (first
    | with_reducible rfl | simp only [Chip.setFld_stkMem, Chip.unasked_stkMem] | split)
theorem Chip.resetFunction_stkMem (c : Chip) : (Chip.resetFunction c).stkMem = c.stkMem := by
  simp only [Chip.resetFunction, Chip.discardSvcf_stkMem, Chip.forgetReady_stkMem, Chip.setFld_stkMem]
theorem Chip.clearHub_stkMem (c : Chip) : (Chip.clearHub c).stkMem = c.stkMem := by unfold Chip.clearHub; rfl
theorem Chip.syncUpstream_stkMem (c : Chip) : (Chip.syncUpstream c).stkMem = c.stkMem := by
  simp only [Chip.syncUpstream, Chip.clearHub_stkMem, Chip.emit_stkMem, Chip.forgetReady_stkMem, Chip.resetFunction_stkMem,
      Chip.setFld_stkMem, ite_stkMem, ite_self]

/-! ## Tlp -/

theorem Chip.setPep_stkMem (c : Chip) (p : Nat) (x : Pep) : (Chip.setPep c p x).stkMem = c.stkMem :=
    by unfold Chip.setPep; rfl
theorem Chip.modPep_stkMem (c : Chip) (p : Nat) (f : Pep → Pep) : (Chip.modPep c p f).stkMem = c.stkMem := by
  simp only [Chip.modPep, Chip.setPep_stkMem]
theorem Chip.sendTlp_stkMem (c : Chip) (f src : Nat) (t : List Byte) : (Chip.sendTlp c f src t).stkMem = c.stkMem := by
  unfold Chip.sendTlp
  repeat' (first
    | with_reducible rfl | simp only [Chip.queueMsg_stkMem, ite_stkMem] | split)
theorem Chip.unsupportedRequest_stkMem (c : Chip) (req : Nat × Nat) : (Chip.unsupportedRequest c req).stkMem = c.stkMem := by
  simp only [Chip.unsupportedRequest, Chip.fresh_stkMem, Chip.sendTlp_stkMem]
theorem Chip.clearStatus_stkMem (c : Chip) (fn mask : Nat) : (Chip.clearStatus c fn mask).stkMem = c.stkMem := by
  simp only [Chip.clearStatus, Chip.modPep_stkMem, ite_stkMem, ite_self]
theorem Chip.writeConfig_stkMem (c : Chip) (fn : Nat) (t : List Byte) : (Chip.writeConfig c fn t).stkMem = c.stkMem := by
  simp only [Chip.writeConfig, Chip.clearStatus_stkMem]
theorem Chip.toSwitch_stkMem (c : Chip) (t : List Byte) : (Chip.toSwitch c t).stkMem = c.stkMem := by
  unfold Chip.toSwitch
  repeat' (first
    | with_reducible rfl | simp only [Chip.emit_stkMem, Chip.sendTlp_stkMem, Chip.unsupportedRequest_stkMem,
        Chip.writeConfig_stkMem, ite_stkMem, ite_self] | split)
theorem Chip.reportError_stkMem (c : Chip) (fn : Nat) : (Chip.reportError c fn).stkMem = c.stkMem := by
  simp only [Chip.reportError, Chip.fresh_stkMem, Chip.sendTlp_stkMem, ite_stkMem, ite_self]
theorem Chip.reportSlot_stkMem (c : Chip) (fn : Nat) : (Chip.reportSlot c fn).stkMem = c.stkMem := by
  simp only [Chip.reportSlot, Chip.fresh_stkMem, Chip.sendTlp_stkMem, ite_stkMem, ite_self]

/-! ## StoreOps -/

theorem Chip.discardAhead_stkMem (c : Chip) (p : PepAhead → Bool) : (Chip.discardAhead c p).stkMem = c.stkMem := by
  simp only [Chip.discardAhead, Chip.count_stkMem, ite_stkMem, ite_self]
theorem Chip.assertPerst_stkMem (c : Chip) (p : Nat) : (Chip.assertPerst c p).stkMem = c.stkMem := by
  simp only [Chip.assertPerst, Chip.emit_stkMem, Chip.modPep_stkMem, Chip.setFld_stkMem, ite_stkMem, ite_self]
theorem Chip.pepOff_stkMem (c : Chip) (p : Nat) : (Chip.pepOff c p).stkMem = c.stkMem := by
  simp only [Chip.pepOff, Chip.assertPerst_stkMem, Chip.discardAhead_stkMem, Chip.dropRamp_stkMem, Chip.emit_stkMem,
      Chip.modPep_stkMem, Chip.setFld_stkMem, ite_stkMem, ite_self]
theorem Chip.pepFault_stkMem (c : Chip) (p : Nat) : (Chip.pepFault c p).stkMem = c.stkMem := by
  simp only [Chip.pepFault, Chip.modPep_stkMem, Chip.pepOff_stkMem, Chip.raise_stkMem, Chip.reportSlot_stkMem,
      Chip.setFld_stkMem]
theorem Chip.rampSocket_stkMem (c : Chip) (p : Nat) : (Chip.rampSocket c p).stkMem = c.stkMem := by
  simp only [Chip.rampSocket, Chip.askRamp_stkMem, Chip.emit_stkMem, Chip.modPep_stkMem]
theorem Chip.syncPep_stkMem (c : Chip) (p : Nat) : (Chip.syncPep c p).stkMem = c.stkMem := by
  simp only [Chip.syncPep, Chip.modPep_stkMem, Chip.pepOff_stkMem, ite_stkMem, ite_self]
theorem Chip.endTunnel_stkMem (c : Chip) : (Chip.endTunnel c).stkMem = c.stkMem := by
  unfold Chip.endTunnel
  repeat' (first
    | with_reducible rfl | simp only [Chip.assertPerst_stkMem, Chip.discardAhead_stkMem, Chip.modPep_stkMem,
        Chip.setFld_stkMem] | split | (refine (foldl_stkMem ?_ _ _).trans ?_; intro c a))
theorem Chip.ncmNote_stkMem (c : Chip) : (Chip.ncmNote c).stkMem = c.stkMem := by
  simp only [Chip.ncmNote, Chip.emit_stkMem, ite_stkMem, ite_self]
theorem Chip.ethDown_stkMem (c : Chip) : (Chip.ethDown c).stkMem = c.stkMem := by
  simp only [Chip.ethDown, Chip.ncmNote_stkMem, Chip.raise_stkMem, Chip.setFld_stkMem, ite_stkMem, ite_self]

/-! ## PdOps -/

theorem Chip.setPd_stkMem (c : Chip) (p : Nat) (x : PdPort) : (Chip.setPd c p x).stkMem = c.stkMem :=
    by unfold Chip.setPd; rfl
theorem Chip.modPd_stkMem (c : Chip) (p : Nat) (f : PdPort → PdPort) : (Chip.modPd c p f).stkMem = c.stkMem := by
  simp only [Chip.modPd, Chip.setPd_stkMem]
theorem Chip.setContract_stkMem (c : Chip) (p : Nat) (r : PdReq) : (Chip.setContract c p r).stkMem = c.stkMem := by
  simp only [Chip.setContract, Chip.latchWake_stkMem, Chip.raise_stkMem, Chip.setFld_stkMem, Chip.setReg_stkMem, ite_stkMem,
      ite_self]
theorem Chip.dropContract_stkMem (c : Chip) (p : Nat) : (Chip.dropContract c p).stkMem = c.stkMem := by
  simp only [Chip.dropContract, Chip.modPd_stkMem, Chip.setFld_stkMem, Chip.setReg_stkMem]
theorem Chip.syncFeed_stkMem (c : Chip) : (Chip.syncFeed c).stkMem = c.stkMem := by
  simp only [Chip.syncFeed, Chip.raise_stkMem, Chip.setFld_stkMem, ite_stkMem, ite_self]
theorem Chip.setTrip_stkMem (c : Chip) (p ma : Nat) : (Chip.setTrip c p ma).stkMem = c.stkMem := by
  simp only [Chip.setTrip, Chip.modPd_stkMem]
theorem Chip.sendPd_stkMem (c : Chip) (p : Nat) (m : PdMsg) : (Chip.sendPd c p m).stkMem = c.stkMem := by
  simp only [Chip.sendPd, Chip.emit_stkMem]
theorem Chip.sendCaps_stkMem (c : Chip) (p : Nat) : (Chip.sendCaps c p).stkMem = c.stkMem := by
  unfold Chip.sendCaps
  repeat' (first
    | with_reducible rfl | simp only [Chip.sendPd_stkMem] | split | rfl)
theorem Chip.askSwap_stkMem (c : Chip) (x : PdSwap) : (Chip.askSwap c x).stkMem = c.stkMem := by
  unfold Chip.askSwap
  repeat' (first
    | with_reducible rfl | simp only [Chip.modPd_stkMem, Chip.sendPd_stkMem, ite_stkMem, ite_self] | split)
theorem Chip.endSwap_stkMem (c : Chip) : (Chip.endSwap c).stkMem = c.stkMem := by
  unfold Chip.endSwap
  repeat' (first
    | with_reducible rfl | simp only [Chip.askSwap_stkMem, Chip.modPd_stkMem] | split)
theorem Chip.openSource_stkMem (c : Chip) (p : Nat) : (Chip.openSource c p).stkMem = c.stkMem := by
  simp only [Chip.openSource, Chip.emit_stkMem, Chip.modPd_stkMem, ite_stkMem, ite_self]
theorem Chip.closeSource_stkMem (c : Chip) (p : Nat) : (Chip.closeSource c p).stkMem = c.stkMem := by
  simp only [Chip.closeSource, Chip.emit_stkMem, Chip.modPd_stkMem, Chip.sendCaps_stkMem, Chip.setContract_stkMem,
      Chip.setTrip_stkMem, ite_stkMem, ite_self]
theorem Chip.noteFailed_stkMem (c : Chip) (b : Bool) : (Chip.noteFailed c b).stkMem = c.stkMem :=
    by unfold Chip.noteFailed; rfl
theorem Chip.thenDiscover_stkMem (c : Chip) (f : Chip → Chip) (hf : ∀ c, (f c).stkMem = c.stkMem) :
    (Chip.thenDiscover c f).stkMem = c.stkMem := by
  unfold Chip.thenDiscover; dsimp only; split <;> simp only [Chip.sendPd_stkMem, hf]
theorem Chip.setTurnMedia_stkMem (c : Chip) (p : Nat) (b : Bool) : (Chip.setTurnMedia c p b).stkMem = c.stkMem := by
  unfold Chip.setTurnMedia
  repeat' (first
    | with_reducible rfl | simp only [Chip.setFld_stkMem, ite_stkMem, ite_self] | split
    | (refine (foldl_stkMem ?_ _ _).trans ?_; intro c a))
theorem Chip.clearCable_stkMem (c : Chip) (p : Nat) : (Chip.clearCable c p).stkMem = c.stkMem := by
  unfold Chip.clearCable
  repeat' (first
    | with_reducible rfl | simp only [Chip.setFld_stkMem, Chip.setReg_stkMem, Chip.setTurnMedia_stkMem, ite_stkMem] | split
    | (refine (foldl_stkMem ?_ _ _).trans ?_; intro c a))

/-! ## Budget -/

theorem Chip.headPowerOff_stkMem (c : Chip) (h : Nat) : (Chip.headPowerOff c h).stkMem = c.stkMem := by
  simp only [Chip.headPowerOff, Chip.dpPower_stkMem, Chip.dropRamp_stkMem, ite_stkMem, ite_self]
theorem Chip.dropCascade_stkMem (c : Chip) : (Chip.dropCascade c).stkMem = c.stkMem := by
  simp only [Chip.dropCascade, Chip.dropContract_stkMem, Chip.linkDown_stkMem, Chip.openSource_stkMem]
theorem Chip.leaveSource_stkMem (c : Chip) : (Chip.leaveSource c).stkMem = c.stkMem := by
  simp only [Chip.leaveSource, Chip.askSwap_stkMem, ite_stkMem, ite_self]
theorem Chip.fallItem_stkMem (c : Chip) (i : Nat) : (Chip.fallItem c i).stkMem = c.stkMem := by
  simp only [Chip.fallItem, Chip.dropCascade_stkMem, Chip.ethDown_stkMem, Chip.haltHead_stkMem, Chip.headPowerOff_stkMem,
      Chip.leaveSource_stkMem, Chip.pepFault_stkMem, Chip.syncPort_stkMem, ite_stkMem, ite_self]
theorem Chip.headPowerOn_stkMem (c : Chip) (h : Nat) : (Chip.headPowerOn c h).stkMem = c.stkMem := by
  simp only [Chip.headPowerOn, Chip.askRamp_stkMem, ite_stkMem, ite_self]
theorem Chip.riseHead_stkMem (c : Chip) (h : Nat) : (Chip.riseHead c h).stkMem = c.stkMem := by
  simp only [Chip.riseHead, Chip.headPowerOn_stkMem, Chip.startHead_stkMem, ite_stkMem, ite_self]
theorem Chip.riseItem_stkMem (c : Chip) (i : Nat) : (Chip.riseItem c i).stkMem = c.stkMem := by
  simp only [Chip.riseItem, Chip.closeSource_stkMem, Chip.emit_stkMem, Chip.riseHead_stkMem, Chip.syncPep_stkMem,
      Chip.syncPort_stkMem, ite_stkMem, ite_self]
theorem Chip.setLevel_stkMem (c : Chip) (p w : Nat) : (Chip.setLevel c p w).stkMem = c.stkMem := by
  simp only [Chip.setLevel, Chip.modPd_stkMem, Chip.sendCaps_stkMem, Chip.setFld_stkMem, Chip.setTrip_stkMem, ite_stkMem,
      ite_self]
theorem Chip.setCurrent_stkMem (c : Chip) (p n : Nat) : (Chip.setCurrent c p n).stkMem = c.stkMem := by
  simp only [Chip.setCurrent, Chip.setFld_stkMem, Chip.syncPort_stkMem]
theorem Chip.riseLevel_stkMem (c : Chip) (w : Walk) (i : Nat) : (Chip.riseLevel c w i).stkMem = c.stkMem := by
  simp only [Chip.riseLevel, Chip.setLevel_stkMem, ite_stkMem, ite_self]
theorem Chip.syncHeld_stkMem (c : Chip) : (Chip.syncHeld c).stkMem = c.stkMem := by
  simp only [Chip.syncHeld, Chip.setFld_stkMem]
theorem Chip.noteWalk_stkMem (c : Chip) (pin : Nat) (w : Walk) : (Chip.noteWalk c pin w).stkMem = c.stkMem := by
  simp only [Chip.noteWalk, Chip.count_stkMem, Chip.raise_stkMem, Chip.setFld_stkMem, ite_stkMem, ite_self]
theorem Chip.walk_stkMem (c : Chip) : (Chip.walk c).stkMem = c.stkMem := by
  unfold Chip.walk
  repeat' (first
    | with_reducible rfl | simp only [Chip.fallItem_stkMem, Chip.noteWalk_stkMem, Chip.pepFault_stkMem, Chip.riseItem_stkMem,
        Chip.riseLevel_stkMem, Chip.setCurrent_stkMem, Chip.setLevel_stkMem, Chip.syncHeld_stkMem, ite_stkMem, ite_self]
    | split | (refine (foldl_stkMem ?_ _ _).trans ?_; intro c a))
theorem Chip.offerSource_stkMem (c : Chip) (was : Bool) : (Chip.offerSource c was).stkMem = c.stkMem := by
  simp only [Chip.offerSource, Chip.askSwap_stkMem, ite_stkMem, ite_self]
theorem Chip.refeed_stkMem (c : Chip) : (Chip.refeed c).stkMem = c.stkMem := by
  simp only [Chip.refeed, Chip.offerSource_stkMem, Chip.syncFeed_stkMem, Chip.walk_stkMem, ite_stkMem, ite_self]
theorem Chip.shedLowest_stkMem (c : Chip) : (Chip.shedLowest c).stkMem = c.stkMem := by
  unfold Chip.shedLowest
  repeat' (first
    | with_reducible rfl | simp only [Chip.fallItem_stkMem, Chip.setCurrent_stkMem, Chip.setLevel_stkMem,
        Chip.syncHeld_stkMem, ite_stkMem, ite_self] | split)
theorem Chip.overload_stkMem (c : Chip) : (Chip.overload c).stkMem = c.stkMem := by
  simp only [Chip.overload, Chip.count_stkMem, Chip.raise_stkMem, Chip.shedLowest_stkMem]
theorem Chip.writePpCtrl_stkMem (c : Chip) (v : Word) : (Chip.writePpCtrl c v).stkMem = c.stkMem := by
  simp only [Chip.writePpCtrl, Chip.clearRegs_stkMem, Chip.writeMasked_stkMem, ite_stkMem, ite_self]

/-! ## Hub -/

theorem Chip.tunnel_stkMem (c : Chip) (f : Nat) (m : List MsgCell) (iso : Bool) (g : Chip → Chip) (hf : ∀ c,
    (g c).stkMem = c.stkMem) : (Chip.tunnel c f m iso g).stkMem = c.stkMem := by
  unfold Chip.tunnel; split <;> [rfl; (split <;> simp only [hf, Chip.raise_stkMem, Chip.count_stkMem])]
theorem Chip.tunnelUp_stkMem (c : Chip) (iso : Bool) (kind sub : Nat) (hdr data : List Byte) :
    (Chip.tunnelUp c iso kind sub hdr data).stkMem = c.stkMem := by
  simp only [Chip.tunnelUp, Chip.queueMsg_stkMem, ite_stkMem, ite_self]
theorem Chip.ssUp_stkMem (c : Chip) (x : SsPacket) : (Chip.ssUp c x).stkMem = c.stkMem := by
  unfold Chip.ssUp
  repeat' (first
    | with_reducible rfl | simp only [Chip.tunnelUp_stkMem] | split)
theorem Chip.ssPacket_stkMem (c : Chip) (m : List MsgCell) (port : Nat) (answers : List SsPacket) :
    (Chip.ssPacket c m port answers).stkMem = c.stkMem := by
  unfold Chip.ssPacket
  repeat' (first
    | with_reducible rfl | simp only [Chip.emit_stkMem, Chip.ssUp_stkMem] | split
    | (refine (foldl_stkMem ?_ _ _).trans ?_; intro c a) | rfl)
theorem Chip.runU2_stkMem (c : Chip) (port : Nat) (bytes : List Byte) (pid : Nat) (reply : List Byte) (iso : Bool) :
    (Chip.runU2 c port bytes pid reply iso).stkMem = c.stkMem := by
  simp only [Chip.runU2, Chip.emit_stkMem, Chip.tunnelUp_stkMem, ite_stkMem, ite_self]
theorem Chip.u2Txn_stkMem (c : Chip) (m : List MsgCell) (port : Nat) (pid : Nat) (reply : List Byte) (iso : Bool) :
    (Chip.u2Txn c m port pid reply iso).stkMem = c.stkMem := by
  simp only [Chip.u2Txn, Chip.count_stkMem, Chip.runU2_stkMem, Chip.tunnelUp_stkMem, ite_stkMem, ite_self]
theorem Chip.startOfFrame_stkMem (c : Chip) : (Chip.startOfFrame c).stkMem = c.stkMem := by
  unfold Chip.startOfFrame
  repeat' (first
    | with_reducible rfl | simp only [Chip.emit_stkMem, Chip.runU2_stkMem, ite_stkMem] | split
    | (refine (foldl_stkMem ?_ _ _).trans ?_; intro c a))
theorem Chip.beginResume_stkMem (c : Chip) (host : Bool) (port : Option Nat) :
    (Chip.beginResume c host port).stkMem = c.stkMem := by unfold Chip.beginResume; rfl
theorem Chip.wakeUp_stkMem (c : Chip) : (Chip.wakeUp c).stkMem = c.stkMem := by
  simp only [Chip.wakeUp, Chip.emit_stkMem, Chip.latchWake_stkMem, Chip.tunnelUp_stkMem, ite_stkMem, ite_self]
theorem Chip.markPort_stkMem (c : Chip) (f : Nat → Fld) (p : Nat) : (Chip.markPort c f p).stkMem = c.stkMem := by
  simp only [Chip.markPort, Chip.setFld_stkMem, ite_stkMem, ite_self]
theorem Chip.signalResume_stkMem (c : Chip) (ps : List Nat) : (Chip.signalResume c ps).stkMem = c.stkMem := by
  unfold Chip.signalResume
  repeat' (first
    | with_reducible rfl | simp only [Chip.emit_stkMem, Chip.setFld_stkMem] | split
    | (refine (foldl_stkMem ?_ _ _).trans ?_; intro c a) | rfl)
theorem Chip.hostResume_stkMem (c : Chip) : (Chip.hostResume c).stkMem = c.stkMem := by
  unfold Chip.hostResume
  repeat' (first
    | with_reducible rfl | simp only [Chip.beginResume_stkMem, Chip.latchWake_stkMem, Chip.markPort_stkMem,
        Chip.signalResume_stkMem, ite_stkMem, ite_self] | split)
theorem Chip.remoteWake_stkMem (c : Chip) (p : Nat) (permitted : Bool) : (Chip.remoteWake c p permitted).stkMem = c.stkMem :=
    by
  simp only [Chip.remoteWake, Chip.beginResume_stkMem, Chip.emit_stkMem, Chip.latchWake_stkMem, Chip.markPort_stkMem,
      Chip.raise_stkMem, Chip.wakeUp_stkMem, ite_stkMem, ite_self]
theorem Chip.portWakes_stkMem (c : Chip) (p : Nat) (wakes : Bool) : (Chip.portWakes c p wakes).stkMem = c.stkMem := by
  simp only [Chip.portWakes, Chip.remoteWake_stkMem, ite_stkMem, ite_self]
theorem Chip.upstreamReset_stkMem (c : Chip) : (Chip.upstreamReset c).stkMem = c.stkMem := by
  unfold Chip.upstreamReset
  repeat' (first
    | with_reducible rfl | simp only [Chip.clearHub_stkMem, Chip.modPort_stkMem, Chip.resetFunction_stkMem,
        Chip.setFld_stkMem, Chip.syncDsPorts_stkMem, Chip.walk_stkMem] | split
    | (refine (foldl_stkMem ?_ _ _).trans ?_; intro c a) | rfl)
theorem Chip.connect_stkMem (c : Chip) (p speed : Nat) : (Chip.connect c p speed).stkMem = c.stkMem := by
  simp only [Chip.connect, Chip.setFld_stkMem, ite_stkMem, ite_self]
theorem Chip.portPower_stkMem (c : Chip) (p : Nat) (on : Bool) : (Chip.portPower c p on).stkMem = c.stkMem := by
  simp only [Chip.portPower, Chip.modPort_stkMem, Chip.syncPort_stkMem, Chip.walk_stkMem, ite_stkMem, ite_self]
theorem Chip.vbusRampStart_stkMem (c : Chip) : (Chip.vbusRampStart c).stkMem = c.stkMem := by
  unfold Chip.vbusRampStart
  repeat' (first
    | with_reducible rfl | simp only [Chip.askRamp_stkMem, Chip.modPort_stkMem] | split)
theorem Chip.portReset_stkMem (c : Chip) (p : Nat) : (Chip.portReset c p).stkMem = c.stkMem := by
  simp only [Chip.portReset, Chip.dropTxns_stkMem, Chip.emit_stkMem, Chip.modPort_stkMem, Chip.resetFunction_stkMem,
      ite_stkMem, ite_self]
theorem Chip.babble_stkMem (c : Chip) (p : Nat) : (Chip.babble c p).stkMem = c.stkMem := by
  simp only [Chip.babble, Chip.count_stkMem, Chip.modPort_stkMem, Chip.raise_stkMem, Chip.setFld_stkMem,
      Chip.syncPort_stkMem, Chip.walk_stkMem, ite_stkMem, ite_self]
theorem Chip.tripPort_stkMem (c : Chip) (p : Nat) : (Chip.tripPort c p).stkMem = c.stkMem := by
  simp only [Chip.tripPort, Chip.count_stkMem, Chip.emit_stkMem, Chip.modPort_stkMem, Chip.openPort_stkMem,
      Chip.raise_stkMem, Chip.setFld_stkMem, Chip.walk_stkMem]
theorem Chip.portTrip_stkMem (c : Chip) (p : Nat) : (Chip.portTrip c p).stkMem = c.stkMem := by
  simp only [Chip.portTrip, Chip.tripPort_stkMem, ite_stkMem, ite_self]
theorem Chip.writePortCtrl_stkMem (c : Chip) (p : Nat) (v : Word) : (Chip.writePortCtrl c p v).stkMem = c.stkMem := by
  simp only [Chip.writePortCtrl, Chip.syncPort_stkMem, Chip.walk_stkMem, Chip.writeMasked_stkMem]
theorem Chip.writeHubCtrl_stkMem (c : Chip) (v : Word) : (Chip.writeHubCtrl c v).stkMem = c.stkMem := by
  unfold Chip.writeHubCtrl
  repeat' (first
    | with_reducible rfl | simp only [Chip.setFld_stkMem, Chip.writeMasked_stkMem, ite_stkMem] | split
    | (refine (foldl_stkMem ?_ _ _).trans ?_; intro c a))

/-! ## DpTx -/

theorem Chip.enableHead_stkMem (c : Chip) (h : Nat) : (Chip.enableHead c h).stkMem = c.stkMem := by
  unfold Chip.enableHead
  repeat' (first
    | with_reducible rfl | simp only [Chip.applySlots_stkMem, Chip.setFld_stkMem, Chip.stopHead_stkMem, Chip.takeMarg_stkMem,
        Chip.takePlane_stkMem, Chip.walk_stkMem] | split)
theorem Chip.writeHeadCtrl_stkMem (c : Chip) (h : Nat) (v : Word) : (Chip.writeHeadCtrl c h v).stkMem = c.stkMem := by
  simp only [Chip.writeHeadCtrl, Chip.enableHead_stkMem, Chip.haltHead_stkMem, Chip.setFld_stkMem, Chip.walk_stkMem,
      Chip.writeMasked_stkMem, ite_stkMem, ite_self]
theorem Chip.syncAux_stkMem (c : Chip) (o : Nat) : (Chip.syncAux c o).stkMem = c.stkMem := by
  simp only [Chip.syncAux, Chip.setFld_stkMem]
theorem Chip.untrain_stkMem (c : Chip) (o : Nat) : (Chip.untrain c o).stkMem = c.stkMem := by
  simp only [Chip.untrain, Chip.restreams_stkMem, Chip.setFld_stkMem]
theorem Chip.dpTrain_stkMem (c : Chip) (o : Nat) : (Chip.dpTrain c o).stkMem = c.stkMem := by
  simp only [Chip.dpTrain, Chip.modDp_stkMem, Chip.syncAux_stkMem, Chip.untrain_stkMem, ite_stkMem, ite_self]
theorem Chip.sendAux_stkMem (c : Chip) (o : Nat) (v : Word) : (Chip.sendAux c o v).stkMem = c.stkMem := by
  simp only [Chip.sendAux, Chip.emit_stkMem]
theorem Chip.endAux_stkMem (c : Chip) (o res : Nat) : (Chip.endAux c o res).stkMem = c.stkMem := by
  simp only [Chip.endAux, Chip.modDp_stkMem, Chip.setFld_stkMem, Chip.syncAux_stkMem, ite_stkMem, ite_self]
theorem Chip.endDpTraining_stkMem (c : Chip) (o : Nat) : (Chip.endDpTraining c o).stkMem = c.stkMem := by
  unfold Chip.endDpTraining
  repeat' (first
    | with_reducible rfl | simp only [Chip.modDp_stkMem, Chip.sendAux_stkMem, Chip.setFld_stkMem, Chip.syncAux_stkMem]
    | split)
theorem Chip.hpdPlug_stkMem (c : Chip) (o : Nat) : (Chip.hpdPlug c o).stkMem = c.stkMem := by
  simp only [Chip.hpdPlug, Chip.dpTrain_stkMem, Chip.latchWake_stkMem, Chip.raise_stkMem, Chip.setFld_stkMem, ite_stkMem,
      ite_self]
theorem Chip.hpdUnplug_stkMem (c : Chip) (o : Nat) : (Chip.hpdUnplug c o).stkMem = c.stkMem := by
  simp only [Chip.hpdUnplug, Chip.endAux_stkMem, Chip.latchWake_stkMem, Chip.modDp_stkMem, Chip.raise_stkMem,
      Chip.setFld_stkMem, Chip.syncAux_stkMem, Chip.untrain_stkMem, ite_stkMem, ite_self]
theorem Chip.irqHpd_stkMem (c : Chip) (o : Nat) (linkLost : Bool) : (Chip.irqHpd c o linkLost).stkMem = c.stkMem := by
  simp only [Chip.irqHpd, Chip.count_stkMem, Chip.dpTrain_stkMem, Chip.latchWake_stkMem, Chip.raise_stkMem, ite_stkMem,
      ite_self]
theorem Chip.dpTrained_stkMem (c : Chip) (o : Nat) (result : Option (Nat × Nat)) :
    (Chip.dpTrained c o result).stkMem = c.stkMem := by
  unfold Chip.dpTrained
  repeat' (first
    | with_reducible rfl | simp only [Chip.endDpTraining_stkMem, Chip.raise_stkMem, Chip.raiseVisl_stkMem,
        Chip.restreams_stkMem, Chip.setFld_stkMem, ite_stkMem, ite_self] | split)
theorem Chip.auxGo_stkMem (c : Chip) (o : Nat) (v : Word) : (Chip.auxGo c o v).stkMem = c.stkMem := by
  simp only [Chip.auxGo, Chip.endAux_stkMem, Chip.modDp_stkMem, Chip.sendAux_stkMem, Chip.setFld_stkMem, Chip.syncAux_stkMem,
      ite_stkMem, ite_self]
theorem Chip.writeDptxAux_stkMem (c : Chip) (o : Nat) (v : Word) : (Chip.writeDptxAux c o v).stkMem = c.stkMem := by
  simp only [Chip.writeDptxAux, Chip.auxGo_stkMem, Chip.writeMasked_stkMem, ite_stkMem, ite_self]
theorem Chip.putAuxBuf_stkMem (c : Chip) (o : Nat) (bs : List Byte) : (Chip.putAuxBuf c o bs).stkMem = c.stkMem := by
  unfold Chip.putAuxBuf
  repeat' (first
    | with_reducible rfl | simp only [Chip.setReg_stkMem] | split | (refine (foldl_stkMem ?_ _ _).trans ?_; intro c a))
theorem Chip.auxReply_stkMem (c : Chip) (o : Nat) (r : AuxReply) : (Chip.auxReply c o r).stkMem = c.stkMem := by
  unfold Chip.auxReply
  repeat' (first
    | with_reducible rfl | simp only [Chip.endAux_stkMem, Chip.modDp_stkMem, Chip.putAuxBuf_stkMem, Chip.sendAux_stkMem,
        ite_stkMem, ite_self] | split)
theorem Chip.auxSilence_stkMem (c : Chip) (o : Nat) : (Chip.auxSilence c o).stkMem = c.stkMem := by
  unfold Chip.auxSilence
  repeat' (first
    | with_reducible rfl | simp only [Chip.endAux_stkMem, Chip.modDp_stkMem, Chip.sendAux_stkMem, ite_stkMem, ite_self]
    | split)
theorem Chip.writeDptxSlots_stkMem (c : Chip) (o : Nat) (v : Word) : (Chip.writeDptxSlots c o v).stkMem = c.stkMem := by
  simp only [Chip.writeDptxSlots, Chip.writeMasked_stkMem, ite_stkMem, ite_self]
theorem Chip.dpOvercurrent_stkMem (c : Chip) (o : Nat) : (Chip.dpOvercurrent c o).stkMem = c.stkMem := by
  simp only [Chip.dpOvercurrent, Chip.dpPower_stkMem, Chip.dropRamp_stkMem, Chip.modDp_stkMem, Chip.raise_stkMem,
      Chip.setFld_stkMem, ite_stkMem, ite_self]
theorem Chip.dpPowerOn_stkMem (c : Chip) (o : Nat) : (Chip.dpPowerOn c o).stkMem = c.stkMem := by
  simp only [Chip.dpPowerOn, Chip.askRamp_stkMem, Chip.setFld_stkMem, ite_stkMem, ite_self]
theorem Chip.writeDptxCtrl_stkMem (c : Chip) (o : Nat) (v : Word) : (Chip.writeDptxCtrl c o v).stkMem = c.stkMem := by
  simp only [Chip.writeDptxCtrl, Chip.dpPower_stkMem, Chip.dpPowerOn_stkMem, Chip.dpTrain_stkMem, Chip.dropRamp_stkMem,
      Chip.modDp_stkMem, Chip.setFld_stkMem, Chip.writeMasked_stkMem, ite_stkMem, ite_self]
theorem Chip.dpStop_stkMem (c : Chip) (o : Nat) : (Chip.dpStop c o).stkMem = c.stkMem := by
  simp only [Chip.dpStop, Chip.dpPower_stkMem, Chip.dropRamp_stkMem, Chip.endAux_stkMem, Chip.modDp_stkMem,
      Chip.setFld_stkMem, Chip.syncAux_stkMem, Chip.untrain_stkMem]
theorem Chip.dpStart_stkMem (c : Chip) (o : Nat) : (Chip.dpStart c o).stkMem = c.stkMem := by
  simp only [Chip.dpStart, Chip.dpTrain_stkMem, ite_stkMem, ite_self]

/-! ## Storage -/

theorem Chip.rejectTlp_stkMem (c : Chip) : (Chip.rejectTlp c).stkMem = c.stkMem := by
  simp only [Chip.rejectTlp, Chip.count_stkMem, Chip.raise_stkMem, Chip.reportError_stkMem]
theorem Chip.readFromAhead_stkMem (c : Chip) (f : Nat) (b : PepAhead) (t : List Byte) :
    (Chip.readFromAhead c f b t).stkMem = c.stkMem := by
  unfold Chip.readFromAhead
  repeat' (first
    | with_reducible rfl | simp only [Chip.sendTlp_stkMem] | split | (refine (foldl_stkMem ?_ _ _).trans ?_; intro c a))
theorem Chip.readAhead_stkMem (c : Chip) (p f : Nat) (t : List Byte) (ahead : Option (Nat × List Byte)) :
    (Chip.readAhead c p f t ahead).stkMem = c.stkMem := by
  unfold Chip.readAhead
  repeat' (first
    | with_reducible rfl | simp only [Chip.emit_stkMem, Chip.fresh_stkMem, ite_stkMem, ite_self] | split
    | exact Chip.fresh_stkMem2 (hEq_ := by assumption) | rw [Chip.fresh_stkMem2 (hEq_ := by assumption)])
theorem Chip.dropOverlap_stkMem (c : Chip) (p : Nat) (t : List Byte) : (Chip.dropOverlap c p t).stkMem = c.stkMem := by
  simp only [Chip.dropOverlap, Chip.discardAhead_stkMem, ite_stkMem, ite_self]
theorem Chip.deliverTlp_stkMem (c : Chip) (p : Nat) (peer : Bool) (t : List Byte) :
    (Chip.deliverTlp c p peer t).stkMem = c.stkMem := by
  simp only [Chip.deliverTlp, Chip.emit_stkMem, Chip.modPep_stkMem, ite_stkMem, ite_self]
theorem Chip.noteCompletion_stkMem (c : Chip) (p : Nat) (t : List Byte) : (Chip.noteCompletion c p t).stkMem = c.stkMem := by
  simp only [Chip.noteCompletion, ite_stkMem, ite_self]
theorem Chip.toPort_stkMem (c : Chip) (p f : Nat) (t : List Byte) (ahead : Option (Nat × List Byte)) :
    (Chip.toPort c p f t ahead).stkMem = c.stkMem := by
  unfold Chip.toPort
  repeat' (first
    | with_reducible rfl | simp only [Chip.deliverTlp_stkMem, Chip.dropOverlap_stkMem, Chip.noteCompletion_stkMem,
        Chip.readAhead_stkMem, Chip.readFromAhead_stkMem, Chip.unsupportedRequest_stkMem, ite_stkMem, ite_self] | split)
theorem Chip.tlp_stkMem (c : Chip) (f : Nat) (m : List MsgCell) (dest : Nat) (ahead : Option (Nat × List Byte)) :
    (Chip.tlp c f m dest ahead).stkMem = c.stkMem := by
  simp only [Chip.tlp, Chip.rejectTlp_stkMem, Chip.toPort_stkMem, Chip.toSwitch_stkMem, ite_stkMem, ite_self]
theorem Chip.completeReq_stkMem (c : Chip) (p : Nat) (t : List Byte) : (Chip.completeReq c p t).stkMem = c.stkMem := by
  simp only [Chip.completeReq, Chip.modPep_stkMem, ite_stkMem, ite_self]
theorem Chip.peerTlp_stkMem (c : Chip) (p : Nat) (t : List Byte) : (Chip.peerTlp c p t).stkMem = c.stkMem := by
  simp only [Chip.peerTlp, Chip.completeReq_stkMem, Chip.deliverTlp_stkMem, Chip.dropOverlap_stkMem, Chip.emit_stkMem,
      Chip.fresh_stkMem, ite_stkMem, ite_self]
theorem Chip.hostTlp_stkMem (c : Chip) (p : Nat) (t : List Byte) : (Chip.hostTlp c p t).stkMem = c.stkMem := by
  simp only [Chip.hostTlp, Chip.completeReq_stkMem, Chip.sendTlp_stkMem, ite_stkMem, ite_self]
theorem Chip.endpointTlp_stkMem (c : Chip) (p : Nat) (t : List Byte) (peer : Bool) :
    (Chip.endpointTlp c p t peer).stkMem = c.stkMem := by
  simp only [Chip.endpointTlp, Chip.hostTlp_stkMem, Chip.peerTlp_stkMem, ite_stkMem, ite_self]
theorem Chip.writePcieTun_stkMem (c : Chip) (v : Word) : (Chip.writePcieTun c v).stkMem = c.stkMem := by
  simp only [Chip.writePcieTun, Chip.discardAhead_stkMem, Chip.setFld_stkMem, Chip.writeMasked_stkMem, ite_stkMem, ite_self]
theorem Chip.writePcieCtrl_stkMem (c : Chip) (v : Word) : (Chip.writePcieCtrl c v).stkMem = c.stkMem := by
  unfold Chip.writePcieCtrl
  repeat' (first
    | with_reducible rfl | simp only [Chip.clearRegs_stkMem, Chip.setFld_stkMem, Chip.writeMasked_stkMem, ite_stkMem]
    | split | (refine (foldl_stkMem ?_ _ _).trans ?_; intro c a))
theorem Chip.socketOn_stkMem (c : Chip) (p : Nat) : (Chip.socketOn c p).stkMem = c.stkMem := by
  simp only [Chip.socketOn, Chip.modPep_stkMem, Chip.syncPep_stkMem, Chip.walk_stkMem, ite_stkMem, ite_self]
theorem Chip.socketOff_stkMem (c : Chip) (p : Nat) : (Chip.socketOff c p).stkMem = c.stkMem := by
  simp only [Chip.socketOff, Chip.modPep_stkMem, Chip.pepOff_stkMem, Chip.walk_stkMem, ite_stkMem, ite_self]
theorem Chip.socketRamp_stkMem (c : Chip) (p : Nat) : (Chip.socketRamp c p).stkMem = c.stkMem := by
  simp only [Chip.socketRamp, Chip.modPep_stkMem, Chip.rampSocket_stkMem, ite_stkMem, ite_self]
theorem Chip.socketUp_stkMem (c : Chip) (p : Nat) : (Chip.socketUp c p).stkMem = c.stkMem := by
  simp only [Chip.socketUp, Chip.emit_stkMem, Chip.modPep_stkMem, Chip.setFld_stkMem]
theorem Chip.perstOff_stkMem (c : Chip) (p : Nat) : (Chip.perstOff c p).stkMem = c.stkMem := by
  simp only [Chip.perstOff, Chip.emit_stkMem, Chip.modPep_stkMem, Chip.setFld_stkMem, ite_stkMem, ite_self]
theorem Chip.offDelayEnds_stkMem (c : Chip) : (Chip.offDelayEnds c).stkMem = c.stkMem := by
  unfold Chip.offDelayEnds
  repeat' (first
    | with_reducible rfl | simp only [Chip.modPep_stkMem, Chip.pepOff_stkMem, Chip.walk_stkMem, ite_stkMem] | split
    | (refine (foldl_stkMem ?_ _ _).trans ?_; intro c a))
theorem Chip.clkreq_stkMem (c : Chip) (p : Nat) (level l12 : Bool) : (Chip.clkreq c p level l12).stkMem = c.stkMem := by
  simp only [Chip.clkreq, Chip.emit_stkMem, Chip.modPep_stkMem, ite_stkMem, ite_self]
theorem Chip.pewake_stkMem (c : Chip) (p : Nat) : (Chip.pewake c p).stkMem = c.stkMem := by
  simp only [Chip.pewake, Chip.fresh_stkMem, Chip.latchWake_stkMem, Chip.sendTlp_stkMem, ite_stkMem, ite_self]
theorem Chip.socketTrip_stkMem (c : Chip) (p : Nat) : (Chip.socketTrip c p).stkMem = c.stkMem := by
  simp only [Chip.socketTrip, Chip.count_stkMem, Chip.pepFault_stkMem, ite_stkMem, ite_self]
theorem Chip.refuseHeld_stkMem (c : Chip) (p : Nat) (r : PepReq) : (Chip.refuseHeld c p r).stkMem = c.stkMem := by
  simp only [Chip.refuseHeld, Chip.emit_stkMem, Chip.fresh_stkMem, Chip.unsupportedRequest_stkMem, ite_stkMem, ite_self]
theorem Chip.surpriseDown_stkMem (c : Chip) (p : Nat) : (Chip.surpriseDown c p).stkMem = c.stkMem := by
  unfold Chip.surpriseDown
  repeat' (first
    | with_reducible rfl | simp only [Chip.count_stkMem, Chip.modPep_stkMem, Chip.raise_stkMem, Chip.refuseHeld_stkMem,
        Chip.reportError_stkMem, Chip.reportSlot_stkMem, Chip.setFld_stkMem, ite_stkMem] | split
    | (refine (foldl_stkMem ?_ _ _).trans ?_; intro c a))
theorem Chip.downstreamUp_stkMem (c : Chip) (p speed width : Nat) : (Chip.downstreamUp c p speed width).stkMem = c.stkMem :=
    by
  simp only [Chip.downstreamUp, Chip.modPep_stkMem, Chip.raiseVisl_stkMem, Chip.reportSlot_stkMem, Chip.setFld_stkMem,
      ite_stkMem, ite_self]
theorem Chip.sendFrame_stkMem (c : Chip) (bs : List Byte) : (Chip.sendFrame c bs).stkMem = c.stkMem := by
  simp only [Chip.sendFrame, Chip.emit_stkMem, ite_stkMem, ite_self]
theorem Chip.drainTx_stkMem (c : Chip) : (Chip.drainTx c).stkMem = c.stkMem := by
  unfold Chip.drainTx
  repeat' (first
    | with_reducible rfl | simp only [Chip.sendFrame_stkMem, ite_stkMem] | split
    | (refine (foldl_stkMem ?_ _ _).trans ?_; intro c a) | rfl)
theorem Chip.frame_stkMem (c : Chip) (f : Nat) (m : List MsgCell) : (Chip.frame c f m).stkMem = c.stkMem := by
  simp only [Chip.frame, Chip.count_stkMem, Chip.sendFrame_stkMem, ite_stkMem, ite_self]
theorem Chip.sendPause_stkMem (c : Chip) : (Chip.sendPause c).stkMem = c.stkMem := by
  simp only [Chip.sendPause, Chip.emit_stkMem, ite_stkMem, ite_self]
theorem Chip.takePause_stkMem (c : Chip) (bs : List Byte) : (Chip.takePause c bs).stkMem = c.stkMem := by
  simp only [Chip.takePause, Chip.drainTx_stkMem]
theorem Chip.frameUp_stkMem (c : Chip) (bs : List Byte) : (Chip.frameUp c bs).stkMem = c.stkMem := by
  simp only [Chip.frameUp, Chip.count_stkMem, Chip.queueMsg_stkMem, Chip.sendPause_stkMem, ite_stkMem, ite_self]
theorem Chip.frameNcm_stkMem (c : Chip) (bs : List Byte) : (Chip.frameNcm c bs).stkMem = c.stkMem := by
  simp only [Chip.frameNcm, Chip.count_stkMem, Chip.emit_stkMem, Chip.sendPause_stkMem, ite_stkMem, ite_self]
theorem Chip.drainNcm_stkMem (c : Chip) : (Chip.drainNcm c).stkMem = c.stkMem := by
  unfold Chip.drainNcm
  repeat' (first
    | with_reducible rfl | simp only [Chip.emit_stkMem, ite_stkMem] | split
    | (refine (foldl_stkMem ?_ _ _).trans ?_; intro c a) | rfl)
theorem Chip.ethStrobe_stkMem (c : Chip) : (Chip.ethStrobe c).stkMem = c.stkMem := by
  simp only [Chip.ethStrobe, Chip.drainNcm_stkMem, Chip.drainTx_stkMem, Chip.sendPause_stkMem]
theorem Chip.frameReceived_stkMem (c : Chip) (bs : List Byte) : (Chip.frameReceived c bs).stkMem = c.stkMem := by
  simp only [Chip.frameReceived, Chip.count_stkMem, Chip.frameNcm_stkMem, Chip.frameUp_stkMem, Chip.takePause_stkMem,
      ite_stkMem, ite_self]
theorem Chip.ntb_stkMem (c : Chip) (frames : List (List Byte)) (filter : Option Nat) :
    (Chip.ntb c frames filter).stkMem = c.stkMem := by
  unfold Chip.ntb
  repeat' (first
    | with_reducible rfl | simp only [Chip.notReady_stkMem, Chip.sendFrame_stkMem, ite_stkMem] | split
    | (refine (foldl_stkMem ?_ _ _).trans ?_; intro c a))
theorem Chip.ethLinkUp_stkMem (c : Chip) (adv : Nat) (eee : Bool) : (Chip.ethLinkUp c adv eee).stkMem = c.stkMem := by
  unfold Chip.ethLinkUp
  repeat' (first
    | with_reducible rfl | simp only [Chip.ncmNote_stkMem, Chip.raise_stkMem, Chip.setFld_stkMem] | split)
theorem Chip.ethLinkChange_stkMem (c : Chip) (lp : Option (Nat × Bool)) : (Chip.ethLinkChange c lp).stkMem = c.stkMem := by
  unfold Chip.ethLinkChange
  repeat' (first
    | with_reducible rfl | simp only [Chip.ethDown_stkMem, Chip.ethLinkUp_stkMem, ite_stkMem, ite_self] | split)
theorem Chip.writeEphyCtrl_stkMem (c : Chip) (v : Word) : (Chip.writeEphyCtrl c v).stkMem = c.stkMem := by
  simp only [Chip.writeEphyCtrl, Chip.emit_stkMem, Chip.ethDown_stkMem, Chip.setFld_stkMem, Chip.writeMasked_stkMem,
      ite_stkMem, ite_self]
theorem Chip.lowPowerIdle_stkMem (c : Chip) : (Chip.lowPowerIdle c).stkMem = c.stkMem := by
  simp only [Chip.lowPowerIdle, Chip.emit_stkMem, ite_stkMem, ite_self]
theorem Chip.writeEnetCtrl_stkMem (c : Chip) (v : Word) : (Chip.writeEnetCtrl c v).stkMem = c.stkMem := by
  simp only [Chip.writeEnetCtrl, Chip.clearRegs_stkMem, Chip.writeMasked_stkMem, ite_stkMem, ite_self]
theorem Chip.reopenSockets_stkMem (c : Chip) : (Chip.reopenSockets c).stkMem = c.stkMem := by
  unfold Chip.reopenSockets
  repeat' (first
    | with_reducible rfl | simp only [Chip.modPep_stkMem] | split | (refine (foldl_stkMem ?_ _ _).trans ?_; intro c a) | rfl)

/-! ## Modes -/

theorem Chip.enterLink_stkMem (c : Chip) (k : Lnk) : (Chip.enterLink c k).stkMem = c.stkMem := by
  simp only [Chip.enterLink, Chip.linkDown_stkMem, Chip.modLink_stkMem]
theorem Chip.enterCs_stkMem (c : Chip) : (Chip.enterCs c).stkMem = c.stkMem := by
  simp only [Chip.enterCs, Chip.enterLink_stkMem, Chip.raise_stkMem, Chip.setFld_stkMem, ite_stkMem, ite_self]
theorem Chip.startNative_stkMem (c : Chip) : (Chip.startNative c).stkMem = c.stkMem := by
  simp only [Chip.startNative, Chip.enterLink_stkMem, Chip.reopenSockets_stkMem, Chip.setFld_stkMem, Chip.syncUpstream_stkMem]
theorem Chip.enterNative_stkMem (c : Chip) : (Chip.enterNative c).stkMem = c.stkMem := by
  simp only [Chip.enterNative, ite_stkMem, Chip.enterCs_stkMem, Chip.raise_stkMem,
      Chip.thenDiscover_stkMem _ _ Chip.startNative_stkMem,
    Chip.noteFailed_stkMem, ite_self]
theorem Chip.endCs_stkMem (c : Chip) (code : Nat) : (Chip.endCs c code).stkMem = c.stkMem := by
  simp only [Chip.endCs, Chip.linkDown_stkMem, Chip.raise_stkMem, Chip.setFld_stkMem, ite_stkMem, ite_self]
theorem Chip.leaveNative_stkMem (c : Chip) (code : Nat) : (Chip.leaveNative c code).stkMem = c.stkMem := by
  simp only [Chip.leaveNative, Chip.endCs_stkMem, Chip.endTunnel_stkMem, Chip.linkDown_stkMem, Chip.sendPd_stkMem,
      ite_stkMem, ite_self]
theorem Chip.endMode_stkMem (c : Chip) (code : Nat) : (Chip.endMode c code).stkMem = c.stkMem := by
  unfold Chip.endMode
  repeat' (first
    | with_reducible rfl | simp only [Chip.endStream_stkMem, Chip.leaveNative_stkMem, Chip.raise_stkMem, Chip.setFld_stkMem,
        Chip.syncUpstream_stkMem, ite_stkMem] | split | (refine (foldl_stkMem ?_ _ _).trans ?_; intro c a))
theorem Chip.trainingFailed_stkMem (c : Chip) (k : Lnk) : (Chip.trainingFailed c k).stkMem = c.stkMem := by
  unfold Chip.trainingFailed
  repeat' (first
    | with_reducible rfl | simp only [Chip.endCs_stkMem, Chip.endMode_stkMem, Chip.noteFailed_stkMem, Chip.raiseOpen_stkMem,
        Chip.sendPd_stkMem] | split)

/-! ## PdPorts -/

theorem Chip.implicit_stkMem (c : Chip) (p : Nat) : (Chip.implicit c p).stkMem = c.stkMem := by
  simp only [Chip.implicit, Chip.setContract_stkMem]
theorem Chip.powerChanged_stkMem (c : Chip) : (Chip.powerChanged c).stkMem = c.stkMem := by
  simp only [Chip.powerChanged, Chip.refeed_stkMem]
theorem Chip.sendReject_stkMem (c : Chip) (p : Nat) : (Chip.sendReject c p).stkMem = c.stkMem := by
  simp only [Chip.sendReject, Chip.count_stkMem, Chip.sendPd_stkMem]
theorem Chip.discoverCable_stkMem (c : Chip) (p : Nat) : (Chip.discoverCable c p).stkMem = c.stkMem := by
  simp only [Chip.discoverCable, Chip.sendPd_stkMem, ite_stkMem, ite_self]
theorem Chip.settle_stkMem (c : Chip) (p : Nat) : (Chip.settle c p).stkMem = c.stkMem := by
  simp only [Chip.settle, Chip.closeSource_stkMem, Chip.modPd_stkMem, ite_stkMem, ite_self]
theorem Chip.attach_stkMem (c : Chip) (p : Nat) (source flip : Bool) : (Chip.attach c p source flip).stkMem = c.stkMem := by
  simp only [Chip.attach, Chip.latchWake_stkMem, Chip.raise_stkMem, Chip.setFld_stkMem, ite_stkMem, ite_self]
theorem Chip.floorCheck_stkMem (c : Chip) : (Chip.floorCheck c).stkMem = c.stkMem := by
  simp only [Chip.floorCheck, Chip.leaveSource_stkMem, ite_stkMem, ite_self]
theorem Chip.sinkAttach_stkMem (c : Chip) (p : Nat) (flip : Bool) : (Chip.sinkAttach c p flip).stkMem = c.stkMem := by
  simp only [Chip.sinkAttach, Chip.attach_stkMem, Chip.closeSource_stkMem, Chip.discoverCable_stkMem, Chip.floorCheck_stkMem,
      Chip.modPd_stkMem, Chip.syncUpstream_stkMem, Chip.walk_stkMem, ite_stkMem, ite_self]
theorem Chip.sourceAttach_stkMem (c : Chip) (p cur : Nat) (flip : Bool) : (Chip.sourceAttach c p cur flip).stkMem = c.stkMem :=
    by
  simp only [Chip.sourceAttach, Chip.attach_stkMem, Chip.implicit_stkMem, Chip.modPd_stkMem, Chip.powerChanged_stkMem,
      Chip.syncUpstream_stkMem, ite_stkMem, ite_self]
theorem Chip.detachFields_stkMem (c : Chip) (p : Nat) (moving : Bool) : (Chip.detachFields c p moving).stkMem = c.stkMem := by
  simp only [Chip.detachFields, Chip.clearCable_stkMem, Chip.dropContract_stkMem, Chip.endCs_stkMem, Chip.endMode_stkMem,
      Chip.latchWake_stkMem, Chip.modPd_stkMem, Chip.openSource_stkMem, Chip.raise_stkMem, Chip.setFld_stkMem,
      Chip.syncUpstream_stkMem, ite_stkMem, ite_self]
theorem Chip.detach_stkMem (c : Chip) (p : Nat) (moving : Bool) : (Chip.detach c p moving).stkMem = c.stkMem := by
  simp only [Chip.detach, Chip.detachFields_stkMem, Chip.powerChanged_stkMem, ite_stkMem, ite_self]
theorem Chip.requestPower_stkMem (c : Chip) (p : Nat) : (Chip.requestPower c p).stkMem = c.stkMem := by
  unfold Chip.requestPower
  repeat' (first
    | with_reducible rfl | simp only [Chip.modPd_stkMem, Chip.raise_stkMem, Chip.sendPd_stkMem, ite_stkMem, ite_self] | split)
theorem Chip.sourceCaps_stkMem (c : Chip) (p : Nat) (caps : List Pdo) : (Chip.sourceCaps c p caps).stkMem = c.stkMem := by
  simp only [Chip.sourceCaps, Chip.implicit_stkMem, Chip.modPd_stkMem, Chip.powerChanged_stkMem, Chip.requestPower_stkMem,
      Chip.setFld_stkMem, ite_stkMem, ite_self]
theorem Chip.repeatRequest_stkMem (c : Chip) (p : Nat) : (Chip.repeatRequest c p).stkMem = c.stkMem := by
  simp only [Chip.repeatRequest, Chip.modPd_stkMem, Chip.sendPd_stkMem, ite_stkMem, ite_self]
theorem Chip.setRole_stkMem (c : Chip) (source : Bool) : (Chip.setRole c source).stkMem = c.stkMem := by
  simp only [Chip.setRole, Chip.setFld_stkMem]
theorem Chip.becomeSource_stkMem (c : Chip) : (Chip.becomeSource c).stkMem = c.stkMem := by
  simp only [Chip.becomeSource, Chip.closeSource_stkMem, Chip.discoverCable_stkMem, Chip.dropContract_stkMem,
      Chip.floorCheck_stkMem, Chip.modPd_stkMem, Chip.powerChanged_stkMem, Chip.setRole_stkMem, ite_stkMem, ite_self]
theorem Chip.becomeSink_stkMem (c : Chip) (cur : Nat) : (Chip.becomeSink c cur).stkMem = c.stkMem := by
  simp only [Chip.becomeSink, Chip.dropContract_stkMem, Chip.implicit_stkMem, Chip.modPd_stkMem, Chip.openSource_stkMem,
      Chip.powerChanged_stkMem, Chip.setRole_stkMem]
theorem Chip.takePrSwap_stkMem (c : Chip) (p cur : Nat) : (Chip.takePrSwap c p cur).stkMem = c.stkMem := by
  simp only [Chip.takePrSwap, Chip.becomeSink_stkMem, Chip.becomeSource_stkMem, Chip.sendPd_stkMem, Chip.sendReject_stkMem,
      ite_stkMem, ite_self]
theorem Chip.swapVconn_stkMem (c : Chip) (p : Nat) : (Chip.swapVconn c p).stkMem = c.stkMem := by
  simp only [Chip.swapVconn, Chip.discoverCable_stkMem, Chip.setFld_stkMem, ite_stkMem, ite_self]
theorem Chip.takeVconnSwap_stkMem (c : Chip) (p : Nat) : (Chip.takeVconnSwap c p).stkMem = c.stkMem := by
  simp only [Chip.takeVconnSwap, Chip.sendPd_stkMem, Chip.sendReject_stkMem, Chip.swapVconn_stkMem, ite_stkMem, ite_self]
theorem Chip.contractBegins_stkMem (c : Chip) (p : Nat) (r : PdReq) : (Chip.contractBegins c p r).stkMem = c.stkMem := by
  simp only [Chip.contractBegins, Chip.askSwap_stkMem, Chip.modPd_stkMem, Chip.powerChanged_stkMem, Chip.setContract_stkMem,
      ite_stkMem, ite_self]
theorem Chip.takeAccept_stkMem (c : Chip) (p cur : Nat) : (Chip.takeAccept c p cur).stkMem = c.stkMem := by
  unfold Chip.takeAccept
  repeat' (first
    | with_reducible rfl | simp only [Chip.becomeSink_stkMem, Chip.becomeSource_stkMem, Chip.contractBegins_stkMem,
        Chip.endSwap_stkMem, Chip.swapVconn_stkMem, ite_stkMem, ite_self] | split)
theorem Chip.swapRefused_stkMem (c : Chip) : (Chip.swapRefused c).stkMem = c.stkMem := by
  simp only [Chip.swapRefused, Chip.endSwap_stkMem, Chip.modPd_stkMem, ite_stkMem, ite_self]
theorem Chip.takeReject_stkMem (c : Chip) (p : Nat) : (Chip.takeReject c p).stkMem = c.stkMem := by
  simp only [Chip.takeReject, Chip.count_stkMem, Chip.modPd_stkMem, Chip.swapRefused_stkMem, ite_stkMem, ite_self]
theorem Chip.takeWait_stkMem (c : Chip) (p : Nat) : (Chip.takeWait c p).stkMem = c.stkMem := by
  simp only [Chip.takeWait, Chip.count_stkMem, Chip.modPd_stkMem, Chip.raise_stkMem, Chip.swapRefused_stkMem, ite_stkMem,
      ite_self]
theorem Chip.retryRequest_stkMem (c : Chip) (p : Nat) : (Chip.retryRequest c p).stkMem = c.stkMem := by
  unfold Chip.retryRequest
  repeat' (first
    | with_reducible rfl | simp only [Chip.modPd_stkMem, Chip.sendPd_stkMem, ite_stkMem, ite_self] | split)
theorem Chip.retrySwap_stkMem (c : Chip) : (Chip.retrySwap c).stkMem = c.stkMem := by
  simp only [Chip.retrySwap, Chip.modPd_stkMem, Chip.sendPd_stkMem, ite_stkMem, ite_self]
theorem Chip.enterEpr_stkMem (c : Chip) : (Chip.enterEpr c).stkMem = c.stkMem := by
  simp only [Chip.enterEpr, Chip.setFld_stkMem, Chip.walk_stkMem, ite_stkMem, ite_self]
theorem Chip.answerRequest_stkMem (c : Chip) (p pos mv ma : Nat) (epr stale : Bool) :
    (Chip.answerRequest c p pos mv ma epr stale).stkMem = c.stkMem := by
  unfold Chip.answerRequest
  repeat' (first
    | with_reducible rfl | simp only [Chip.count_stkMem, Chip.enterEpr_stkMem, Chip.modPd_stkMem, Chip.sendPd_stkMem,
        Chip.sendReject_stkMem, Chip.setContract_stkMem, Chip.setTrip_stkMem, Chip.settle_stkMem, ite_stkMem, ite_self]
    | split)
theorem Chip.takeRequest_stkMem (c : Chip) (p pos mv ma : Nat) (epr stale : Bool) :
    (Chip.takeRequest c p pos mv ma epr stale).stkMem = c.stkMem := by
  unfold Chip.takeRequest
  repeat' (first
    | with_reducible rfl | simp only [Chip.answerRequest_stkMem] | split | (refine Chip.thenDiscover_stkMem _ _ ?_; intro c)
    | rfl)
theorem Chip.cableFound_stkMem (c : Chip) (p : Nat) (id : Option CableId) : (Chip.cableFound c p id).stkMem = c.stkMem := by
  unfold Chip.cableFound
  repeat' (first
    | with_reducible rfl | simp only [Chip.setFld_stkMem, Chip.setReg_stkMem, Chip.setTurnMedia_stkMem, Chip.walk_stkMem,
        ite_stkMem] | split | (refine (foldl_stkMem ?_ _ _).trans ?_; intro c a))
theorem Chip.defaultRole_stkMem (c : Chip) : (Chip.defaultRole c).stkMem = c.stkMem := by
  simp only [Chip.defaultRole, Chip.implicit_stkMem, Chip.modPd_stkMem, Chip.setRole_stkMem, ite_stkMem, ite_self]
theorem Chip.hardReset_stkMem (c : Chip) (p : Nat) (sent : Bool) : (Chip.hardReset c p sent).stkMem = c.stkMem := by
  simp only [Chip.hardReset, Chip.clearCable_stkMem, Chip.count_stkMem, Chip.defaultRole_stkMem, Chip.discoverCable_stkMem,
      Chip.dropContract_stkMem, Chip.endCs_stkMem, Chip.endMode_stkMem, Chip.implicit_stkMem, Chip.modPd_stkMem,
      Chip.openSource_stkMem, Chip.powerChanged_stkMem, Chip.raise_stkMem, Chip.sendPd_stkMem, Chip.setFld_stkMem,
      ite_stkMem, ite_self]
theorem Chip.writePdCtrl_stkMem (c : Chip) (p : Nat) (v : Word) : (Chip.writePdCtrl c p v).stkMem = c.stkMem := by
  simp only [Chip.writePdCtrl, Chip.detach_stkMem, Chip.hardReset_stkMem, Chip.writeMasked_stkMem, ite_stkMem, ite_self]
theorem Chip.frsStart_stkMem (c : Chip) : (Chip.frsStart c).stkMem = c.stkMem := by
  simp only [Chip.frsStart, Chip.emit_stkMem, Chip.modPd_stkMem, ite_stkMem, ite_self]
theorem Chip.piGone_stkMem (c : Chip) (gone moving : Bool) : (Chip.piGone c gone moving).stkMem = c.stkMem := by
  simp only [Chip.piGone, Chip.detachFields_stkMem, Chip.dropContract_stkMem, Chip.modPd_stkMem, Chip.raise_stkMem,
      ite_stkMem, ite_self]
theorem Chip.inputLoss_stkMem (c : Chip) (gone moving : Bool) : (Chip.inputLoss c gone moving).stkMem = c.stkMem := by
  simp only [Chip.inputLoss, Chip.frsStart_stkMem, Chip.piGone_stkMem, Chip.powerChanged_stkMem, Chip.raise_stkMem,
      ite_stkMem, ite_self]
theorem Chip.takeFrSwap_stkMem (c : Chip) : (Chip.takeFrSwap c).stkMem = c.stkMem := by
  simp only [Chip.takeFrSwap, Chip.dropContract_stkMem, Chip.implicit_stkMem, Chip.modPd_stkMem, Chip.powerChanged_stkMem,
      Chip.sendPd_stkMem, Chip.sendReject_stkMem, Chip.setRole_stkMem, ite_stkMem, ite_self]
theorem Chip.sourceTrip_stkMem (c : Chip) (p : Nat) : (Chip.sourceTrip c p).stkMem = c.stkMem := by
  simp only [Chip.sourceTrip, Chip.hardReset_stkMem, Chip.modPd_stkMem, Chip.openSource_stkMem, Chip.raise_stkMem,
      ite_stkMem, ite_self]
theorem Chip.inputFault_stkMem (c : Chip) (p : Nat) : (Chip.inputFault c p).stkMem = c.stkMem := by
  simp only [Chip.inputFault, Chip.hardReset_stkMem, Chip.modPd_stkMem, Chip.openSource_stkMem, Chip.powerChanged_stkMem,
      Chip.raise_stkMem, ite_stkMem, ite_self]
theorem Chip.dischargeLate_stkMem (c : Chip) (p : Nat) : (Chip.dischargeLate c p).stkMem = c.stkMem := by
  simp only [Chip.dischargeLate, Chip.emit_stkMem, Chip.modPd_stkMem, Chip.raise_stkMem, ite_stkMem, ite_self]
theorem Chip.pdTick_stkMem (c : Chip) : (Chip.pdTick c).stkMem = c.stkMem := by
  unfold Chip.pdTick
  repeat' (first
    | with_reducible rfl | simp only [Chip.settle_stkMem, ite_stkMem, ite_self] | split
    | (refine (foldl_stkMem ?_ _ _).trans ?_; intro c a) | rfl)
theorem Chip.sourceStop_stkMem (c : Chip) (p : Nat) : (Chip.sourceStop c p).stkMem = c.stkMem := by
  simp only [Chip.sourceStop, Chip.emit_stkMem, Chip.openSource_stkMem, ite_stkMem, ite_self]
theorem Chip.openVdo_stkMem (c : Chip) (mask bits : Nat) : (Chip.openVdo c mask bits).2.stkMem = c.stkMem := by
  simp only [Chip.openVdo, Chip.fresh_stkMem]
theorem Chip.openVdo_stkMem2 (c : Chip) (mask bits : Nat) {y0 e0} (hEq_ : (Chip.openVdo c mask bits) = (y0,
    e0)) : e0.stkMem = c.stkMem := by
  have := Chip.openVdo_stkMem c mask bits; rw [hEq_] at this; exact this
theorem Chip.vdm_stkMem (c : Chip) (f : Chip → Chip) (hf : ∀ c, (f c).stkMem = c.stkMem) : (Chip.vdm c f).stkMem = c.stkMem :=
    by
  unfold Chip.vdm; split <;> [rfl; (split <;> simp only [hf, Chip.sendPd_stkMem])]
theorem Chip.identity_stkMem (c : Chip) : (Chip.identity c).stkMem = c.stkMem := by
  simp only [Chip.identity, Chip.openVdo_stkMem, Chip.sendPd_stkMem]
theorem Chip.svids_stkMem (c : Chip) : (Chip.svids c).stkMem = c.stkMem := by
  simp only [Chip.svids, Chip.sendPd_stkMem, ite_stkMem, ite_self]
theorem Chip.modes_stkMem (c : Chip) (m : AltMode) : (Chip.modes c m).stkMem = c.stkMem := by
  unfold Chip.modes
  repeat' (first
    | with_reducible rfl | simp only [Chip.openVdo_stkMem, Chip.sendPd_stkMem, ite_stkMem] | split
    | exact Chip.openVdo_stkMem2 (hEq_ := by assumption) | rw [Chip.openVdo_stkMem2 (hEq_ := by assumption)])
theorem Chip.enterMode_stkMem (c : Chip) (m : AltMode) : (Chip.enterMode c m).stkMem = c.stkMem := by
  unfold Chip.enterMode; split
  · exact Chip.sendPd_stkMem _ _ _
  · dsimp only; split
    · rw [Chip.enterNative_stkMem, Chip.sendPd_stkMem]
    · rw [Chip.raise_stkMem]; exact Chip.sendPd_stkMem c 0 (.ack [])
theorem Chip.exitMode_stkMem (c : Chip) (m : AltMode) : (Chip.exitMode c m).stkMem = c.stkMem := by
  simp only [Chip.exitMode, Chip.endMode_stkMem, Chip.noteFailed_stkMem, Chip.sendPd_stkMem, ite_stkMem, ite_self]
theorem Chip.statusVdo_stkMem (c : Chip) : (Chip.statusVdo c).2.stkMem = c.stkMem := by
  simp only [Chip.statusVdo, Chip.openVdo_stkMem]
theorem Chip.statusVdo_stkMem2 (c : Chip) {y0 e0} (hEq_ : (Chip.statusVdo c) = (y0, e0)) : e0.stkMem = c.stkMem := by
  have := Chip.statusVdo_stkMem c; rw [hEq_] at this; exact this
theorem Chip.dpConfigure_stkMem (c : Chip) (pin : Option Bool) : (Chip.dpConfigure c pin).stkMem = c.stkMem := by
  unfold Chip.dpConfigure
  repeat' (first
    | with_reducible rfl | simp only [Chip.sendPd_stkMem, Chip.setFld_stkMem, Chip.statusVdo_stkMem,
        Chip.syncUpstream_stkMem, ite_stkMem, ite_self] | split | exact Chip.statusVdo_stkMem2 (hEq_ := by assumption)
    | rw [Chip.statusVdo_stkMem2 (hEq_ := by assumption)])
theorem Chip.dpStatus_stkMem (c : Chip) : (Chip.dpStatus c).stkMem = c.stkMem := by
  simp only [Chip.dpStatus, Chip.sendPd_stkMem, Chip.statusVdo_stkMem, ite_stkMem, ite_self]
theorem Chip.csDiscovery_stkMem (c : Chip) (caraxline : Bool) : (Chip.csDiscovery c caraxline).stkMem = c.stkMem := by
  unfold Chip.csDiscovery
  repeat' (first
    | with_reducible rfl | simp only [Chip.enterCs_stkMem, Chip.raise_stkMem, Chip.sendPd_stkMem, ite_stkMem, ite_self]
    | split)

end Sys2Proof.Machine
end

