-- ==== Sys2Proof/Laws/FrameRouter.lean ====
section
/-! SUPPORT. What leaves the bytes of the local Stacks as they are: the Folio and Coppice operations, training, keys, Circulation, turns, Coppice and the router. -/

set_option linter.unusedSimpArgs false
set_option linter.unusedTactic false
set_option linter.unreachableTactic false

namespace Sys2Proof.Machine

/-! ## FolioOps -/

theorem Chip.setCopy_stkMem (c : Chip) (t : Nat) (m : Cells Byte) : (Chip.setCopy c t m).stkMem = c.stkMem := by
  simp only [Chip.setCopy, ite_stkMem, ite_self]
theorem Chip.beginFolioWrite_stkMem (c : Chip) (writer : Nat) (body : Cells Byte) :
    (Chip.beginFolioWrite c writer body).stkMem = c.stkMem := by
  simp only [Chip.beginFolioWrite, Chip.setCopy_stkMem, Chip.setFld_stkMem, Chip.setReg_stkMem]
theorem Chip.ownerWrite_stkMem (c : Chip) (writer lo hi : Nat) (sect : Cells Byte) :
    (Chip.ownerWrite c writer lo hi sect).2.stkMem = c.stkMem := by
  unfold Chip.ownerWrite
  repeat' (first
    | with_reducible rfl | simp only [Chip.beginFolioWrite_stkMem, Chip.maintRequest_stkMem] | split
    | exact Chip.maintRequest_stkMem2 (hEq_ := by assumption) | rw [Chip.maintRequest_stkMem2 (hEq_ := by assumption)])
theorem Chip.ownerWrite_stkMem2 (c : Chip) (writer lo hi : Nat) (sect : Cells Byte) {y0 e0} (hEq_ :
    (Chip.ownerWrite c writer lo hi sect) = (y0, e0)) : e0.stkMem = c.stkMem := by
  have := Chip.ownerWrite_stkMem c writer lo hi sect; rw [hEq_] at this; exact this

/-! ## CoppiceOps -/

theorem Chip.modCopp_stkMem (c : Chip) (f : Copp → Copp) : (Chip.modCopp c f).stkMem = c.stkMem := by unfold Chip.modCopp; rfl
theorem Chip.requestMapWrite_stkMem (c : Chip) : (Chip.requestMapWrite c).stkMem = c.stkMem := by
  unfold Chip.requestMapWrite
  repeat' (first
    | with_reducible rfl | simp only [Chip.modCopp_stkMem, ite_stkMem] | split
    | exact Chip.ownerWrite_stkMem2 (hEq_ := by assumption) | rw [Chip.ownerWrite_stkMem2 (hEq_ := by assumption)])
theorem Chip.addEntry_stkMem (c : Chip) (e : RepEntry) : (Chip.addEntry c e).stkMem = c.stkMem := by
  simp only [Chip.addEntry, Chip.count_stkMem, Chip.modCopp_stkMem, Chip.raiseOpen_stkMem, Chip.requestMapWrite_stkMem,
      Chip.setFld_stkMem, ite_stkMem, ite_self]
theorem Chip.noteLast_stkMem (c : Chip) (kind unit orig : Nat) : (Chip.noteLast c kind unit orig).stkMem = c.stkMem := by
  simp only [Chip.noteLast, Chip.raise_stkMem, Chip.setFld_stkMem]
theorem Chip.noteRepair_stkMem (c : Chip) (kind unit orig spare : Nat) :
    (Chip.noteRepair c kind unit orig spare).stkMem = c.stkMem := by
  unfold Chip.noteRepair
  repeat' (first
    | with_reducible rfl | simp only [Chip.addEntry_stkMem, Chip.count_stkMem, Chip.noteLast_stkMem, Chip.raise_stkMem,
        Chip.setFld_stkMem] | split | (refine (when_stkMem ?_ _ _).trans ?_; intro c))
theorem Chip.noteExhausted_stkMem (c : Chip) (kind unit orig : Nat) :
    (Chip.noteExhausted c kind unit orig).stkMem = c.stkMem := by
  simp only [Chip.noteExhausted, Chip.modCopp_stkMem, Chip.raise_stkMem, ite_stkMem, ite_self]
theorem Chip.retireSpare_stkMem (c : Chip) (kind unit spare : Nat) : (Chip.retireSpare c kind unit spare).stkMem = c.stkMem :=
    by
  simp only [Chip.retireSpare, Chip.modCopp_stkMem]
theorem Chip.swapSlices_stkMem (c : Chip) (l : Nat) : (Chip.swapSlices c l).stkMem = c.stkMem := by
  unfold Chip.swapSlices
  repeat' (first
    | with_reducible rfl | simp only [Chip.modCopp_stkMem, Chip.noteExhausted_stkMem, Chip.noteRepair_stkMem, ite_stkMem]
    | split | (refine (foldl_stkMem ?_ _ _).trans ?_; intro c a))

/-! ## Training -/

theorem Chip.restLane_stkMem (c : Chip) (l : Nat) : (Chip.restLane c l).stkMem = c.stkMem := by
  simp only [Chip.restLane, Chip.modLane_stkMem, Chip.setFld_stkMem]
theorem Chip.restUnused_stkMem (c : Chip) (k : Lnk) : (Chip.restUnused c k).stkMem = c.stkMem := by
  unfold Chip.restUnused
  repeat' (first
    | with_reducible rfl | simp only [Chip.restLane_stkMem] | split | (refine (foldl_stkMem ?_ _ _).trans ?_; intro c a)
    | rfl)
theorem Chip.relockLane_stkMem (c : Chip) (l rate : Nat) (locked : Bool) (r? : Option Nat) :
    (Chip.relockLane c l rate locked r?).stkMem = c.stkMem := by
  simp only [Chip.relockLane, Chip.modLane_stkMem, Chip.setFld_stkMem, Chip.setReg_stkMem, Chip.startAdapt_stkMem,
      ite_stkMem, ite_self]
theorem Chip.relock_stkMem (c : Chip) (k : Lnk) : (Chip.relock c k).stkMem = c.stkMem := by
  unfold Chip.relock
  repeat' (first
    | with_reducible rfl | simp only [Chip.countUse_stkMem, Chip.modLink_stkMem, Chip.raiseVisl_stkMem,
        Chip.relockLane_stkMem, Chip.restLane_stkMem, Chip.sendRequests_stkMem, Chip.setFld_stkMem] | split
    | (refine (foldl_stkMem ?_ _ _).trans ?_; intro c a))
theorem Chip.failAttempt_stkMem (c : Chip) (k : Lnk) : (Chip.failAttempt c k).stkMem = c.stkMem := by
  unfold Chip.failAttempt
  repeat' (first
    | with_reducible rfl | simp only [Chip.count_stkMem, Chip.endLaneActivity_stkMem, Chip.laneReset_stkMem,
        Chip.modLink_stkMem, Chip.setFld_stkMem, Chip.syncMaps_stkMem] | split
    | (refine (foldl_stkMem ?_ _ _).trans ?_; intro c a))
theorem Chip.attemptFails_stkMem (c : Chip) (k : Lnk) (noRate : Bool) : (Chip.attemptFails c k noRate).stkMem = c.stkMem := by
  simp only [Chip.attemptFails, Chip.failAttempt_stkMem, Chip.trainingFailed_stkMem, ite_stkMem, ite_self]
theorem Chip.choose_stkMem (c : Chip) (k : Lnk) (a : AdvMsg) : (Chip.choose c k a).stkMem = c.stkMem := by
  unfold Chip.choose
  repeat' (first
    | with_reducible rfl | simp only [Chip.attemptFails_stkMem, Chip.modLink_stkMem, Chip.queueLmc_stkMem,
        Chip.restUnused_stkMem, Chip.setFld_stkMem, ite_stkMem, ite_self] | split)
theorem Chip.advTraining_stkMem (c : Chip) (k : Lnk) (a : AdvMsg) : (Chip.advTraining c k a).stkMem = c.stkMem := by
  unfold Chip.advTraining
  repeat' (first
    | with_reducible rfl | simp only [Chip.attemptFails_stkMem, Chip.choose_stkMem, Chip.modLink_stkMem, ite_stkMem,
        ite_self] | split)
theorem Chip.advRecovery_stkMem (c : Chip) (k : Lnk) (a : AdvMsg) : (Chip.advRecovery c k a).stkMem = c.stkMem := by
  simp only [Chip.advRecovery, Chip.modLink_stkMem, Chip.openCredits_stkMem, Chip.queueLmc_stkMem, ite_stkMem, ite_self]
theorem Chip.takeAdv_stkMem (c : Chip) (k : Lnk) (m : AdvMsg) : (Chip.takeAdv c k m).stkMem = c.stkMem := by
  simp only [Chip.takeAdv, Chip.advRecovery_stkMem, Chip.advTraining_stkMem, Chip.startTraining_stkMem, ite_stkMem, ite_self]
theorem Chip.enterCreditStep_stkMem (c : Chip) (k : Lnk) : (Chip.enterCreditStep c k).stkMem = c.stkMem := by
  simp only [Chip.enterCreditStep, Chip.modLink_stkMem, Chip.openCredits_stkMem, Chip.queueLmc_stkMem]
theorem Chip.loopLock_stkMem (acc : List Nat × Bool × Chip) (l : Nat) : (Chip.loopLock acc l).2.2.stkMem = acc.2.2.stkMem :=
    by
  unfold Chip.loopLock
  dsimp only
  repeat' (first
    | with_reducible rfl | split | exact Chip.maintRequest_stkMem2 (hEq_ := by assumption))
theorem Chip.loopLocks_stkMem (ls : List Nat)
    (acc : List Nat × Bool × Chip) : (ls.foldl Chip.loopLock acc).2.2.stkMem = acc.2.2.stkMem := by
  induction ls generalizing acc with
  | nil => rfl
  | cons l ls ih => rw [List.foldl_cons, ih, Chip.loopLock_stkMem]
theorem Chip.loopRequest_stkMem (c : Chip) (k : Lnk) : (Chip.loopRequest c k).stkMem = c.stkMem := by
  unfold Chip.loopRequest
  dsimp only
  split
  · rw [Chip.queueLmc_stkMem, foldl_stkMem (fun c l => by rw [Chip.emit_stkMem, Chip.setFld_stkMem]), Chip.setFld_stkMem,
      Chip.loopLocks_stkMem]
  · rw [Chip.queueLmc_stkMem, Chip.modLink_stkMem, Chip.maintDrop_stkMem, Chip.loopLocks_stkMem]
theorem Chip.turnInTraining_stkMem (c : Chip) (l : Nat) : (Chip.turnInTraining c l).stkMem = c.stkMem := by
  simp only [Chip.turnInTraining, Chip.emit_stkMem, Chip.modLane_stkMem, Chip.receiverRelease_stkMem, Chip.sendQuiet_stkMem,
      Chip.transmitterRelease_stkMem, ite_stkMem, ite_self]
theorem Chip.startReverse_stkMem (c : Chip) (k : Lnk) : (Chip.startReverse c k).stkMem = c.stkMem := by
  unfold Chip.startReverse
  repeat' (first
    | with_reducible rfl | simp only [Chip.enterCreditStep_stkMem, Chip.modLink_stkMem, Chip.sendRequests_stkMem,
        Chip.startAdapt_stkMem, Chip.turnInTraining_stkMem, ite_stkMem, ite_self] | split
    | (refine (foldl_stkMem ?_ _ _).trans ?_; intro c a))
theorem Chip.endReverse_stkMem (c : Chip) (k : Lnk) : (Chip.endReverse c k).stkMem = c.stkMem := by
  unfold Chip.endReverse
  repeat' (first
    | with_reducible rfl | simp only [Chip.setFld_stkMem, Chip.turnInTraining_stkMem, ite_stkMem, ite_self] | split
    | (refine (foldl_stkMem ?_ _ _).trans ?_; intro c a))
theorem Chip.afterAdapt_stkMem (c : Chip) (k : Lnk) : (Chip.afterAdapt c k).stkMem = c.stkMem := by
  simp only [Chip.afterAdapt, Chip.enterCreditStep_stkMem, Chip.loopRequest_stkMem, Chip.startReverse_stkMem, ite_stkMem,
      ite_self]
theorem Chip.adaptFailed_stkMem (c : Chip) (l : Nat) : (Chip.adaptFailed c l).stkMem = c.stkMem := by
  simp only [Chip.adaptFailed, Chip.modCopp_stkMem, Chip.raiseOpen_stkMem, Chip.setFld_stkMem]
theorem Chip.retrainEnds_stkMem (c : Chip) (l : Nat) (ok : Bool) : (Chip.retrainEnds c l ok).stkMem = c.stkMem := by
  simp only [Chip.retrainEnds, Chip.maintDrop_stkMem, Chip.modLane_stkMem, Chip.queueLmc_stkMem, Chip.setFld_stkMem,
      ite_stkMem, ite_self]
theorem Chip.retrainDone_stkMem (c : Chip) (l : Nat) (ok : Bool) (taps : List Word) :
    (Chip.retrainDone c l ok taps).stkMem = c.stkMem := by
  simp only [Chip.retrainDone, Chip.adaptFailed_stkMem, Chip.modLink_stkMem, Chip.retrainEnds_stkMem, Chip.setFld_stkMem,
      Chip.trackTaps_stkMem, ite_stkMem, ite_self]
theorem Chip.adaptDoneAt_stkMem (c : Chip) (l : Nat) (ok : Bool) (taps : List Word) :
    (Chip.adaptDoneAt c l ok taps).stkMem = c.stkMem := by
  simp only [Chip.adaptDoneAt, Chip.adaptFailed_stkMem, Chip.afterAdapt_stkMem, Chip.modLink_stkMem, Chip.setFld_stkMem,
      Chip.trackTaps_stkMem, ite_stkMem, ite_self]
theorem Chip.reverseDoneAt_stkMem (c : Chip) (l : Nat) (ok : Bool) (taps : List Word) :
    (Chip.reverseDoneAt c l ok taps).stkMem = c.stkMem := by
  simp only [Chip.reverseDoneAt, Chip.adaptFailed_stkMem, Chip.enterCreditStep_stkMem, Chip.modLink_stkMem,
      Chip.setFld_stkMem, Chip.trackTaps_stkMem, Chip.turnInTraining_stkMem, ite_stkMem, ite_self]
theorem Chip.adaptationDone_stkMem (c : Chip) (l : Nat) (ok : Bool) (taps : List Word) :
    (Chip.adaptationDone c l ok taps).stkMem = c.stkMem := by
  simp only [Chip.adaptationDone, Chip.adaptDoneAt_stkMem, Chip.retrainDone_stkMem, Chip.reverseDoneAt_stkMem, ite_stkMem,
      ite_self]
theorem Chip.takeCredits_stkMem (c : Chip) (k : Lnk) (cr : Credits) : (Chip.takeCredits c k cr).stkMem = c.stkMem := by
  simp only [Chip.takeCredits, Chip.endReverse_stkMem, Chip.modLink_stkMem, ite_stkMem, ite_self]
theorem Chip.hostRetrain_stkMem (c : Chip) (k : Lnk) : (Chip.hostRetrain c k).stkMem = c.stkMem := by
  simp only [Chip.hostRetrain, Chip.setFld_stkMem, Chip.startTraining_stkMem, ite_stkMem, ite_self]
theorem Chip.hostRecover_stkMem (c : Chip) (k : Lnk) : (Chip.hostRecover c k).stkMem = c.stkMem := by
  simp only [Chip.hostRecover, Chip.setFld_stkMem, Chip.startRecovery_stkMem, ite_stkMem, ite_self]
theorem Chip.clearLinkCounters_stkMem (c : Chip) (k : Lnk) : (Chip.clearLinkCounters c k).stkMem = c.stkMem := by
  simp only [Chip.clearLinkCounters, Chip.clearRegs_stkMem]
theorem Chip.writeLinkCtrl_stkMem (c : Chip) (k : Lnk) (v : Word) : (Chip.writeLinkCtrl c k v).stkMem = c.stkMem := by
  unfold Chip.writeLinkCtrl
  repeat' (first
    | with_reducible rfl | simp only [Chip.clearLinkCounters_stkMem, Chip.hostRecover_stkMem, Chip.hostRetrain_stkMem,
        Chip.writeMasked_stkMem, ite_stkMem] | split | (refine (when_stkMem ?_ _ _).trans ?_; intro c))
theorem Chip.takeSleepReq_stkMem (c : Chip) (k : Lnk) (level : Nat) : (Chip.takeSleepReq c k level).stkMem = c.stkMem := by
  unfold Chip.takeSleepReq
  repeat' (first
    | with_reducible rfl | simp only [Chip.linkSleep_stkMem, Chip.modLink_stkMem, Chip.queueLmc_stkMem, ite_stkMem,
        ite_self] | split)
theorem Chip.sendWake_stkMem (c : Chip) (k : Lnk) : (Chip.sendWake c k).stkMem = c.stkMem := by
  simp only [Chip.sendWake, Chip.modLink_stkMem, Chip.sendPatternOnce_stkMem, ite_stkMem, ite_self]
theorem Chip.wakeLink_stkMem (c : Chip) (k : Lnk) (source : Nat) : (Chip.wakeLink c k source).stkMem = c.stkMem := by
  simp only [Chip.wakeLink, Chip.latchWake_stkMem, Chip.sendWake_stkMem, ite_stkMem, ite_self]

/-! ## KeyOps -/

theorem Chip.modMuni_stkMem (c : Chip) (f : Muni → Muni) : (Chip.modMuni c f).stkMem = c.stkMem := by unfold Chip.modMuni; rfl
theorem Chip.setSlot_stkMem (c : Chip) (s : Nat) (x : KeySlot) : (Chip.setSlot c s x).stkMem = c.stkMem := by
  simp only [Chip.setSlot, Chip.modMuni_stkMem]
theorem Chip.modKeyFlow_stkMem (c : Chip) (f : Nat) (g : KeyFlow → KeyFlow) : (Chip.modKeyFlow c f g).stkMem = c.stkMem := by
  simp only [Chip.modKeyFlow, Chip.modMuni_stkMem]
theorem Chip.random_stkMem (c : Chip) (n : Nat) : (Chip.random c n).2.stkMem = c.stkMem := by
  simp only [Chip.random, Chip.fresh_stkMem]
theorem Chip.random_stkMem2 (c : Chip) (n : Nat) {y0 e0} (hEq_ : (Chip.random c n) = (y0, e0)) : e0.stkMem = c.stkMem := by
  have := Chip.random_stkMem c n; rw [hEq_] at this; exact this
theorem Chip.fillSlotKey_stkMem (c : Chip) (x : KeySlot) (key : List Byte) : (Chip.fillSlotKey c x key).2.stkMem = c.stkMem :=
    by
  unfold Chip.fillSlotKey
  repeat' (first
    | with_reducible rfl | simp only [Chip.random_stkMem] | split | exact Chip.random_stkMem2 (hEq_ := by assumption)
    | rw [Chip.random_stkMem2 (hEq_ := by assumption)])
theorem Chip.fillSlotKey_stkMem2 (c : Chip) (x : KeySlot) (key : List Byte) {y0 e0} (hEq_ : (Chip.fillSlotKey c x key) = (y0,
    e0)) : e0.stkMem = c.stkMem := by
  have := Chip.fillSlotKey_stkMem c x key; rw [hEq_] at this; exact this
theorem Chip.setFlowState_stkMem (c : Chip) (f x : Nat) : (Chip.setFlowState c f x).stkMem = c.stkMem := by
  simp only [Chip.setFlowState, Chip.setFld_stkMem]
theorem Chip.loseFlowKey_stkMem (s : Nat) (key : Option (List Byte)) (old : List Byte) (c : Chip) (f : Nat) :
    (Chip.loseFlowKey s key old c f).stkMem = c.stkMem := by
  simp only [Chip.loseFlowKey, Chip.modKeyFlow_stkMem, Chip.raise_stkMem, Chip.setFlowState_stkMem, ite_stkMem, ite_self]
theorem Chip.orphan_stkMem (c : Chip) (s : Nat) : (Chip.orphan c s).stkMem = c.stkMem := by
  unfold Chip.orphan
  repeat' (first
    | with_reducible rfl | simp only [Chip.loseFlowKey_stkMem, Chip.setSlot_stkMem, ite_stkMem] | split
    | (refine (foldl_stkMem ?_ _ _).trans ?_; intro c a))
theorem Chip.makeBad_stkMem (c : Chip) (s : Nat) : (Chip.makeBad c s).stkMem = c.stkMem := by
  unfold Chip.makeBad
  repeat' (first
    | with_reducible rfl | simp only [Chip.count_stkMem, Chip.loseFlowKey_stkMem, Chip.modCopp_stkMem, Chip.orphan_stkMem,
        Chip.raise_stkMem, Chip.setSlot_stkMem, ite_stkMem, ite_self] | split
    | (refine (foldl_stkMem ?_ _ _).trans ?_; intro c a))
theorem Chip.useSlot_stkMem (c : Chip) (s typ : Nat) : (Chip.useSlot c s typ).2.stkMem = c.stkMem := by
  unfold Chip.useSlot
  repeat' (first
    | with_reducible rfl | simp only [Chip.makeBad_stkMem] | split | rfl)
theorem Chip.useSlot_stkMem2 (c : Chip) (s typ : Nat) {y0 e0} (hEq_ : (Chip.useSlot c s typ) = (y0,
    e0)) : e0.stkMem = c.stkMem := by
  have := Chip.useSlot_stkMem c s typ; rw [hEq_] at this; exact this
theorem Chip.dropHeld_stkMem (c : Chip) (f : Nat) : (Chip.dropHeld c f).stkMem = c.stkMem := by
  simp only [Chip.dropHeld, Chip.count_stkMem, Chip.modFlow_stkMem, Chip.modKeyFlow_stkMem, Chip.raise_stkMem, ite_stkMem,
      ite_self]

/-! ## Circulation -/

theorem Chip.updateShortfall_stkMem (c : Chip) (k : Lnk) (dir : Nat) : (Chip.updateShortfall c k dir).stkMem = c.stkMem := by
  simp only [Chip.updateShortfall, Chip.raise_stkMem, Chip.setFld_stkMem, Chip.setRaw_stkMem, ite_stkMem, ite_self]
theorem Chip.syncSched_stkMem (c : Chip) (k : Lnk) : (Chip.syncSched c k).stkMem = c.stkMem := by
  simp only [Chip.syncSched, Chip.updateShortfall_stkMem]
theorem Chip.syncCirc_stkMem (c : Chip) : (Chip.syncCirc c).stkMem = c.stkMem := by
  simp only [Chip.syncCirc, Chip.syncSched_stkMem]
theorem Chip.withEntry_stkMem (c : Chip) (f : Nat) (w g l d : Word) (st : Nat) :
    (Chip.withEntry c f w g l d st).stkMem = c.stkMem := by
  simp only [Chip.withEntry, Chip.modFlow_stkMem, Chip.setFlowState_stkMem, Chip.setReg_stkMem]
theorem Chip.writeImage_stkMem (c : Chip) : (Chip.writeImage c).stkMem = c.stkMem := by unfold Chip.writeImage; rfl
theorem Chip.reportAdmit_stkMem (c : Chip) (f code : Nat) : (Chip.reportAdmit c f code).stkMem = c.stkMem := by
  simp only [Chip.reportAdmit, Chip.setFld_stkMem]
theorem Chip.restoreStaging_stkMem (c : Chip) (f : Nat) : (Chip.restoreStaging c f).stkMem = c.stkMem := by
  simp only [Chip.restoreStaging, Chip.setReg_stkMem]
theorem Chip.dropCells_stkMem (c : Chip) (f : Nat) : (Chip.dropCells c f).stkMem = c.stkMem := by
  unfold Chip.dropCells
  repeat' (first
    | with_reducible rfl | simp only [Chip.modLink_stkMem, Chip.setOutQ_stkMem] | split
    | (refine (foldl_stkMem ?_ _ _).trans ?_; intro c a))
theorem Chip.dropSurf_stkMem (c : Chip) (f : Nat) : (Chip.dropSurf c f).stkMem = c.stkMem := by
  simp only [Chip.dropSurf]
theorem Chip.forgetMsgs_stkMem (c : Chip) (f : Nat) : (Chip.forgetMsgs c f).stkMem = c.stkMem := by
  simp only [Chip.forgetMsgs, Chip.dropHeld_stkMem, Chip.modKeyFlow_stkMem, Chip.modMuni_stkMem]
theorem Chip.freeFlow_stkMem (c : Chip) (f : Nat) : (Chip.freeFlow c f).stkMem = c.stkMem := by
  simp only [Chip.freeFlow, Chip.dropCells_stkMem, Chip.dropSurf_stkMem, Chip.flowGone_stkMem, Chip.forgetMsgs_stkMem,
      Chip.modFlow_stkMem, Chip.setFld_stkMem, Chip.setFlowState_stkMem, Chip.setReg_stkMem]
theorem Chip.deleteFlow_stkMem (c : Chip) (f : Nat) (w g l d : Word) : (Chip.deleteFlow c f w g l d).stkMem = c.stkMem := by
  unfold Chip.deleteFlow
  repeat' (first
    | with_reducible rfl | simp only [Chip.dropHeld_stkMem, Chip.freeFlow_stkMem, Chip.modFlow_stkMem,
        Chip.withEntry_stkMem] | split)
theorem Chip.failSpare_stkMem (c : Chip) (f : Nat) : (Chip.failSpare c f).stkMem = c.stkMem := by
  unfold Chip.failSpare
  repeat' (first
    | with_reducible rfl | simp only [Chip.retireSpare_stkMem] | split | (refine (foldl_stkMem ?_ _ _).trans ?_; intro c a)
    | rfl)
theorem Chip.placeEntry_stkMem (c : Chip) (f : Nat) : (Chip.placeEntry c f).stkMem = c.stkMem := by
  unfold Chip.placeEntry
  repeat' (first
    | with_reducible rfl | simp only [Chip.modFlow_stkMem, Chip.noteRepair_stkMem, ite_stkMem] | split)
theorem Chip.commitFlow_stkMem (c : Chip) (f : Nat) (w : Word) : (Chip.commitFlow c f w).stkMem = c.stkMem := by
  simp only [Chip.commitFlow, Chip.deleteFlow_stkMem, Chip.placeEntry_stkMem, Chip.reportAdmit_stkMem,
      Chip.restoreStaging_stkMem, Chip.syncCirc_stkMem, Chip.withEntry_stkMem, Chip.writeImage_stkMem, ite_stkMem, ite_self]
theorem Chip.writeFlowCfg_stkMem (c : Chip) (f : Nat) (w : Word) : (Chip.writeFlowCfg c f w).stkMem = c.stkMem := by
  simp only [Chip.writeFlowCfg, Chip.commitFlow_stkMem, Chip.countLockIgn_stkMem, ite_stkMem, ite_self]
theorem Chip.writeStaged_stkMem (c : Chip) (f : Nat) (a : Nat) (v : Word) : (Chip.writeStaged c f a v).stkMem = c.stkMem := by
  simp only [Chip.writeStaged, Chip.writeMasked_stkMem, ite_stkMem, ite_self]
theorem Chip.moveToSpare_stkMem (c : Chip) (f : Nat) : (Chip.moveToSpare c f).stkMem = c.stkMem := by
  unfold Chip.moveToSpare
  repeat' (first
    | with_reducible rfl | simp only [Chip.failSpare_stkMem, Chip.modFlow_stkMem, Chip.noteExhausted_stkMem,
        Chip.noteRepair_stkMem, Chip.raise_stkMem, Chip.writeImage_stkMem] | split)
theorem Chip.entryLost_stkMem (c : Chip) (f : Nat) : (Chip.entryLost c f).stkMem = c.stkMem := by
  simp only [Chip.entryLost, Chip.count_stkMem, Chip.dropCells_stkMem, Chip.failSpare_stkMem, Chip.modFlow_stkMem,
      Chip.raise_stkMem, Chip.setFld_stkMem, Chip.setFlowState_stkMem, ite_stkMem, ite_self]
theorem Chip.writeCircCtrl_stkMem (c : Chip) (v : Word) : (Chip.writeCircCtrl c v).stkMem = c.stkMem := by
  unfold Chip.writeCircCtrl
  repeat' (first
    | with_reducible rfl | simp only [Chip.clearRegs_stkMem, Chip.writeMasked_stkMem] | split
    | (refine (when_stkMem ?_ _ _).trans ?_; intro c) | rfl)
theorem Chip.takeDemand_stkMem (c : Chip) (k : Lnk) (m : DemandPart) : (Chip.takeDemand c k m).stkMem = c.stkMem := by
  unfold Chip.takeDemand
  repeat' (first
    | with_reducible rfl | simp only [Chip.modSched_stkMem, Chip.setFld_stkMem] | split
    | (refine (when_stkMem ?_ _ _).trans ?_; intro c))
theorem Chip.takeAllot_stkMem (c : Chip) (k : Lnk) (m : AllotPart) : (Chip.takeAllot c k m).stkMem = c.stkMem := by
  simp only [Chip.takeAllot, Chip.modLink_stkMem, ite_stkMem, ite_self]
theorem Chip.partnerEpoch_stkMem (c : Chip) (k : Lnk) : (Chip.partnerEpoch c k).stkMem = c.stkMem := by
  unfold Chip.partnerEpoch
  repeat' (first
    | with_reducible rfl | simp only [Chip.modLink_stkMem, Chip.queueLmc_stkMem] | split
    | (refine (foldl_stkMem ?_ _ _).trans ?_; intro c a))
theorem Chip.storeAllot_stkMem (k : Lnk) (dir : Nat) (c : Chip) (x : AFlow) : (Chip.storeAllot k dir c x).stkMem = c.stkMem :=
    by
  simp only [Chip.storeAllot, Chip.count_stkMem, Chip.raise_stkMem, Chip.setFld_stkMem, ite_stkMem, ite_self]
theorem Chip.computeDir_stkMem (c : Chip) (k : Lnk) (dir cap : Nat) : (Chip.computeDir c k dir cap).stkMem = c.stkMem := by
  unfold Chip.computeDir
  repeat' (first
    | with_reducible rfl | simp only [Chip.modSched_stkMem, Chip.setFld_stkMem, Chip.storeAllot_stkMem, ite_stkMem,
        ite_self] | split | (refine (foldl_stkMem ?_ _ _).trans ?_; intro c a))
theorem Chip.sendAllot_stkMem (c : Chip) (k : Lnk) (cap : Nat) : (Chip.sendAllot c k cap).stkMem = c.stkMem := by
  unfold Chip.sendAllot
  repeat' (first
    | with_reducible rfl | simp only [Chip.modSched_stkMem, Chip.queueLmc_stkMem] | split
    | (refine (foldl_stkMem ?_ _ _).trans ?_; intro c a) | rfl)
theorem Chip.countDecl_stkMem (c : Chip) (k : Lnk) : (Chip.countDecl c k).stkMem = c.stkMem := by
  simp only [Chip.countDecl, Chip.setFld_stkMem]

/-! ## Turn -/

theorem Chip.turnRefused_stkMem (c : Chip) (k : Lnk) (reason : Nat) : (Chip.turnRefused c k reason).stkMem = c.stkMem := by
  simp only [Chip.turnRefused, Chip.count_stkMem, Chip.modSched_stkMem, Chip.raise_stkMem, ite_stkMem, ite_self]
theorem Chip.lastBcnts_stkMem (c : Chip) (ls : List Nat) : (Chip.lastBcnts c ls).2.stkMem = c.stkMem := by
  have one : ∀ (xs : List Nat) (b : List Byte × Chip),
      (xs.foldl (fun (acc : List Byte × Chip) _ => (acc.1 ++ toBytes 2 (Config.freeWord acc.2.fresh.1).toNat,
          acc.2.fresh.2)) b).2.stkMem = b.2.stkMem := by
    intro xs; induction xs with
    | nil => intro b; rfl
    | cons x xs ih => intro b; rw [List.foldl_cons, ih, Chip.fresh_stkMem]
  unfold Chip.lastBcnts
  dsimp only
  rw [one]
theorem Chip.lastBcnts_stkMem2 (c : Chip) (ls : List Nat) {y0 e0} (hEq_ : (Chip.lastBcnts c ls) = (y0,
    e0)) : e0.stkMem = c.stkMem := by
  have := Chip.lastBcnts_stkMem c ls; rw [hEq_] at this; exact this
theorem Chip.startTurn_stkMem (c : Chip) (k : Lnk) (a : Arr) (decider : Bool) (ls : List Nat) :
    (Chip.startTurn c k a decider ls).stkMem = c.stkMem := by
  unfold Chip.startTurn
  repeat' (first
    | with_reducible rfl | simp only [Chip.modLane_stkMem, Chip.modLink_stkMem, Chip.setFld_stkMem] | split
    | (refine (foldl_stkMem ?_ _ _).trans ?_; intro c a))
theorem Chip.tryTurn_stkMem (c : Chip) (k : Lnk) (a : Arr) : (Chip.tryTurn c k a).stkMem = c.stkMem := by
  unfold Chip.tryTurn
  repeat' (first
    | with_reducible rfl | simp only [Chip.count_stkMem, Chip.lastBcnts_stkMem, Chip.modSched_stkMem,
        Chip.queueUrgent_stkMem, Chip.startTurn_stkMem, Chip.turnRefused_stkMem, ite_stkMem] | split
    | exact Chip.lastBcnts_stkMem2 (hEq_ := by assumption) | rw [Chip.lastBcnts_stkMem2 (hEq_ := by assumption)]
    | exact Chip.maintRequest_stkMem2 (hEq_ := by assumption) | rw [Chip.maintRequest_stkMem2 (hEq_ := by assumption)])
theorem Chip.decideAuto_stkMem (c : Chip) (k : Lnk) : (Chip.decideAuto c k).stkMem = c.stkMem := by
  simp only [Chip.decideAuto, Chip.modSched_stkMem, Chip.tryTurn_stkMem, ite_stkMem, ite_self]
theorem Chip.holdTarget_stkMem (c : Chip) (k : Lnk) (a : Arr) : (Chip.holdTarget c k a).stkMem = c.stkMem := by
  simp only [Chip.holdTarget, Chip.tryTurn_stkMem, ite_stkMem, ite_self]
theorem Chip.decideTurn_stkMem (c : Chip) (k : Lnk) : (Chip.decideTurn c k).stkMem = c.stkMem := by
  unfold Chip.decideTurn
  repeat' (first
    | with_reducible rfl | simp only [Chip.decideAuto_stkMem, Chip.holdTarget_stkMem, ite_stkMem] | split)
theorem Chip.sendTurnAck_stkMem (c : Chip) (k : Lnk) (code : Nat) (bs : List Byte) :
    (Chip.sendTurnAck c k code bs).stkMem = c.stkMem := by
  simp only [Chip.sendTurnAck, Chip.queueUrgent_stkMem]
theorem Chip.takeTurnReq_stkMem (c : Chip) (k : Lnk) (a : Arr) (mask : Nat) :
    (Chip.takeTurnReq c k a mask).stkMem = c.stkMem := by
  unfold Chip.takeTurnReq
  repeat' (first
    | with_reducible rfl | simp only [Chip.lastBcnts_stkMem, Chip.sendTurnAck_stkMem, Chip.startTurn_stkMem, ite_stkMem]
    | split | exact Chip.lastBcnts_stkMem2 (hEq_ := by assumption) | rw [Chip.lastBcnts_stkMem2 (hEq_ := by assumption)]
    | exact Chip.maintRequest_stkMem2 (hEq_ := by assumption) | rw [Chip.maintRequest_stkMem2 (hEq_ := by assumption)])
theorem Chip.armLanes_stkMem (c : Chip) (t : Turn) : (Chip.armLanes c t).stkMem = c.stkMem := by
  unfold Chip.armLanes
  repeat' (first
    | with_reducible rfl | simp only [Chip.modLane_stkMem, ite_stkMem, ite_self] | split
    | (refine (foldl_stkMem ?_ _ _).trans ?_; intro c a) | rfl)
theorem Chip.abandonTurn_stkMem (c : Chip) (k : Lnk) : (Chip.abandonTurn c k).stkMem = c.stkMem := by
  simp only [Chip.abandonTurn, Chip.count_stkMem, Chip.modLink_stkMem]
theorem Chip.confirmDeadline_stkMem (c : Chip) (k : Lnk) : (Chip.confirmDeadline c k).stkMem = c.stkMem := by
  unfold Chip.confirmDeadline
  repeat' (first
    | with_reducible rfl | simp only [Chip.count_stkMem, Chip.modLane_stkMem, Chip.modLink_stkMem, Chip.turnRefused_stkMem,
        ite_stkMem, ite_self] | split | (refine (foldl_stkMem ?_ _ _).trans ?_; intro c a))
theorem Chip.abortTurnLane_stkMem (k : Lnk) (c : Chip) (l : Nat) : (Chip.abortTurnLane k c l).stkMem = c.stkMem := by
  simp only [Chip.abortTurnLane, Chip.count_stkMem, Chip.modLane_stkMem, Chip.queueLmc_stkMem, Chip.raiseOpen_stkMem,
      Chip.receiverRelease_stkMem, Chip.transmitterRelease_stkMem, ite_stkMem, ite_self]
theorem Chip.readyDeadline_stkMem (c : Chip) (k : Lnk) : (Chip.readyDeadline c k).stkMem = c.stkMem := by
  unfold Chip.readyDeadline
  repeat' (first
    | with_reducible rfl | simp only [Chip.abortTurnLane_stkMem, Chip.modLink_stkMem, ite_stkMem] | split
    | (refine (foldl_stkMem ?_ _ _).trans ?_; intro c a))
theorem Chip.enterService_stkMem (c : Chip) (l : Nat) : (Chip.enterService c l).stkMem = c.stkMem := by
  simp only [Chip.enterService, Chip.count_stkMem, Chip.modLane_stkMem, Chip.setFld_stkMem]
theorem Chip.turnBoundary_stkMem (c : Chip) (k : Lnk) : (Chip.turnBoundary c k).stkMem = c.stkMem := by
  unfold Chip.turnBoundary
  repeat' (first
    | with_reducible rfl | simp only [Chip.confirmDeadline_stkMem, Chip.enterService_stkMem, Chip.maintDrop_stkMem,
        Chip.modLink_stkMem, Chip.modSched_stkMem, Chip.readyDeadline_stkMem, Chip.setFld_stkMem, Chip.syncMaps_stkMem,
        ite_stkMem] | split | (refine (foldl_stkMem ?_ _ _).trans ?_; intro c a))

/-! ## Keys -/

theorem Chip.endKd_stkMem (c : Chip) (dst code : Nat) : (Chip.endKd c dst code).stkMem = c.stkMem := by
  simp only [Chip.endKd, Chip.raise_stkMem, Chip.setFld_stkMem, ite_stkMem, ite_self]
theorem Chip.setRegBytes_stkMem (c : Chip) (addr : Nat → Nat) (bs : List Byte) :
    (Chip.setRegBytes c addr bs).stkMem = c.stkMem := by
  unfold Chip.setRegBytes
  repeat' (first
    | with_reducible rfl | simp only [Chip.setReg_stkMem] | split | (refine (foldl_stkMem ?_ _ _).trans ?_; intro c a) | rfl)
theorem Chip.persistSlots_stkMem (c : Chip) (dst : Nat) (slots : Cells KeySlot) (inv : Option Nat) :
    (Chip.persistSlots c dst slots inv).stkMem = c.stkMem := by
  unfold Chip.persistSlots
  repeat' (first
    | with_reducible rfl | simp only [Chip.endKd_stkMem, Chip.modMuni_stkMem] | split
    | exact Chip.ownerWrite_stkMem2 (hEq_ := by assumption) | rw [Chip.ownerWrite_stkMem2 (hEq_ := by assumption)])
theorem Chip.commitSlot_stkMem (c : Chip) (dst : Nat) (x : KeySlot) (persist : Bool) (inv : Option Nat) :
    (Chip.commitSlot c dst x persist inv).stkMem = c.stkMem := by
  unfold Chip.commitSlot
  repeat' (first
    | with_reducible rfl | simp only [Chip.endKd_stkMem, Chip.loseFlowKey_stkMem, Chip.orphan_stkMem,
        Chip.persistSlots_stkMem, Chip.setSlot_stkMem, ite_stkMem] | split
    | (refine (foldl_stkMem ?_ _ _).trans ?_; intro c a))
theorem Chip.placeKey_stkMem (c : Chip) (dst : Nat) (x : KeySlot) (key : List Byte) :
    (Chip.placeKey c dst x key).stkMem = c.stkMem := by
  simp only [Chip.placeKey, Chip.commitSlot_stkMem, Chip.fillSlotKey_stkMem]
theorem Chip.parentKey_stkMem (c : Chip) (p : Nat) : (Chip.parentKey c p).2.stkMem = c.stkMem := by
  unfold Chip.parentKey
  repeat' (first
    | with_reducible rfl | simp only [Chip.useSlot_stkMem] | split | exact Chip.useSlot_stkMem2 (hEq_ := by assumption)
    | rw [Chip.useSlot_stkMem2 (hEq_ := by assumption)] | rfl)
theorem Chip.parentKey_stkMem2 (c : Chip) (p : Nat) {y0 e0} (hEq_ : (Chip.parentKey c p) = (y0, e0)) : e0.stkMem = c.stkMem :=
    by
  have := Chip.parentKey_stkMem c p; rw [hEq_] at this; exact this
theorem Chip.kdDerive_stkMem (c : Chip) (v : Word) : (Chip.kdDerive c v).stkMem = c.stkMem := by
  unfold Chip.kdDerive
  repeat' (first
    | with_reducible rfl | simp only [Chip.endKd_stkMem, Chip.placeKey_stkMem, ite_stkMem] | split
    | exact Chip.parentKey_stkMem2 (hEq_ := by assumption) | rw [Chip.parentKey_stkMem2 (hEq_ := by assumption)])
theorem Chip.kdImport_stkMem (c : Chip) (v : Word) : (Chip.kdImport c v).stkMem = c.stkMem := by
  simp only [Chip.kdImport, Chip.endKd_stkMem, Chip.placeKey_stkMem, ite_stkMem, ite_self]
theorem Chip.kdEcdh_stkMem (c : Chip) (v : Word) : (Chip.kdEcdh c v).stkMem = c.stkMem := by
  unfold Chip.kdEcdh
  repeat' (first
    | with_reducible rfl | simp only [Chip.endKd_stkMem, Chip.fresh_stkMem, Chip.placeKey_stkMem, Chip.random_stkMem,
        Chip.setRegBytes_stkMem, ite_stkMem, ite_self] | split | exact Chip.fresh_stkMem2 (hEq_ := by assumption)
    | rw [Chip.fresh_stkMem2 (hEq_ := by assumption)] | exact Chip.random_stkMem2 (hEq_ := by assumption)
    | rw [Chip.random_stkMem2 (hEq_ := by assumption)])
theorem Chip.kdClear_stkMem (c : Chip) (v : Word) : (Chip.kdClear c v).stkMem = c.stkMem := by
  simp only [Chip.kdClear, Chip.commitSlot_stkMem, Chip.endKd_stkMem, ite_stkMem, ite_self]
theorem Chip.kdInvalidate_stkMem (c : Chip) (v : Word) : (Chip.kdInvalidate c v).stkMem = c.stkMem := by
  simp only [Chip.kdInvalidate, Chip.commitSlot_stkMem]
theorem Chip.runKd_stkMem (c : Chip) (v : Word) : (Chip.runKd c v).stkMem = c.stkMem := by
  unfold Chip.runKd
  repeat' (first
    | with_reducible rfl | simp only [Chip.endKd_stkMem, Chip.kdClear_stkMem, Chip.kdDerive_stkMem, Chip.kdEcdh_stkMem,
        Chip.kdImport_stkMem, Chip.kdInvalidate_stkMem, ite_stkMem] | split)
theorem Chip.endAtst_stkMem (c : Chip) (bit code : Nat) : (Chip.endAtst c bit code).stkMem = c.stkMem := by
  simp only [Chip.endAtst, Chip.setFld_stkMem]
theorem Chip.runAtst_stkMem (c : Chip) (nonce : List Byte) (epoch : Nat) : (Chip.runAtst c nonce epoch).stkMem = c.stkMem :=
    by
  unfold Chip.runAtst
  repeat' (first
    | with_reducible rfl | simp only [Chip.endAtst_stkMem, Chip.fresh_stkMem, Chip.setFld_stkMem, Chip.setRegBytes_stkMem,
        ite_stkMem] | split | exact Chip.fresh_stkMem2 (hEq_ := by assumption)
    | rw [Chip.fresh_stkMem2 (hEq_ := by assumption)])
theorem Chip.runCert_stkMem (c : Chip) (burnOk : Bool) : (Chip.runCert c burnOk).stkMem = c.stkMem := by
  simp only [Chip.runCert, Chip.countBad_stkMem, Chip.endAtst_stkMem, Chip.modMuni_stkMem, ite_stkMem, ite_self]
theorem Chip.endLc_stkMem (c : Chip) (code : Nat) : (Chip.endLc c code).stkMem = c.stkMem := by
  simp only [Chip.endLc, Chip.setFld_stkMem]
theorem Chip.runLc_stkMem (c : Chip) (v : Word) (burnOk : Bool) : (Chip.runLc c v burnOk).stkMem = c.stkMem := by
  simp only [Chip.runLc, Chip.endLc_stkMem, Chip.raise_stkMem, Chip.setFld_stkMem, ite_stkMem, ite_self]
theorem Chip.runKeys_stkMem  (x0 : Nat) (c0 : Chip) : (Chip.runKeys x0 c0).stkMem = c0.stkMem := by
  induction x0 generalizing c0 <;> unfold Chip.runKeys <;> repeat' (first
    | with_reducible rfl | with_reducible assumption | (simp only [Chip.modMuni_stkMem, Chip.runAtst_stkMem,
        Chip.runCert_stkMem, Chip.runKd_stkMem, Chip.runLc_stkMem, ite_stkMem, apply_ite Prod.snd, *]) | split
    | (refine (foldl_stkMem ?_ _ _).trans ?_; intro c a) | (refine foldl_stkMem ?_ _ _; intro c a)
    | (refine (when_stkMem ?_ _ _).trans ?_; intro c) | (refine when_stkMem ?_ _ _; intro c) | rfl)
theorem Chip.queueKey_stkMem (c : Chip) (q : KeyCmd) : (Chip.queueKey c q).stkMem = c.stkMem := by
  simp only [Chip.queueKey, Chip.modMuni_stkMem, Chip.runKeys_stkMem]
theorem Chip.keyWriteEnded_stkMem (c : Chip) (ok : Bool) : (Chip.keyWriteEnded c ok).stkMem = c.stkMem := by
  unfold Chip.keyWriteEnded
  repeat' (first
    | with_reducible rfl | simp only [Chip.endKd_stkMem, Chip.loseFlowKey_stkMem, Chip.modMuni_stkMem, Chip.orphan_stkMem,
        Chip.runKeys_stkMem, ite_stkMem] | split | (refine (foldl_stkMem ?_ _ _).trans ?_; intro c a))
theorem Chip.writeKdCmd_stkMem (c : Chip) (v : Word) : (Chip.writeKdCmd c v).stkMem = c.stkMem := by
  simp only [Chip.writeKdCmd, Chip.queueKey_stkMem, Chip.setFld_stkMem, Chip.writeMasked_stkMem, ite_stkMem, ite_self]
theorem Chip.writeAtstCtrl_stkMem (c : Chip) (v : Word) (burnOk : Bool) : (Chip.writeAtstCtrl c v burnOk).stkMem = c.stkMem :=
    by
  simp only [Chip.writeAtstCtrl, Chip.clearRegs_stkMem, Chip.queueKey_stkMem, Chip.setFld_stkMem, ite_stkMem, ite_self]
theorem Chip.writeLcCtrl_stkMem (c : Chip) (v : Word) (burnOk : Bool) : (Chip.writeLcCtrl c v burnOk).stkMem = c.stkMem := by
  simp only [Chip.writeLcCtrl, Chip.queueKey_stkMem, Chip.setFld_stkMem, Chip.writeMasked_stkMem, ite_stkMem, ite_self]
theorem Chip.writeLcSeed_stkMem (c : Chip) (i : Nat) (v : Word) : (Chip.writeLcSeed c i v).stkMem = c.stkMem := by
  simp only [Chip.writeLcSeed, Chip.modMuni_stkMem, Chip.setReg_stkMem]
theorem Chip.writeFlowKey_stkMem (c : Chip) (f : Nat) (v : Word) : (Chip.writeFlowKey c f v).stkMem = c.stkMem := by
  simp only [Chip.writeFlowKey, Chip.modKeyFlow_stkMem, Chip.setFld_stkMem, Chip.writeMasked_stkMem, ite_stkMem, ite_self]
theorem Chip.endpointDiscard_stkMem (c : Chip) (f : Nat) : (Chip.endpointDiscard c f).stkMem = c.stkMem := by
  unfold Chip.endpointDiscard
  repeat' (first
    | with_reducible rfl | simp only [Chip.count_stkMem] | split)
theorem Chip.sealMsg_stkMem (c : Chip) (f cls : Nat) (cells : List (Nat × List Byte)) :
    (Chip.sealMsg c f cls cells).stkMem = c.stkMem := by
  unfold Chip.sealMsg
  repeat' (first
    | with_reducible rfl | simp only [Chip.endpointDiscard_stkMem, Chip.modKeyFlow_stkMem, Chip.queueCells_stkMem,
        ite_stkMem] | split | exact Chip.useSlot_stkMem2 (hEq_ := by assumption)
    | rw [Chip.useSlot_stkMem2 (hEq_ := by assumption)])
theorem Chip.openWith_stkMem (c : Chip) (k : Lnk) (f kgen : Nat) (m : SealedMsg) (key : List Byte) (old : Bool) :
    (Chip.openWith c k f kgen m key old).stkMem = c.stkMem := by
  unfold Chip.openWith
  repeat' (first
    | with_reducible rfl | simp only [Chip.count_stkMem, Chip.emit_stkMem, Chip.modKeyFlow_stkMem, Chip.raise_stkMem,
        ite_stkMem, ite_self] | split)
theorem Chip.keyFor_stkMem (c : Chip) (f kgen : Nat) : (Chip.keyFor c f kgen).2.stkMem = c.stkMem := by
  unfold Chip.keyFor
  repeat' (first
    | with_reducible rfl | simp only [Chip.useSlot_stkMem] | split | exact Chip.useSlot_stkMem2 (hEq_ := by assumption)
    | rw [Chip.useSlot_stkMem2 (hEq_ := by assumption)])
theorem Chip.keyFor_stkMem2 (c : Chip) (f kgen : Nat) {y0 e0} (hEq_ : (Chip.keyFor c f kgen) = (y0,
    e0)) : e0.stkMem = c.stkMem := by
  have := Chip.keyFor_stkMem c f kgen; rw [hEq_] at this; exact this
theorem Chip.rejectSealed_stkMem (c : Chip) (f : Nat) : (Chip.rejectSealed c f).stkMem = c.stkMem := by
  simp only [Chip.rejectSealed, Chip.count_stkMem, Chip.raise_stkMem]
theorem Chip.openKept_stkMem (c : Chip) (k : Lnk) (f : Nat) (m : SealedMsg) (key : List Byte) :
    (Chip.openKept c k f m key).stkMem = c.stkMem := by
  unfold Chip.openKept
  repeat' (first
    | with_reducible rfl | simp only [Chip.openWith_stkMem, Chip.rejectSealed_stkMem, ite_stkMem, ite_self] | split)
theorem Chip.openMsg_stkMem (c : Chip) (k : Lnk) (f : Nat) (m : SealedMsg) : (Chip.openMsg c k f m).stkMem = c.stkMem := by
  unfold Chip.openMsg
  repeat' (first
    | with_reducible rfl | simp only [Chip.count_stkMem, Chip.modFlow_stkMem, Chip.modKeyFlow_stkMem, Chip.modMuni_stkMem,
        Chip.openKept_stkMem, Chip.openWith_stkMem, Chip.raise_stkMem, Chip.rejectSealed_stkMem, ite_stkMem, ite_self]
    | split | exact Chip.keyFor_stkMem2 (hEq_ := by assumption) | rw [Chip.keyFor_stkMem2 (hEq_ := by assumption)])
theorem Chip.openHeld_stkMem (c : Chip) (f : Nat) : (Chip.openHeld c f).stkMem = c.stkMem := by
  unfold Chip.openHeld
  repeat' (first
    | with_reducible rfl | simp only [Chip.dropHeld_stkMem, Chip.modFlow_stkMem, Chip.modKeyFlow_stkMem,
        Chip.openKept_stkMem] | split | (refine (foldl_stkMem ?_ _ _).trans ?_; intro c a))
theorem Chip.dropRebind_stkMem (c : Chip) (f : Nat) : (Chip.dropRebind c f).stkMem = c.stkMem := by
  simp only [Chip.dropRebind, Chip.modKeyFlow_stkMem, Chip.setFld_stkMem]
theorem Chip.applyRebind_stkMem (c : Chip) (f : Nat) : (Chip.applyRebind c f).stkMem = c.stkMem := by
  unfold Chip.applyRebind
  repeat' (first
    | with_reducible rfl | simp only [Chip.dropRebind_stkMem, Chip.modKeyFlow_stkMem, Chip.openHeld_stkMem,
        Chip.setFld_stkMem, Chip.setFlowState_stkMem, ite_stkMem, ite_self] | split)
theorem Chip.applyRebinds_stkMem (c : Chip) : (Chip.applyRebinds c).stkMem = c.stkMem := by
  unfold Chip.applyRebinds
  repeat' (first
    | with_reducible rfl | simp only [Chip.applyRebind_stkMem] | split | (refine (foldl_stkMem ?_ _ _).trans ?_; intro c a)
    | rfl)
theorem Chip.skipRecords_stkMem (c : Chip) (n : Nat) : (Chip.skipRecords c n).stkMem = c.stkMem := by
  simp only [Chip.skipRecords, Chip.count_stkMem, Chip.modMuni_stkMem, Chip.raise_stkMem, ite_stkMem, ite_self]
theorem Chip.liveRecords_stkMem (c : Chip) : (Chip.liveRecords c).stkMem = c.stkMem := by
  unfold Chip.liveRecords
  repeat' (first
    | with_reducible rfl | simp only [Chip.count_stkMem, Chip.fillSlotKey_stkMem, Chip.modMuni_stkMem, Chip.setSlot_stkMem,
        Chip.skipRecords_stkMem] | split | exact Chip.fillSlotKey_stkMem2 (hEq_ := by assumption)
    | rw [Chip.fillSlotKey_stkMem2 (hEq_ := by assumption)] | (refine (foldl_stkMem ?_ _ _).trans ?_; intro c a))
theorem Chip.entropyTest_stkMem (c : Chip) (pass : Bool) : (Chip.entropyTest c pass).stkMem = c.stkMem := by
  simp only [Chip.entropyTest, Chip.fresh_stkMem, Chip.liveRecords_stkMem, Chip.modMuni_stkMem, Chip.raise_stkMem,
      Chip.setFld_stkMem, ite_stkMem, ite_self]
theorem Chip.remaskAll_stkMem (c : Chip) : (Chip.remaskAll c).stkMem = c.stkMem := by
  unfold Chip.remaskAll
  repeat' (first
    | with_reducible rfl | simp only [Chip.random_stkMem, Chip.setSlot_stkMem, ite_stkMem, ite_self] | split
    | exact Chip.random_stkMem2 (hEq_ := by assumption) | rw [Chip.random_stkMem2 (hEq_ := by assumption)]
    | (refine (foldl_stkMem ?_ _ _).trans ?_; intro c a) | rfl)
theorem Chip.remaskPass_stkMem (c : Chip) : (Chip.remaskPass c).stkMem = c.stkMem := by
  unfold Chip.remaskPass
  repeat' (first
    | with_reducible rfl | simp only [Chip.maintRefuse_stkMem, Chip.modMuni_stkMem, Chip.remaskAll_stkMem, ite_stkMem]
    | split)
theorem Chip.remaskPeriod_stkMem (c : Chip) : (Chip.remaskPeriod c).stkMem = c.stkMem := by
  simp only [Chip.remaskPeriod, Chip.count_stkMem, Chip.modMuni_stkMem, Chip.raise_stkMem, Chip.remaskPass_stkMem,
      ite_stkMem, ite_self]
theorem Chip.repairSlot_stkMem (c : Chip) (s : Nat) : (Chip.repairSlot c s).stkMem = c.stkMem := by
  unfold Chip.repairSlot
  repeat' (first
    | with_reducible rfl | simp only [Chip.maintRefuse_stkMem, Chip.modCopp_stkMem, Chip.noteExhausted_stkMem,
        Chip.noteRepair_stkMem, Chip.ownerWrite_stkMem, Chip.retireSpare_stkMem, Chip.setSlot_stkMem, ite_stkMem, ite_self]
    | split | exact Chip.ownerWrite_stkMem2 (hEq_ := by assumption) | rw [Chip.ownerWrite_stkMem2 (hEq_ := by assumption)])
theorem Chip.scrubFinding_stkMem (c : Chip) (r : Nat × Bool) : (Chip.scrubFinding c r).stkMem = c.stkMem := by
  simp only [Chip.scrubFinding, Chip.makeBad_stkMem, Chip.modMuni_stkMem, Chip.repairSlot_stkMem, ite_stkMem, ite_self]
theorem Chip.clearKeyFolios_stkMem (c : Chip) : (Chip.clearKeyFolios c).stkMem = c.stkMem := by
  simp only [Chip.clearKeyFolios, Chip.ownerWrite_stkMem, ite_stkMem, ite_self]

/-! ## Coppice -/

theorem Chip.planeHit_stkMem (c : Chip) (plane flit : Nat) : (Chip.planeHit c plane flit).stkMem = c.stkMem := by
  unfold Chip.planeHit
  repeat' (first
    | with_reducible rfl | simp only [Chip.modCopp_stkMem, Chip.noteExhausted_stkMem, ite_stkMem] | split)
theorem Chip.loseCell_stkMem (c : Chip) (x0 : Option FabricCell) : (Chip.loseCell c x0).stkMem = c.stkMem := by
  induction x0 generalizing c <;> unfold Chip.loseCell <;> repeat' (first
    | with_reducible rfl | with_reducible assumption | (simp only [Chip.modLink_stkMem, Chip.setOutQ_stkMem,
        apply_ite Prod.snd, *]) | split | (refine (foldl_stkMem ?_ _ _).trans ?_; intro c a)
    | (refine foldl_stkMem ?_ _ _; intro c a) | (refine (when_stkMem ?_ _ _).trans ?_; intro c)
    | (refine when_stkMem ?_ _ _; intro c) | rfl)
theorem Chip.swapPlane_stkMem (c : Chip) : (Chip.swapPlane c).stkMem = c.stkMem := by
  unfold Chip.swapPlane
  repeat' (first
    | with_reducible rfl | simp only [Chip.modCopp_stkMem, Chip.noteRepair_stkMem, ite_stkMem] | split)
theorem Chip.wantRepair_stkMem (c : Chip) (unit row : Nat) : (Chip.wantRepair c unit row).stkMem = c.stkMem := by
  unfold Chip.wantRepair
  repeat' (first
    | with_reducible rfl | simp only [Chip.modCopp_stkMem, Chip.noteExhausted_stkMem, ite_stkMem, ite_self] | split)
theorem Chip.suspect_stkMem (c : Chip) (unit row : Nat) (uncor act : Bool) :
    (Chip.suspect c unit row uncor act).stkMem = c.stkMem := by
  simp only [Chip.suspect, Chip.modCopp_stkMem, Chip.wantRepair_stkMem, ite_stkMem, ite_self]
theorem Chip.burstError_stkMem (c : Chip) (addr bank row : Nat) (uncor head : Bool) :
    (Chip.burstError c addr bank row uncor head).stkMem = c.stkMem := by
  simp only [Chip.burstError, Chip.count_stkMem, Chip.setBurstBad_stkMem, Chip.suspect_stkMem, ite_stkMem, ite_self]
theorem Chip.startStkRepair_stkMem (c : Chip) (r : StkRepair) : (Chip.startStkRepair c r).stkMem = c.stkMem := by
  unfold Chip.startStkRepair
  repeat' (first
    | with_reducible rfl | simp only [Chip.modCopp_stkMem] | split | exact Chip.maintRequest_stkMem2 (hEq_ := by assumption)
    | rw [Chip.maintRequest_stkMem2 (hEq_ := by assumption)])
theorem Chip.startRepairOf_stkMem (c : Chip) (kind : Nat) : (Chip.startRepairOf c kind).stkMem = c.stkMem := by
  unfold Chip.startRepairOf
  repeat' (first
    | with_reducible rfl | simp only [Chip.startStkRepair_stkMem, ite_stkMem, ite_self] | split)
theorem Chip.bistDone_stkMem (c : Chip) (pass : Bool) : (Chip.bistDone c pass).stkMem = c.stkMem := by
  unfold Chip.bistDone
  repeat' (first
    | with_reducible rfl | simp only [Chip.addEntry_stkMem, Chip.maintDrop_stkMem, Chip.modCopp_stkMem, Chip.noteLast_stkMem,
        ite_stkMem, ite_self] | split)
theorem Chip.copyDone_stkMem (c : Chip) : (Chip.copyDone c).stkMem = c.stkMem := by
  unfold Chip.copyDone
  repeat' (first
    | with_reducible rfl | simp only [Chip.maintDrop_stkMem, Chip.modCopp_stkMem, Chip.noteRepair_stkMem] | split)
theorem Chip.scrubBurst_stkMem (ch bank : Nat) (c : Chip) (r : Nat × Nat × Bool) :
    (Chip.scrubBurst ch bank c r).stkMem = c.stkMem := by
  simp only [Chip.scrubBurst, Chip.count_stkMem, Chip.raiseOpen_stkMem, Chip.setBurstBad_stkMem, Chip.suspect_stkMem,
      ite_stkMem, ite_self]
theorem Chip.nextStretch_stkMem (c : Chip) : (Chip.nextStretch c).stkMem = c.stkMem := by
  simp only [Chip.nextStretch, Chip.count_stkMem, Chip.setFld_stkMem, ite_stkMem, ite_self]
theorem Chip.badSlice_stkMem (l : Nat) (c : Chip) (i : Nat) : (Chip.badSlice l c i).stkMem = c.stkMem := by
  simp only [Chip.badSlice, Chip.modCopp_stkMem, Chip.swapSlices_stkMem, ite_stkMem, ite_self]
theorem Chip.laneRepair_stkMem (c : Chip) (l : Nat) : (Chip.laneRepair c l).stkMem = c.stkMem := by
  unfold Chip.laneRepair
  repeat' (first
    | with_reducible rfl | simp only [Chip.modCopp_stkMem, Chip.takeLaneOut_stkMem, ite_stkMem] | split
    | exact Chip.maintRequest_stkMem2 (hEq_ := by assumption) | rw [Chip.maintRequest_stkMem2 (hEq_ := by assumption)])
theorem Chip.rerate_stkMem (c : Chip) (sw : Nat) : (Chip.rerate c sw).stkMem = c.stkMem := by
  have key : (if c.switchWorks sw then c else if sw < 2 then c.openSource sw else if 3 ≤ sw then c.syncPep (sw - 3) else c).stkMem =
      c.stkMem := by
    simp only [ite_stkMem, Chip.openSource_stkMem, Chip.syncPep_stkMem, ite_self]
  simp only [Chip.rerate, Chip.refeed_stkMem]
  rw [ite_stkMem, Chip.requestPower_stkMem, ite_self, key]
theorem Chip.badSegment_stkMem (sw : Nat) (c : Chip) (i : Nat) : (Chip.badSegment sw c i).stkMem = c.stkMem := by
  unfold Chip.badSegment
  repeat' (first
    | with_reducible rfl | simp only [Chip.modCopp_stkMem, Chip.noteExhausted_stkMem, Chip.noteRepair_stkMem,
        Chip.rerate_stkMem, ite_stkMem] | split)
theorem Chip.barPoints_stkMem (c : Chip) : (Chip.barPoints c).stkMem = c.stkMem := by
  simp only [Chip.barPoints, Chip.raiseOpen_stkMem, Chip.requestMapWrite_stkMem, Chip.setFld_stkMem, ite_stkMem, ite_self]
theorem Chip.slackOne_stkMem (c : Chip) (r : Nat × Nat) : (Chip.slackOne c r).stkMem = c.stkMem := by
  simp only [Chip.slackOne, Chip.barPoints_stkMem, Chip.modCopp_stkMem, Chip.raise_stkMem, Chip.raiseOpen_stkMem,
      Chip.setFld_stkMem, ite_stkMem, ite_self]
theorem Chip.writeCoppCtrl_stkMem (c : Chip) (v : Word) : (Chip.writeCoppCtrl c v).stkMem = c.stkMem := by
  unfold Chip.writeCoppCtrl
  repeat' (first
    | with_reducible rfl | simp only [Chip.clearRegs_stkMem, Chip.writeMasked_stkMem] | split
    | (refine (when_stkMem ?_ _ _).trans ?_; intro c) | rfl)
theorem Chip.writeScrbCtrl_stkMem (c : Chip) (v : Word) : (Chip.writeScrbCtrl c v).stkMem = c.stkMem := by
  unfold Chip.writeScrbCtrl
  repeat' (first
    | with_reducible rfl | simp only [Chip.clearRegs_stkMem, Chip.writeMasked_stkMem] | split
    | (refine (when_stkMem ?_ _ _).trans ?_; intro c) | rfl)

/-! ## Router -/

theorem Chip.moveArbiter_stkMem (c : Chip) : (Chip.moveArbiter c).stkMem = c.stkMem := by
  simp only [Chip.moveArbiter, Chip.fresh_stkMem]
theorem Chip.checkpoint_stkMem (c : Chip) : (Chip.checkpoint c).stkMem = c.stkMem := by
  simp only [Chip.checkpoint, Chip.moveArbiter_stkMem, Chip.setFld_stkMem, ite_stkMem, ite_self]
theorem Chip.voidCkpt_stkMem (c : Chip) : (Chip.voidCkpt c).stkMem = c.stkMem := by
  simp only [Chip.voidCkpt, Chip.setFld_stkMem, ite_stkMem, ite_self]
theorem Chip.loadTurn_stkMem (c : Chip) (k : Lnk) (saved : Option Turn) : (Chip.loadTurn c k saved).stkMem = c.stkMem := by
  simp only [Chip.loadTurn, Chip.modLink_stkMem, Chip.setFld_stkMem]
theorem Chip.loadImage_stkMem (c : Chip) : (Chip.loadImage c).stkMem = c.stkMem := by
  unfold Chip.loadImage
  repeat' (first
    | with_reducible rfl | simp only [Chip.modFlow_stkMem, Chip.setReg_stkMem] | split
    | (refine (foldl_stkMem ?_ _ _).trans ?_; intro c a))
theorem Chip.loadCkpt_stkMem (c : Chip) (k : Ckpt) : (Chip.loadCkpt c k).stkMem = c.stkMem := by
  unfold Chip.loadCkpt
  repeat' (first
    | with_reducible rfl | simp only [Chip.loadImage_stkMem, Chip.loadTurn_stkMem, Chip.restoreStaging_stkMem,
        Chip.setReg_stkMem] | split | (refine (foldl_stkMem ?_ _ _).trans ?_; intro c a))
theorem Chip.routerFault_stkMem (c : Chip) (src detail : Nat) : (Chip.routerFault c src detail).stkMem = c.stkMem := by
  simp only [Chip.routerFault, Chip.raise_stkMem]
theorem Chip.wantFailover_stkMem (c : Chip) (cause : Nat) : (Chip.wantFailover c cause).stkMem = c.stkMem :=
    by unfold Chip.wantFailover; rfl
theorem Chip.writeRoutCtrl_stkMem (c : Chip) (v : Word) : (Chip.writeRoutCtrl c v).stkMem = c.stkMem := by
  simp only [Chip.writeRoutCtrl, Chip.wantFailover_stkMem, Chip.writeMasked_stkMem, ite_stkMem, ite_self]
theorem Chip.holdLinks_stkMem (c : Chip) (b : Bool) : (Chip.holdLinks c b).stkMem = c.stkMem := by
  unfold Chip.holdLinks
  repeat' (first
    | with_reducible rfl | simp only [Chip.modLink_stkMem] | split | (refine (foldl_stkMem ?_ _ _).trans ?_; intro c a) | rfl)
theorem Chip.failover_stkMem (c : Chip) (cause : Nat) (badA badB badImage : Bool) :
    (Chip.failover c cause badA badB badImage).stkMem = c.stkMem := by
  unfold Chip.failover
  repeat' (first
    | with_reducible rfl | simp only [Chip.confirmDeadline_stkMem, Chip.count_stkMem, Chip.holdLinks_stkMem,
        Chip.loadCkpt_stkMem, Chip.raiseOpen_stkMem, Chip.setFld_stkMem, ite_stkMem] | split
    | (refine (when_stkMem ?_ _ _).trans ?_; intro c))
theorem Chip.restartDecision_stkMem (c : Chip) (k : Lnk) : (Chip.restartDecision c k).stkMem = c.stkMem := by
  simp only [Chip.restartDecision, Chip.modSched_stkMem]
theorem Chip.restartLink_stkMem (c : Chip) (k : Lnk) : (Chip.restartLink c k).stkMem = c.stkMem := by
  simp only [Chip.restartLink, Chip.computeDir_stkMem, Chip.countDecl_stkMem, Chip.modSched_stkMem,
      Chip.restartDecision_stkMem, Chip.sendAllot_stkMem, Chip.setFld_stkMem, Chip.syncSched_stkMem, ite_stkMem, ite_self]
theorem Chip.restart_stkMem (c : Chip) : (Chip.restart c).stkMem = c.stkMem := by
  unfold Chip.restart
  repeat' (first
    | with_reducible rfl | simp only [Chip.commitFlow_stkMem, Chip.count_stkMem, Chip.drainStalled_stkMem,
        Chip.fabricReady_stkMem, Chip.holdLinks_stkMem, Chip.modLink_stkMem, Chip.restartLink_stkMem, Chip.setFld_stkMem]
    | split | (refine (foldl_stkMem ?_ _ _).trans ?_; intro c a))
theorem Chip.endGap_stkMem (c : Chip) : (Chip.endGap c).stkMem = c.stkMem := by
  simp only [Chip.endGap, Chip.fresh_stkMem, Chip.setFld_stkMem, ite_stkMem, ite_self]
theorem Chip.retireCopy_stkMem (c : Chip) (copy : Nat) : (Chip.retireCopy c copy).stkMem = c.stkMem := by
  simp only [Chip.retireCopy, Chip.addEntry_stkMem, Chip.noteLast_stkMem, Chip.setFld_stkMem]
theorem Chip.proofEnds_stkMem (c : Chip) (pass : Bool) : (Chip.proofEnds c pass).stkMem = c.stkMem := by
  simp only [Chip.proofEnds, Chip.count_stkMem, Chip.retireCopy_stkMem, Chip.setFld_stkMem, ite_stkMem, ite_self]
theorem Chip.proof_stkMem (c : Chip) (x0 : ProofStep) : (Chip.proof c x0).stkMem = c.stkMem := by
  induction x0 generalizing c <;> unfold Chip.proof <;> repeat' (first
    | with_reducible rfl | with_reducible assumption | (simp only [Chip.proofEnds_stkMem, Chip.setFld_stkMem, ite_stkMem,
        apply_ite Prod.snd, ite_self, *]) | split | (refine (foldl_stkMem ?_ _ _).trans ?_; intro c a)
    | (refine foldl_stkMem ?_ _ _; intro c a) | (refine (when_stkMem ?_ _ _).trans ?_; intro c)
    | (refine when_stkMem ?_ _ _; intro c) | rfl)

end Sys2Proof.Machine
end

