-- ==== Sys2Proof/Laws/FrameBoot.lean ====
section
/-! SUPPORT. What leaves the bytes of the local Stacks as they are: the bridge, the cascade, start-up, pages and the power sequencer. -/

set_option linter.unusedSimpArgs false
set_option linter.unusedTactic false
set_option linter.unreachableTactic false

namespace Sys2Proof.Machine

/-! ## Bridge -/

theorem Chip.countCfgIgn_stkMem (c : Chip) : (Chip.countCfgIgn c).stkMem = c.stkMem := by
  simp only [Chip.countCfgIgn, Chip.count_stkMem]
theorem Chip.writeWinCtrl_stkMem (c : Chip) (w : Nat) (v : Word) : (Chip.writeWinCtrl c w v).stkMem = c.stkMem := by
  simp only [Chip.writeWinCtrl, Chip.countCfgIgn_stkMem, Chip.discardPrefetch_stkMem, Chip.setReg_stkMem,
      Chip.writeMasked_stkMem, ite_stkMem, ite_self]
theorem Chip.writeWinWord_stkMem (c : Chip) (w a : Nat) (v : Word) : (Chip.writeWinWord c w a v).stkMem = c.stkMem := by
  simp only [Chip.writeWinWord, Chip.countCfgIgn_stkMem, Chip.setReg_stkMem, Chip.writeMasked_stkMem, ite_stkMem, ite_self]
theorem Chip.writeLogRel_stkMem (c : Chip) (v : Word) : (Chip.writeLogRel c v).stkMem = c.stkMem := by
  simp only [Chip.writeLogRel, Chip.clearRegs_stkMem, Chip.setFld_stkMem, ite_stkMem, ite_self]
theorem Chip.writeBrdgCtrl_stkMem (c : Chip) (v : Word) : (Chip.writeBrdgCtrl c v).stkMem = c.stkMem := by
  simp only [Chip.writeBrdgCtrl, Chip.clearRegs_stkMem, Chip.setFld_stkMem, Chip.writeMasked_stkMem, ite_stkMem, ite_self]
theorem Chip.passed_stkMem (c : Chip) (r : FwdReq) : (Chip.passed c r).stkMem = c.stkMem := by
  unfold Chip.passed
  repeat' (first
    | with_reducible rfl | simp only [Chip.discardOver_stkMem, ite_stkMem, ite_self] | split)
theorem Chip.sendReq_stkMem (c : Chip) (r : FwdReq) (t : Nat) : (Chip.sendReq c r t).stkMem = c.stkMem := by
  simp only [Chip.sendReq, Chip.passed_stkMem, Chip.queueMsg_stkMem, Chip.syncTags_stkMem]
theorem Chip.forwardRequest_stkMem (c : Chip) : (Chip.forwardRequest c).stkMem = c.stkMem := by
  unfold Chip.forwardRequest
  repeat' (first
    | with_reducible rfl | simp only [Chip.sendReq_stkMem] | split)
theorem Chip.setBeyond_stkMem (c : Chip) (n : Nat) : (Chip.setBeyond c n).stkMem = c.stkMem := by
  unfold Chip.setBeyond
  repeat' (first
    | with_reducible rfl | simp only [Chip.count_stkMem, Chip.failTowards_stkMem, Chip.raise_stkMem, Chip.setFld_stkMem,
        ite_stkMem, ite_self] | split | (refine (foldl_stkMem ?_ _ _).trans ?_; intro c a))
theorem Chip.pollDone_stkMem (c : Chip) (r : FwdReq) (status : Nat) (data : List Byte) :
    (Chip.pollDone c r status data).stkMem = c.stkMem := by
  simp only [Chip.pollDone, Chip.dropReq_stkMem, Chip.setBeyond_stkMem]
theorem Chip.completion_stkMem (c : Chip) (k : Lnk) (f cls : Nat) (bytes : List Byte) (write : Bool) :
    (Chip.completion c k f cls bytes write).stkMem = c.stkMem := by
  unfold Chip.completion
  repeat' (first
    | with_reducible rfl | simp only [Chip.count_stkMem, Chip.endReq_stkMem, Chip.pollDone_stkMem, Chip.raise_stkMem,
        ite_stkMem, ite_self] | split)
theorem Chip.requestTimeout_stkMem (c : Chip) (t : Nat) : (Chip.requestTimeout c t).stkMem = c.stkMem := by
  unfold Chip.requestTimeout
  repeat' (first
    | with_reducible rfl | simp only [Chip.count_stkMem, Chip.endReq_stkMem, Chip.raise_stkMem, ite_stkMem, ite_self] | split)

/-! ## Cascade -/

theorem Chip.askPartner_stkMem (c : Chip) (k : Lnk) (x : Asker) (write : Bool) (addr : Nat) (data : List Byte) :
    (Chip.askPartner c k x write addr data).stkMem = c.stkMem := by
  unfold Chip.askPartner
  repeat' (first
    | with_reducible rfl | simp only [Chip.sendReq_stkMem] | split)
theorem Chip.writeCascPosn_stkMem (c : Chip) (v : Word) : (Chip.writeCascPosn c v).stkMem = c.stkMem := by
  simp only [Chip.writeCascPosn, Chip.writeMasked_stkMem, ite_stkMem, ite_self]
theorem Chip.cascadeUp_stkMem (c : Chip) (k : Lnk) : (Chip.cascadeUp c k).stkMem = c.stkMem := by
  unfold Chip.cascadeUp
  repeat' (first
    | with_reducible rfl | simp only [Chip.askPartner_stkMem, ite_stkMem, ite_self] | split)
theorem Chip.relayGo_stkMem (c : Chip) : (Chip.relayGo c).stkMem = c.stkMem := by
  unfold Chip.relayGo
  repeat' (first
    | with_reducible rfl | simp only [Chip.askPartner_stkMem, Chip.setFld_stkMem, ite_stkMem, ite_self] | split)
theorem Chip.writeRlyCtrl_stkMem (c : Chip) (v : Word) : (Chip.writeRlyCtrl c v).stkMem = c.stkMem := by
  simp only [Chip.writeRlyCtrl, Chip.relayGo_stkMem, Chip.writeMasked_stkMem, ite_stkMem, ite_self]
theorem Chip.missPoll_stkMem (c : Chip) : (Chip.missPoll c).stkMem = c.stkMem := by
  unfold Chip.missPoll
  repeat' (first
    | with_reducible rfl | simp only [Chip.count_stkMem, Chip.dropReq_stkMem] | split)
theorem Chip.presencePoll_stkMem (c : Chip) : (Chip.presencePoll c).stkMem = c.stkMem := by
  unfold Chip.presencePoll
  repeat' (first
    | with_reducible rfl | simp only [Chip.askPartner_stkMem, Chip.missPoll_stkMem, ite_stkMem, ite_self] | split)
theorem Chip.noteThird_stkMem (c : Chip) (third : Bool) : (Chip.noteThird c third).stkMem = c.stkMem :=
    by unfold Chip.noteThird; rfl
theorem Chip.peerAbsent_stkMem (c : Chip) : (Chip.peerAbsent c).stkMem = c.stkMem := by
  unfold Chip.peerAbsent
  repeat' (first
    | with_reducible rfl | simp only [Chip.declareAbsent_stkMem, Chip.startRecovery_stkMem, ite_stkMem, ite_self] | split)
theorem Chip.writeCascCtrl_stkMem (c : Chip) (v : Word) : (Chip.writeCascCtrl c v).stkMem = c.stkMem := by
  simp only [Chip.writeCascCtrl, Chip.clearRegs_stkMem, Chip.writeMasked_stkMem, ite_stkMem, ite_self]

/-! ## Folios -/

theorem Chip.folioResult_stkMem (c : Chip) (code : Nat) : (Chip.folioResult c code).stkMem = c.stkMem := by
  simp only [Chip.folioResult, Chip.raise_stkMem, Chip.setFld_stkMem, ite_stkMem, ite_self]
theorem Chip.hostWrite_stkMem (c : Chip) : (Chip.hostWrite c).stkMem = c.stkMem := by
  unfold Chip.hostWrite
  repeat' (first
    | with_reducible rfl | simp only [Chip.beginFolioWrite_stkMem, Chip.count_stkMem, Chip.folioResult_stkMem,
        Chip.maintDrop_stkMem, Chip.setFld_stkMem, ite_stkMem, ite_self] | split
    | exact Chip.maintRequest_stkMem2 (hEq_ := by assumption) | rw [Chip.maintRequest_stkMem2 (hEq_ := by assumption)])
theorem Chip.hostVerify_stkMem (c : Chip) : (Chip.hostVerify c).stkMem = c.stkMem := by
  unfold Chip.hostVerify
  repeat' (first
    | with_reducible rfl | simp only [Chip.folioResult_stkMem, Chip.setFld_stkMem] | split
    | exact Chip.maintRequest_stkMem2 (hEq_ := by assumption) | rw [Chip.maintRequest_stkMem2 (hEq_ := by assumption)])
theorem Chip.writeFolioCtrl_stkMem (c : Chip) (v : Word) : (Chip.writeFolioCtrl c v).stkMem = c.stkMem := by
  simp only [Chip.writeFolioCtrl, Chip.countLockIgn_stkMem, Chip.hostVerify_stkMem, Chip.hostWrite_stkMem,
      Chip.writeMasked_stkMem, ite_stkMem, ite_self]
theorem Chip.tapWrite_stkMem (c : Chip) : (Chip.tapWrite c).2.stkMem = c.stkMem := by
  unfold Chip.tapWrite
  repeat' (first
    | with_reducible rfl | simp only [Chip.ownerWrite_stkMem] | split
    | exact Chip.ownerWrite_stkMem2 (hEq_ := by assumption) | rw [Chip.ownerWrite_stkMem2 (hEq_ := by assumption)])
theorem Chip.tapWrite_stkMem2 (c : Chip) {y0 e0} (hEq_ : (Chip.tapWrite c) = (y0, e0)) : e0.stkMem = c.stkMem := by
  have := Chip.tapWrite_stkMem c; rw [hEq_] at this; exact this
theorem Chip.sectorRepair_stkMem (c : Chip) (t sector : Nat) : (Chip.sectorRepair c t sector).2.stkMem = c.stkMem := by
  unfold Chip.sectorRepair
  repeat' (first
    | with_reducible rfl | simp only [Chip.noteExhausted_stkMem, Chip.noteRepair_stkMem] | split)
theorem Chip.sectorRepair_stkMem2 (c : Chip) (t sector : Nat) {y0 e0} (hEq_ : (Chip.sectorRepair c t sector) = (y0,
    e0)) : e0.stkMem = c.stkMem := by
  have := Chip.sectorRepair_stkMem c t sector; rw [hEq_] at this; exact this
theorem Chip.closeJob_stkMem (c : Chip) (j : FolioJob) : (Chip.closeJob c j).stkMem = c.stkMem := by
  simp only [Chip.closeJob, Chip.maintDrop_stkMem, Chip.setFld_stkMem, ite_stkMem, ite_self]
theorem Chip.folioDoneOk_stkMem (c : Chip) (j : FolioJob) : (Chip.folioDoneOk c j).stkMem = c.stkMem := by
  simp only [Chip.folioDoneOk, Chip.closeJob_stkMem, Chip.folioResult_stkMem, Chip.keyWriteEnded_stkMem, Chip.setCopy_stkMem,
      Chip.setFld_stkMem, Chip.setReg_stkMem, ite_stkMem, ite_self]
theorem Chip.folioFailed_stkMem (c : Chip) (j : FolioJob) : (Chip.folioFailed c j).stkMem = c.stkMem := by
  simp only [Chip.folioFailed, Chip.closeJob_stkMem, Chip.folioResult_stkMem, Chip.keyWriteEnded_stkMem, Chip.setCopy_stkMem,
      ite_stkMem, ite_self]
theorem Chip.folioEnds_stkMem (c : Chip) (bad : Option Nat) : (Chip.folioEnds c bad).stkMem = c.stkMem := by
  unfold Chip.folioEnds
  repeat' (first
    | with_reducible rfl | simp only [Chip.folioDoneOk_stkMem, Chip.folioFailed_stkMem, ite_stkMem, ite_self] | split
    | exact Chip.sectorRepair_stkMem2 (hEq_ := by assumption) | rw [Chip.sectorRepair_stkMem2 (hEq_ := by assumption)])
theorem Chip.resetPageRegs_stkMem (c : Chip) (p : Nat) (keep : Nat → Bool) : (Chip.resetPageRegs c p keep).stkMem = c.stkMem :=
    by unfold Chip.resetPageRegs; rfl
theorem Chip.deferredReset_stkMem (c : Chip) : (Chip.deferredReset c).stkMem = c.stkMem := by
  simp only [Chip.deferredReset, Chip.resetPageRegs_stkMem, Chip.setFld_stkMem, ite_stkMem, ite_self]
theorem Chip.saveTaps_stkMem (c : Chip) (k : Lnk) (id : List Byte) : (Chip.saveTaps c k id).stkMem = c.stkMem := by
  unfold Chip.saveTaps
  repeat' (first
    | with_reducible rfl | simp only [Chip.setTapBytes_stkMem, ite_stkMem] | split
    | exact Chip.tapWrite_stkMem2 (hEq_ := by assumption) | rw [Chip.tapWrite_stkMem2 (hEq_ := by assumption)])
theorem Chip.saveLink_stkMem (c : Chip) (k : Lnk) : (Chip.saveLink c k).stkMem = c.stkMem := by
  unfold Chip.saveLink
  repeat' (first
    | with_reducible rfl | simp only [Chip.saveTaps_stkMem, ite_stkMem, ite_self] | split)
theorem Chip.ownerRequest_stkMem (c : Chip) (o : FolioOwner) : (Chip.ownerRequest c o).stkMem = c.stkMem := by
  unfold Chip.ownerRequest
  repeat' (first
    | with_reducible rfl | simp only [Chip.clearKeyFolios_stkMem, Chip.ownerWrite_stkMem, Chip.requestMapWrite_stkMem,
        Chip.saveLink_stkMem] | split | exact Chip.ownerWrite_stkMem2 (hEq_ := by assumption)
    | rw [Chip.ownerWrite_stkMem2 (hEq_ := by assumption)])
theorem Chip.losePower_stkMem (c : Chip) (step : Nat) : (Chip.losePower c step).stkMem = c.stkMem := by
  unfold Chip.losePower
  repeat' (first
    | with_reducible rfl | simp only [Chip.setCopy_stkMem] | split)
theorem Chip.loadFlags_stkMem (c : Chip) : (Chip.loadFlags c).stkMem = c.stkMem := by
  simp only [Chip.loadFlags, Chip.setFld_stkMem, Chip.setReg_stkMem, ite_stkMem, ite_self]
theorem Chip.loadEvents_stkMem (c : Chip) : (Chip.loadEvents c).stkMem = c.stkMem := by
  simp only [Chip.loadEvents, Chip.raise_stkMem, ite_stkMem, ite_self]
theorem Chip.applyEntry_stkMem (c : Chip) (e : RepEntry) : (Chip.applyEntry c e).stkMem = c.stkMem := by
  unfold Chip.applyEntry
  repeat' (first
    | with_reducible rfl | simp only [Chip.setFld_stkMem, Chip.setSlot_stkMem, ite_stkMem, ite_self] | split
    | (refine (foldl_stkMem ?_ _ _).trans ?_; intro c a) | (refine (when_stkMem ?_ _ _).trans ?_; intro c))
theorem Chip.loadMap_stkMem (c : Chip) : (Chip.loadMap c).stkMem = c.stkMem := by
  unfold Chip.loadMap
  repeat' (first
    | with_reducible rfl | simp only [Chip.applyEntry_stkMem, Chip.modCopp_stkMem, Chip.setFld_stkMem] | split
    | (refine (foldl_stkMem ?_ _ _).trans ?_; intro c a))
theorem Chip.loadFolio_stkMem (c : Chip) : (Chip.loadFolio c).stkMem = c.stkMem := by
  simp only [Chip.loadFolio, Chip.loadEvents_stkMem, Chip.loadFlags_stkMem, Chip.loadMap_stkMem, Chip.setFld_stkMem]
theorem Chip.applyPages_stkMem (c : Chip) (pages : List Nat) : (Chip.applyPages c pages).stkMem = c.stkMem := by
  unfold Chip.applyPages
  repeat' (first
    | with_reducible rfl | simp only [Chip.setFld_stkMem, Chip.setReg_stkMem] | split
    | (refine (foldl_stkMem ?_ _ _).trans ?_; intro c a))
theorem Chip.loadSlots_stkMem (c : Chip) : (Chip.loadSlots c).stkMem = c.stkMem := by
  simp only [Chip.loadSlots, Chip.modMuni_stkMem, Chip.setFld_stkMem, Chip.skipRecords_stkMem]
theorem Chip.startMuniment_stkMem (c : Chip) : (Chip.startMuniment c).stkMem = c.stkMem := by
  simp only [Chip.startMuniment, Chip.loadSlots_stkMem, Chip.modMuni_stkMem, Chip.setFld_stkMem]

/-! ## Startup -/

theorem Chip.sampleStraps_stkMem (c : Chip) (role testEn : StrapSamples) :
    (Chip.sampleStraps c role testEn).stkMem = c.stkMem := by
  simp only [Chip.sampleStraps, Chip.raise_stkMem, Chip.setFld_stkMem, ite_stkMem, ite_self]
theorem Chip.powerGood_stkMem (c : Chip) (role testEn : StrapSamples) : (Chip.powerGood c role testEn).stkMem = c.stkMem := by
  simp only [Chip.powerGood, Chip.clearCable_stkMem, Chip.sampleStraps_stkMem, Chip.walk_stkMem, ite_stkMem, ite_self]
theorem Chip.enableOne_stkMem (c : Chip) (x0 : Supply) : (Chip.enableOne c x0).stkMem = c.stkMem := by
  induction x0 generalizing c <;> unfold Chip.enableOne <;> repeat' (first
    | with_reducible rfl | with_reducible assumption | (simp only [Chip.askRamp_stkMem, Chip.dpPowerOn_stkMem,
        Chip.rampSocket_stkMem, ite_stkMem, apply_ite Prod.snd, ite_self, *]) | split
    | (refine (foldl_stkMem ?_ _ _).trans ?_; intro c a) | (refine foldl_stkMem ?_ _ _; intro c a)
    | (refine (when_stkMem ?_ _ _).trans ?_; intro c) | (refine when_stkMem ?_ _ _; intro c) | rfl)
theorem Chip.enableNext_stkMem (c : Chip) (run : Nat) : (Chip.enableNext c run).stkMem = c.stkMem := by
  unfold Chip.enableNext
  repeat' (first
    | with_reducible rfl | simp only [Chip.enableOne_stkMem] | split)
theorem Chip.addStagger_stkMem (c : Chip) (xs : List Supply) : (Chip.addStagger c xs).stkMem = c.stkMem :=
    by unfold Chip.addStagger; rfl
theorem Chip.countRamp_stkMem (c : Chip) (d : Nat) : (Chip.countRamp c d).stkMem = c.stkMem := by
  simp only [Chip.countRamp, Chip.count_stkMem]
theorem Chip.askSink_stkMem (c : Chip) (p : Nat) : (Chip.askSink c p).stkMem = c.stkMem := by
  simp only [Chip.askSink, Chip.requestPower_stkMem, Chip.sendPd_stkMem, ite_stkMem, ite_self]
theorem Chip.askSinks_stkMem (c : Chip) : (Chip.askSinks c).stkMem = c.stkMem := by
  simp only [Chip.askSinks, Chip.askSink_stkMem, ite_stkMem, ite_self]
theorem Chip.startSecurity_stkMem (c : Chip) : (Chip.startSecurity c).stkMem = c.stkMem := by
  simp only [Chip.startSecurity, Chip.applyPages_stkMem, Chip.askSinks_stkMem, Chip.startMuniment_stkMem]
theorem Chip.dropRetired_stkMem (c : Chip) : (Chip.dropRetired c).stkMem = c.stkMem := by
  unfold Chip.dropRetired
  repeat' (first
    | with_reducible rfl | simp only [Chip.setFld_stkMem] | split)
theorem Chip.startAlive_stkMem (c : Chip) : (Chip.startAlive c).stkMem = c.stkMem := by unfold Chip.startAlive; rfl
theorem Chip.coreStarts_stkMem (c : Chip) : (Chip.coreStarts c).stkMem = c.stkMem := by
  simp only [Chip.coreStarts, Chip.applyPages_stkMem, Chip.dropRetired_stkMem, Chip.raise_stkMem, Chip.startAlive_stkMem,
      Chip.syncCirc_stkMem]
theorem Chip.allFilled_stkMem (c : Chip) : (Chip.allFilled c).stkMem = c.stkMem := by
  simp only [Chip.allFilled, Chip.setFld_stkMem]
theorem Chip.stacksUp_stkMem (c : Chip) : (Chip.stacksUp c).stkMem = c.stkMem := by
  simp only [Chip.stacksUp, Chip.allFilled_stkMem, Chip.applyPages_stkMem, Chip.raiseVisl_stkMem, Chip.setFld_stkMem,
      ite_stkMem, ite_self]
theorem Chip.askPorts_stkMem (c : Chip) : (Chip.askPorts c).stkMem = c.stkMem := by
  unfold Chip.askPorts
  repeat' (first
    | with_reducible rfl | simp only [Chip.addStagger_stkMem, Chip.modPort_stkMem] | split
    | (refine (foldl_stkMem ?_ _ _).trans ?_; intro c a) | rfl)
theorem Chip.startHub_stkMem (c : Chip) : (Chip.startHub c).stkMem = c.stkMem := by
  simp only [Chip.startHub, Chip.applyPages_stkMem, Chip.askPorts_stkMem, Chip.enableNext_stkMem, Chip.syncUpstream_stkMem,
      Chip.walk_stkMem]
theorem Chip.clearHeads_stkMem (c : Chip) (hs : List Nat) : (Chip.clearHeads c hs).stkMem = c.stkMem := by
  unfold Chip.clearHeads
  repeat' (first
    | with_reducible rfl | simp only [Chip.setFld_stkMem] | split | (refine (foldl_stkMem ?_ _ _).trans ?_; intro c a) | rfl)
theorem Chip.raiseOne_stkMem (c : Chip) (h : Nat) : ((c.setFld (HEAD_CTRL.EN h) 1).enableHead h).stkMem = c.stkMem :=
  (Chip.enableHead_stkMem _ _).trans (Chip.setFld_stkMem _ _ _)
theorem Chip.raiseHeads_stkMem (c : Chip) (hs : List Nat) : (Chip.raiseHeads c hs).stkMem = c.stkMem := by
  unfold Chip.raiseHeads
  induction hs generalizing c with
  | nil => rfl
  | cons h hs ih => rw [List.foldl_cons, ih, Chip.raiseOne_stkMem]
theorem Chip.askOutputs_stkMem (c : Chip) : (Chip.askOutputs c).stkMem = c.stkMem := by
  simp only [Chip.askOutputs, Chip.addStagger_stkMem]
theorem Chip.startOutputs_stkMem (c : Chip) : (Chip.startOutputs c).stkMem = c.stkMem := by
  unfold Chip.startOutputs
  repeat' (first
    | with_reducible rfl | simp only [Chip.dpStart_stkMem] | split | (refine (foldl_stkMem ?_ _ _).trans ?_; intro c a) | rfl)
theorem Chip.sd (c : Chip)
    (hs : List Nat) : (((((c.clearHeads hs).askOutputs).raiseHeads hs).enableNext 1).startOutputs).stkMem = c.stkMem := by
  rw [Chip.startOutputs_stkMem, Chip.enableNext_stkMem, Chip.raiseHeads_stkMem, Chip.askOutputs_stkMem,
      Chip.clearHeads_stkMem]
theorem Chip.startDisplay_stkMem (c : Chip) : (Chip.startDisplay c).stkMem = c.stkMem := by
  unfold Chip.startDisplay
  exact (Chip.sd _ _).trans (Chip.applyPages_stkMem _ _)
theorem Chip.askSockets_stkMem (c : Chip) : (Chip.askSockets c).stkMem = c.stkMem := by
  unfold Chip.askSockets
  repeat' (first
    | with_reducible rfl | simp only [Chip.addStagger_stkMem, Chip.modPep_stkMem] | split
    | (refine (foldl_stkMem ?_ _ _).trans ?_; intro c a) | rfl)
theorem Chip.startOffDelay_stkMem (c : Chip) : (Chip.startOffDelay c).stkMem = c.stkMem := by unfold Chip.startOffDelay; rfl
theorem Chip.startSockets_stkMem (c : Chip) : (Chip.startSockets c).stkMem = c.stkMem := by
  simp only [Chip.startSockets, Chip.applyPages_stkMem, Chip.askSockets_stkMem, Chip.enableNext_stkMem,
      Chip.startOffDelay_stkMem, Chip.walk_stkMem]
theorem Chip.startEthernet_stkMem (c : Chip) : (Chip.startEthernet c).stkMem = c.stkMem := by
  simp only [Chip.startEthernet, Chip.applyPages_stkMem, Chip.emit_stkMem, ite_stkMem, ite_self]
theorem Chip.startCascade_stkMem (c : Chip) : (Chip.startCascade c).stkMem = c.stkMem := by
  simp only [Chip.startCascade, Chip.applyPages_stkMem, Chip.closeSource_stkMem, Chip.enterLink_stkMem, Chip.setFld_stkMem,
      Chip.walk_stkMem, ite_stkMem, ite_self]
theorem Chip.wakeAfterOff_stkMem (c : Chip) (k : Lnk) : (Chip.wakeAfterOff c k).stkMem = c.stkMem := by
  simp only [Chip.wakeAfterOff, Chip.emit_stkMem, ite_stkMem, ite_self]
theorem Chip.beginStep_stkMem (c : Chip) (n : Nat) : (Chip.beginStep c n).stkMem = c.stkMem := by
  unfold Chip.beginStep; split
  · rw [Chip.countRamp_stkMem]; split
    · rw [Chip.clearRegs_stkMem]
    · rfl
  · rw [Chip.refeed_stkMem, Chip.applyPages_stkMem, Chip.loadFolio_stkMem, Chip.countRamp_stkMem]
  · rw [Chip.startSecurity_stkMem, Chip.countRamp_stkMem]
  · rw [Chip.askRamp_stkMem, Chip.countRamp_stkMem]
  · rw [Chip.askRamp_stkMem, Chip.countRamp_stkMem]
  · rw [Chip.wakeAfterOff_stkMem, Chip.applyPages_stkMem, Chip.countRamp_stkMem]
  · rw [Chip.startHub_stkMem, Chip.countRamp_stkMem]
  · rw [Chip.startDisplay_stkMem, Chip.countRamp_stkMem]
  · rw [Chip.startSockets_stkMem, Chip.countRamp_stkMem]
  · rw [Chip.startEthernet_stkMem, Chip.countRamp_stkMem]
  · rw [Chip.wakeAfterOff_stkMem, Chip.startCascade_stkMem, Chip.countRamp_stkMem]
  · rfl
theorem Chip.exitEnds_stkMem (c : Chip) : (Chip.exitEnds c).stkMem = c.stkMem := by
  simp only [Chip.exitEnds, Chip.setFld_stkMem]
theorem Chip.toStep_stkMem (c : Chip)
    (n : Nat) : (({ c with boot := { c.boot with step := n } } : Chip).beginStep n).stkMem = c.stkMem :=
  Chip.beginStep_stkMem _ _
theorem Chip.startupStep_stkMem (c : Chip) : (Chip.startupStep c).stkMem = c.stkMem := by
  unfold Chip.startupStep; dsimp only; split
  · rfl
  · split
    · exact (Chip.exitEnds_stkMem _).trans (Chip.toStep_stkMem _ _)
    · exact Chip.toStep_stkMem _ _
theorem Chip.stopOutputs_stkMem (c : Chip) : (Chip.stopOutputs c).stkMem = c.stkMem := by
  unfold Chip.stopOutputs
  repeat' (first
    | with_reducible rfl | simp only [Chip.dpPower_stkMem, Chip.openPort_stkMem, Chip.pepOff_stkMem, Chip.stopHead_stkMem]
    | split | (refine (foldl_stkMem ?_ _ _).trans ?_; intro c a) | rfl)
theorem Chip.afterReset_stkMem (c : Chip) (kind step : Nat) : (Chip.afterReset c kind step).stkMem = [] :=
    by unfold Chip.afterReset; rfl
theorem Chip.gangPorts_stkMem (c : Chip) : (Chip.gangPorts c).stkMem = c.stkMem := by
  unfold Chip.gangPorts
  repeat' (first
    | with_reducible rfl | simp only [Chip.setFld_stkMem] | split | (refine (foldl_stkMem ?_ _ _).trans ?_; intro c a) | rfl)
theorem Chip.keepWarm_stkMem (c d : Chip) : (Chip.keepWarm c d).stkMem = d.stkMem := by
  unfold Chip.keepWarm; dsimp only
  refine (foldl_stkMem (fun d l => by rw [Chip.setFld_stkMem]) _ _).trans ?_
  rw [Chip.gangPorts_stkMem]
theorem Chip.keepStacks_stkMem (c d : Chip) : (Chip.keepStacks c d).stkMem = c.stkMem := by unfold Chip.keepStacks; rfl
theorem Chip.showFuses_stkMem (c : Chip) : (Chip.showFuses c).stkMem = c.stkMem := by
  simp only [Chip.showFuses, Chip.setFld_stkMem]
theorem Chip.setCause_stkMem (c : Chip) (kind path : Nat) : (Chip.setCause c kind path).stkMem = c.stkMem := by
  simp only [Chip.setCause, Chip.count_stkMem, Chip.setFld_stkMem, ite_stkMem, ite_self]
theorem Chip.kept_stkMem (c : Chip) (kind step path : Nat) :
    (((((c.keepStacks (c.keepWarm (c.afterReset kind step))).showFuses).setFld SAFE_STATUS.ACTIVE 0).setCause kind path).walk).stkMem = c.stkMem := by
  rw [Chip.walk_stkMem, Chip.setCause_stkMem, Chip.setFld_stkMem, Chip.showFuses_stkMem, Chip.keepStacks_stkMem]
theorem Chip.warmReset_stkMem (c : Chip) (kind path : Nat) : (Chip.warmReset c kind path).stkMem = c.stkMem :=
  (Chip.kept_stkMem c.stopOutputs kind _ path).trans (Chip.stopOutputs_stkMem c)
theorem Chip.exitKept_stkMem (c d : Chip) (h : d.stkMem = []) : (((c.keepWarm d).showFuses).setCause 2 7).stkMem = [] := by
  rw [Chip.setCause_stkMem, Chip.showFuses_stkMem, Chip.keepWarm_stkMem, h]
theorem Chip.exitBusy_stkMem (d : Chip) : (({ d with seq := { d.seq with exiting := some 3 } } : Chip).setFld PS_STATUS.BUSY 1).stkMem = d.stkMem :=
  Chip.setFld_stkMem _ _ _
theorem Chip.exitReset_stkMem (c : Chip) : (Chip.exitReset c).stkMem = [] := by
  unfold Chip.exitReset
  exact (Chip.exitBusy_stkMem _).trans (Chip.exitKept_stkMem c _ (Chip.afterReset_stkMem c 2 1))
theorem Chip.wantWarm_stkMem (c : Chip) (path : Nat) : (Chip.wantWarm c path).stkMem = c.stkMem := by
  simp only [Chip.wantWarm, ite_stkMem, ite_self]
theorem Chip.writeRstCtrl_stkMem (c : Chip) (p : Path) (v : Word) : (Chip.writeRstCtrl c p v).stkMem = c.stkMem := by
  simp only [Chip.writeRstCtrl, Chip.wantWarm_stkMem, ite_stkMem, ite_self]

/-! ## Pages -/

theorem Chip.pageRegs_stkMem (c : Chip) (p : Nat) : (Chip.pageRegs c p).stkMem = c.stkMem := by
  simp only [Chip.pageRegs, Chip.resetPageRegs_stkMem]
theorem Chip.dropPlane_stkMem (c : Chip) : (Chip.dropPlane c).stkMem = c.stkMem := by
  simp only [Chip.dropPlane, Chip.modCopp_stkMem]
theorem Chip.stopRepairs_stkMem (c : Chip) : (Chip.stopRepairs c).stkMem = c.stkMem := by
  simp only [Chip.stopRepairs, Chip.maintDrop_stkMem, Chip.modCopp_stkMem]
theorem Chip.stopVerify_stkMem (c : Chip) : (Chip.stopVerify c).stkMem = c.stkMem := by
  unfold Chip.stopVerify
  repeat' (first
    | with_reducible rfl | simp only [Chip.closeJob_stkMem, ite_stkMem, ite_self] | split)
theorem Chip.stopCirc_stkMem (c : Chip) : (Chip.stopCirc c).stkMem = c.stkMem := by
  simp only [Chip.stopCirc, Chip.dropTurn_stkMem, Chip.syncCirc_stkMem]
theorem Chip.stopFlows_stkMem (c : Chip) (page : Nat) : (Chip.stopFlows c page).stkMem = c.stkMem := by
  unfold Chip.stopFlows
  repeat' (first
    | with_reducible rfl | simp only [Chip.dropCells_stkMem, Chip.freeFlow_stkMem, Chip.setFlow_stkMem, ite_stkMem,
        ite_self] | split | (refine (foldl_stkMem ?_ _ _).trans ?_; intro c a))
theorem Chip.stopLane_stkMem (c : Chip) (l : Nat) : (Chip.stopLane c l).stkMem = c.stkMem := by
  simp only [Chip.stopLane, Chip.clearEyeResults_stkMem, Chip.endLaneActivity_stkMem]
theorem Chip.forgetReqs_stkMem (c : Chip) (p : FwdReq → Bool) : (Chip.forgetReqs c p).stkMem = c.stkMem := by
  simp only [Chip.forgetReqs, Chip.syncTags_stkMem]
theorem Chip.stopSurfaces_stkMem (c : Chip) : (Chip.stopSurfaces c).stkMem = c.stkMem := by
  unfold Chip.stopSurfaces
  repeat' (first
    | with_reducible rfl | simp only [Chip.drainIngress_stkMem, Chip.endStream_stkMem] | split
    | (refine (foldl_stkMem ?_ _ _).trans ?_; intro c a) | rfl)
theorem Chip.stopDescs_stkMem (c : Chip) : (Chip.stopDescs c).stkMem = c.stkMem := by
  unfold Chip.stopDescs
  repeat' (first
    | with_reducible rfl | simp only [Chip.loseSurface_stkMem] | split | (refine (foldl_stkMem ?_ _ _).trans ?_; intro c a)
    | rfl)
theorem Chip.stopHub_stkMem (c : Chip) : (Chip.stopHub c).stkMem = c.stkMem := by
  simp only [Chip.stopHub, Chip.clearHub_stkMem, Chip.emit_stkMem, Chip.resetFunction_stkMem, Chip.setFld_stkMem, ite_stkMem,
      ite_self]
theorem Chip.stopPorts_stkMem (c : Chip) : (Chip.stopPorts c).stkMem = c.stkMem := by
  unfold Chip.stopPorts
  repeat' (first
    | with_reducible rfl | simp only [Chip.modPort_stkMem, Chip.openPort_stkMem, Chip.walk_stkMem] | split
    | (refine (foldl_stkMem ?_ _ _).trans ?_; intro c a) | rfl)
theorem Chip.unbindFlows_stkMem (c : Chip) : (Chip.unbindFlows c).stkMem = c.stkMem := by
  unfold Chip.unbindFlows
  repeat' (first
    | with_reducible rfl | simp only [Chip.loseFlowKey_stkMem] | split | (refine (foldl_stkMem ?_ _ _).trans ?_; intro c a))
theorem Chip.stopMuniment_stkMem (c : Chip) : (Chip.stopMuniment c).stkMem = c.stkMem := by
  simp only [Chip.stopMuniment, Chip.modMuni_stkMem, Chip.setFld_stkMem, Chip.unbindFlows_stkMem, ite_stkMem, ite_self]
theorem Chip.dropKeyCmds_stkMem (c : Chip) (p : KeyCmd → Bool) : (Chip.dropKeyCmds c p).stkMem = c.stkMem := by
  simp only [Chip.dropKeyCmds, Chip.modMuni_stkMem]
theorem Chip.stopTunnel_stkMem (c : Chip) : (Chip.stopTunnel c).stkMem = c.stkMem := by
  simp only [Chip.stopTunnel, Chip.discardAhead_stkMem, Chip.setFld_stkMem]
theorem Chip.hideMarg_stkMem (c : Chip) (h : Nat) : (Chip.hideMarg c h).stkMem = c.stkMem := by
  simp only [Chip.hideMarg, Chip.modHead_stkMem]
theorem Chip.clearDpStatus_stkMem (c : Chip) (o : Nat) : (Chip.clearDpStatus c o).stkMem = c.stkMem := by
  simp only [Chip.clearDpStatus, Chip.setFld_stkMem]
theorem Chip.stopPage_stkMem (c : Chip) (p : Nat) : (Chip.stopPage c p).stkMem = c.stkMem := by
  unfold Chip.stopPage
  simp only [ite_stkMem, Chip.stopVerify_stkMem, Chip.dropPlane_stkMem, Chip.clearDpStatus_stkMem, Chip.stopRepairs_stkMem,
      Chip.stopCirc_stkMem, Chip.stopFlows_stkMem, Chip.stopLane_stkMem, Chip.linkDown_stkMem,
    Chip.discardPrefetch_stkMem, Chip.forgetReqs_stkMem, Chip.stopSurfaces_stkMem, Chip.stopDescs_stkMem,
        Chip.stopHead_stkMem, Chip.clearArm_stkMem,
    Chip.dpStop_stkMem, Chip.setFld_stkMem, Chip.stopHub_stkMem, Chip.stopPorts_stkMem, Chip.resetFunction_stkMem,
        Chip.stopTunnel_stkMem, Chip.socketOff_stkMem,
    Chip.ethDown_stkMem, Chip.hardReset_stkMem, Chip.stopMuniment_stkMem, Chip.dropKeyCmds_stkMem, Chip.unbindFlows_stkMem,
        Chip.modMuni_stkMem, ite_self]
  rw [foldl_stkMem (fun c h => by rw [Chip.hideMarg_stkMem, Chip.clearMargArm_stkMem])]
  simp only [ite_self]
theorem Chip.reapply_stkMem (c : Chip) (kind : Nat) : (Chip.reapply c kind).stkMem = c.stkMem := by
  unfold Chip.reapply
  repeat' (first
    | with_reducible rfl | simp only [Chip.applyEntry_stkMem] | split | (refine (foldl_stkMem ?_ _ _).trans ?_; intro c a)
    | rfl)
theorem Chip.restartMuniment_stkMem (c : Chip) : (Chip.restartMuniment c).stkMem = c.stkMem := by
  simp only [Chip.restartMuniment, Chip.liveRecords_stkMem, Chip.loadSlots_stkMem, Chip.reapply_stkMem, ite_stkMem, ite_self]
theorem Chip.restartHead_stkMem (c : Chip) (h : Nat) : (Chip.restartHead c h).stkMem = c.stkMem := by
  simp only [Chip.restartHead, Chip.riseHead_stkMem, ite_stkMem, ite_self]
theorem Chip.restartOutput_stkMem (c : Chip) (o : Nat) : (Chip.restartOutput c o).stkMem = c.stkMem := by
  simp only [Chip.restartOutput, Chip.addStagger_stkMem, Chip.dpStart_stkMem, ite_stkMem, ite_self]
theorem Chip.restartPorts_stkMem (c : Chip) : (Chip.restartPorts c).stkMem = c.stkMem := by
  unfold Chip.restartPorts
  repeat' (first
    | with_reducible rfl | simp only [Chip.gangPorts_stkMem, Chip.modPort_stkMem, Chip.syncDsPorts_stkMem, Chip.walk_stkMem,
        ite_stkMem] | split | (refine (foldl_stkMem ?_ _ _).trans ?_; intro c a) | rfl)
theorem Chip.restartSocket_stkMem (c : Chip) (p : Nat) : (Chip.restartSocket c p).stkMem = c.stkMem := by
  simp only [Chip.restartSocket, Chip.modPep_stkMem, Chip.syncPep_stkMem, Chip.walk_stkMem, ite_stkMem, ite_self]
theorem Chip.restartPage_stkMem (c : Chip) (p : Nat) : (Chip.restartPage c p).stkMem = c.stkMem := by
  simp only [Chip.restartPage, Chip.emit_stkMem, Chip.refeed_stkMem, Chip.restartHead_stkMem, Chip.restartMuniment_stkMem,
      Chip.restartOutput_stkMem, Chip.restartPorts_stkMem, Chip.restartSocket_stkMem, Chip.syncCirc_stkMem,
      Chip.syncUpstream_stkMem, ite_stkMem, ite_self]
theorem Chip.endPage_stkMem (c : Chip) (p : Nat) : (Chip.endPage c p).stkMem = c.stkMem := by
  simp only [Chip.endPage, Chip.pageRegs_stkMem, Chip.stopPage_stkMem, ite_stkMem, ite_self]
theorem Chip.pageReset_stkMem (c : Chip) (p : Nat) : (Chip.pageReset c p).stkMem = c.stkMem := by
  simp only [Chip.pageReset, Chip.endPage_stkMem, Chip.restartPage_stkMem, Chip.setFld_stkMem, ite_stkMem, ite_self]
theorem Chip.writePageCtrl_stkMem (c : Chip) (p : Nat) (v : Word) : (Chip.writePageCtrl c p v).stkMem = c.stkMem := by
  simp only [Chip.writePageCtrl, Chip.endPage_stkMem, Chip.pageReset_stkMem, Chip.restartPage_stkMem, Chip.setFld_stkMem,
      ite_stkMem, ite_self]

/-! ## Power -/

theorem Chip.endCmd_stkMem (c : Chip) (result : Nat) : (Chip.endCmd c result).stkMem = c.stkMem := by
  simp only [Chip.endCmd, Chip.setFld_stkMem]
theorem Chip.refuseCmd_stkMem (c : Chip) (result : Nat) : (Chip.refuseCmd c result).stkMem = c.stkMem := by
  simp only [Chip.refuseCmd, Chip.count_stkMem, Chip.endCmd_stkMem]
theorem Chip.writePsWait_stkMem (c : Chip) (v : Word) : (Chip.writePsWait c v).stkMem = c.stkMem := by
  unfold Chip.writePsWait
  repeat' (first
    | with_reducible rfl | simp only [Chip.count_stkMem, Chip.refuseCmd_stkMem, Chip.setFld_stkMem, ite_stkMem] | split)
theorem Chip.askSleep_stkMem (c : Chip) (k : Lnk) (t : Nat) : (Chip.askSleep c k t).stkMem = c.stkMem := by
  simp only [Chip.askSleep, Chip.modLink_stkMem, Chip.queueLmc_stkMem, ite_stkMem, ite_self]
theorem Chip.holdTokens_stkMem (c : Chip) : (Chip.holdTokens c).stkMem = c.stkMem := by unfold Chip.holdTokens; rfl
theorem Chip.freeTokens_stkMem (c : Chip) : (Chip.freeTokens c).stkMem = c.stkMem := by unfold Chip.freeTokens; rfl
theorem Chip.askBlock_stkMem (c : Chip) (b : Nat) : (Chip.askBlock c b).stkMem = c.stkMem := by
  unfold Chip.askBlock
  repeat' (first
    | with_reducible rfl | simp only [Chip.askSleep_stkMem, Chip.holdTokens_stkMem, Chip.modLink_stkMem, ite_stkMem,
        ite_self] | split | (refine (foldl_stkMem ?_ _ _).trans ?_; intro c a))
theorem Chip.domainOff_stkMem (c : Chip) (d : Nat) : (Chip.domainOff c d).stkMem = c.stkMem := by
  simp only [Chip.domainOff, Chip.setFld_stkMem, ite_stkMem, ite_self]
theorem Chip.retain_stkMem (c : Chip) (d : Nat) : (Chip.retain c d).stkMem = c.stkMem := by
  simp only [Chip.retain, Chip.setFld_stkMem]
theorem Chip.restDomain_stkMem (c : Chip) (d : Nat) : (Chip.restDomain c d).stkMem = c.stkMem := by
  simp only [Chip.restDomain, Chip.domainOff_stkMem, Chip.retain_stkMem, ite_stkMem, ite_self]
theorem Chip.idleOutput_stkMem (c : Chip) (o : Nat) : (Chip.idleOutput c o).stkMem = c.stkMem := by
  simp only [Chip.idleOutput, Chip.endAux_stkMem, Chip.modDp_stkMem, Chip.setFld_stkMem, Chip.syncAux_stkMem,
      Chip.untrain_stkMem]
theorem Chip.stopPcie_stkMem (c : Chip) : (Chip.stopPcie c).stkMem = c.stkMem := by
  unfold Chip.stopPcie
  repeat' (first
    | with_reducible rfl | simp only [Chip.assertPerst_stkMem, Chip.domainOff_stkMem, Chip.emit_stkMem, Chip.modPep_stkMem,
        Chip.pepOff_stkMem, ite_stkMem] | split | (refine (foldl_stkMem ?_ _ _).trans ?_; intro c a))
theorem Chip.stopDisplay_stkMem (c : Chip) : (Chip.stopDisplay c).stkMem = c.stkMem := by
  unfold Chip.stopDisplay
  repeat' (first
    | with_reducible rfl | simp only [Chip.domainOff_stkMem, Chip.dpPower_stkMem, Chip.dropRamp_stkMem,
        Chip.idleOutput_stkMem, Chip.stopHead_stkMem, ite_stkMem] | split
    | (refine (foldl_stkMem ?_ _ _).trans ?_; intro c a))
theorem Chip.stopBlock_stkMem (c : Chip) (b : Nat) : (Chip.stopBlock c b).stkMem = c.stkMem := by
  unfold Chip.stopBlock
  repeat' (first
    | with_reducible rfl | simp only [Chip.domainOff_stkMem, Chip.ethDown_stkMem, Chip.openPort_stkMem,
        Chip.restDomain_stkMem, Chip.setFld_stkMem, Chip.stopDisplay_stkMem, Chip.stopPcie_stkMem, Chip.syncUpstream_stkMem,
        ite_stkMem, ite_self] | split | (refine (foldl_stkMem ?_ _ _).trans ?_; intro c a))
theorem Chip.noteStay_stkMem (c : Chip) : (Chip.noteStay c).stkMem = c.stkMem := by
  simp only [Chip.noteStay, Chip.setFld_stkMem, ite_stkMem, ite_self]
theorem Chip.beginExit_stkMem (c : Chip) (st : Nat) : (Chip.beginExit c st).stkMem = c.stkMem := by
  simp only [Chip.beginExit, Chip.setFld_stkMem]
theorem Chip.queueRamps_stkMem (c : Chip) : (Chip.queueRamps c).stkMem = c.stkMem := by unfold Chip.queueRamps; rfl
theorem Chip.endAsking_stkMem (c : Chip) : (Chip.endAsking c).stkMem = c.stkMem := by
  unfold Chip.endAsking
  repeat' (first
    | with_reducible rfl | simp only [Chip.modLink_stkMem] | split | (refine (foldl_stkMem ?_ _ _).trans ?_; intro c a) | rfl)
theorem Chip.seqRests_stkMem (c : Chip) : (Chip.seqRests c).stkMem = c.stkMem := by
  simp only [Chip.seqRests, Chip.endAsking_stkMem]
theorem Chip.lastOff_stkMem (c : Chip) (t : Nat) : (Chip.lastOff c t).stkMem = c.stkMem := by
  simp only [Chip.lastOff, Chip.domainOff_stkMem, Chip.dropContract_stkMem, Chip.maintDrop_stkMem, Chip.openSource_stkMem,
      Chip.setReg_stkMem, ite_stkMem, ite_self]
theorem Chip.wakeStopped_stkMem (c : Chip) (k : Lnk) : (Chip.wakeStopped c k).stkMem = c.stkMem := by
  simp only [Chip.wakeStopped, Chip.sendWake_stkMem, ite_stkMem, ite_self]
theorem Chip.rollBack_stkMem (c : Chip) (code : Nat) : (Chip.rollBack c code).stkMem = c.stkMem := by
  simp only [Chip.rollBack, Chip.count_stkMem, Chip.endAsking_stkMem, Chip.endCmd_stkMem, Chip.freeTokens_stkMem,
      Chip.raise_stkMem, Chip.setFld_stkMem, Chip.wakeStopped_stkMem, ite_stkMem, ite_self]
theorem Chip.stateCmd_stkMem (c : Chip) : (Chip.stateCmd c).stkMem = c.stkMem := by
  unfold Chip.stateCmd
  repeat' (first
    | with_reducible rfl | simp only [Chip.askBlock_stkMem, Chip.refuseCmd_stkMem, ite_stkMem, ite_self] | split)
theorem Chip.domainRamp_stkMem (c : Chip) : (Chip.domainRamp c).stkMem = c.stkMem := by
  unfold Chip.domainRamp
  repeat' (first
    | with_reducible rfl | simp only [Chip.askRamp_stkMem] | split)
theorem Chip.restartOutputs_stkMem (c : Chip) : (Chip.restartOutputs c).stkMem = c.stkMem := by
  unfold Chip.restartOutputs
  repeat' (first
    | with_reducible rfl | simp only [Chip.addStagger_stkMem, Chip.dpStart_stkMem] | split
    | (refine (foldl_stkMem ?_ _ _).trans ?_; intro c a))
theorem Chip.restartPcie_stkMem (c : Chip) : (Chip.restartPcie c).stkMem = c.stkMem := by
  unfold Chip.restartPcie
  repeat' (first
    | with_reducible rfl | simp only [Chip.emit_stkMem, Chip.modPep_stkMem, Chip.syncPep_stkMem] | split
    | (refine (foldl_stkMem ?_ _ _).trans ?_; intro c a))
theorem Chip.restartBlock_stkMem (c : Chip) (d : Nat) : (Chip.restartBlock c d).stkMem = c.stkMem := by
  unfold Chip.restartBlock
  repeat' (first
    | with_reducible rfl | simp only [Chip.emit_stkMem, Chip.modMuni_stkMem, Chip.restartHead_stkMem,
        Chip.restartOutputs_stkMem, Chip.restartPcie_stkMem, Chip.sendWake_stkMem, Chip.setFld_stkMem,
        Chip.syncDsPorts_stkMem, Chip.syncUpstream_stkMem, ite_stkMem, ite_self] | split
    | (refine (foldl_stkMem ?_ _ _).trans ?_; intro c a))
theorem Chip.rampsDone_stkMem (c : Chip) : (Chip.rampsDone c).stkMem = c.stkMem := by
  simp only [Chip.rampsDone, Chip.freeTokens_stkMem, Chip.setFld_stkMem, ite_stkMem, ite_self]
theorem Chip.domainUp_stkMem (c : Chip) (d : Nat) : (Chip.domainUp c d).stkMem = c.stkMem := by
  simp only [Chip.domainUp, Chip.countRamp_stkMem, Chip.rampsDone_stkMem, Chip.restartBlock_stkMem, Chip.setFld_stkMem]
theorem Chip.supplyUp_stkMem (c : Chip) (x0 : Supply) : (Chip.supplyUp c x0).stkMem = c.stkMem := by
  induction x0 generalizing c <;> unfold Chip.supplyUp <;> repeat' (first
    | with_reducible rfl | with_reducible assumption | (simp only [Chip.closePort_stkMem, Chip.coreStarts_stkMem,
        Chip.domainUp_stkMem, Chip.dpPower_stkMem, Chip.socketUp_stkMem, Chip.stacksUp_stkMem, ite_stkMem,
        apply_ite Prod.snd, ite_self, *]) | split | (refine (foldl_stkMem ?_ _ _).trans ?_; intro c a)
    | (refine foldl_stkMem ?_ _ _; intro c a) | (refine (when_stkMem ?_ _ _).trans ?_; intro c)
    | (refine when_stkMem ?_ _ _; intro c) | rfl)
theorem Chip.oppoint_stkMem (c : Chip) : (Chip.oppoint c).stkMem = c.stkMem := by
  unfold Chip.oppoint
  repeat' (first
    | with_reducible rfl | simp only [Chip.endCmd_stkMem, Chip.raiseOpen_stkMem, Chip.refuseCmd_stkMem, Chip.setFld_stkMem,
        ite_stkMem, ite_self] | split)
theorem Chip.endPoint_stkMem (c : Chip) (result : Nat) : (Chip.endPoint c result).stkMem = c.stkMem := by
  simp only [Chip.endPoint, Chip.endCmd_stkMem, Chip.setFld_stkMem]
theorem Chip.lowerBoundary_stkMem (c : Chip) : (Chip.lowerBoundary c).stkMem = c.stkMem := by
  unfold Chip.lowerBoundary
  repeat' (first
    | with_reducible rfl | simp only [Chip.count_stkMem, Chip.endPoint_stkMem, Chip.raiseOpen_stkMem, Chip.setFld_stkMem,
        ite_stkMem, ite_self] | split)
theorem Chip.vcoreSettled_stkMem (c : Chip) : (Chip.vcoreSettled c).stkMem = c.stkMem := by
  unfold Chip.vcoreSettled
  repeat' (first
    | with_reducible rfl | simp only [Chip.endPoint_stkMem, Chip.setFld_stkMem, ite_stkMem, ite_self] | split)
theorem Chip.lowerVisl_stkMem (c : Chip) : (Chip.lowerVisl c).stkMem = c.stkMem := by
  simp only [Chip.lowerVisl, Chip.setFld_stkMem, ite_stkMem, ite_self]
theorem Chip.abandonSeq_stkMem (c : Chip) : (Chip.abandonSeq c).stkMem = c.stkMem := by
  simp only [Chip.abandonSeq, Chip.setFld_stkMem]

end Sys2Proof.Machine
end

