-- ==== Sys2Proof/Laws/FrameAgents.lean ====
section
/-! SUPPORT. What leaves the bytes of the local Stacks as they are: events, register access, the service paths, requests and the strobe. -/

set_option linter.unusedSimpArgs false
set_option linter.unusedTactic false
set_option linter.unreachableTactic false

namespace Sys2Proof.Machine

/-! ## Events -/

theorem Chip.logEntry_stkMem (c : Chip) (f : Firing) (taken : Nat) (esc : Bool) :
    (Chip.logEntry c f taken esc).2.stkMem = c.stkMem := by
  unfold Chip.logEntry
  repeat' (first
    | with_reducible rfl | with_reducible assumption | (simp only [Chip.count_stkMem, Chip.raise_stkMem, Chip.setFld_stkMem,
        Chip.setReg_stkMem, ite_stkMem, apply_ite Prod.snd, ite_self]) | split
    | (refine (foldl_stkMem ?_ _ _).trans ?_; intro c a) | (refine foldl_stkMem ?_ _ _; intro c a)
    | (refine (when_stkMem ?_ _ _).trans ?_; intro c) | (refine when_stkMem ?_ _ _; intro c))
theorem Chip.logEntry_stkMem2 (c : Chip) (f : Firing) (taken : Nat) (esc : Bool) {y0 e0} (hEq_ :
    (Chip.logEntry c f taken esc) = (y0, e0)) : e0.stkMem = c.stkMem := by
  have := Chip.logEntry_stkMem c f taken esc; rw [hEq_] at this; exact this
theorem Chip.writeLedgRel_stkMem (c : Chip) (v : Word) : (Chip.writeLedgRel c v).stkMem = c.stkMem := by
  simp only [Chip.writeLedgRel, Chip.count_stkMem, Chip.raise_stkMem, Chip.setFld_stkMem, ite_stkMem, ite_self]
theorem Chip.closeMessage_stkMem (c : Chip) : (Chip.closeMessage c).stkMem = c.stkMem := by
  simp only [Chip.closeMessage, ite_stkMem, ite_self]
theorem Chip.closeAll_stkMem (c : Chip) : (Chip.closeAll c).stkMem = c.stkMem := by
  simp only [Chip.closeAll, Chip.closeMessage_stkMem]
theorem Chip.queueRecord_stkMem (c : Chip) (f : Firing) (taken : Nat) (entry : Option (Nat × Nat)) (esc : Bool) :
    (Chip.queueRecord c f taken entry esc).2.stkMem = c.stkMem := by
  unfold Chip.queueRecord
  repeat' (first
    | with_reducible rfl | simp only [Chip.closeMessage_stkMem, Chip.count_stkMem, Chip.latchWake_stkMem, ite_stkMem,
        ite_self] | split)
theorem Chip.queueRecord_stkMem2 (c : Chip) (f : Firing) (taken : Nat) (entry : Option (Nat × Nat)) (esc : Bool) {y0 e0}
    (hEq_ : (Chip.queueRecord c f taken entry esc) = (y0, e0)) : e0.stkMem = c.stkMem := by
  have := Chip.queueRecord_stkMem c f taken entry esc; rw [hEq_] at this; exact this
theorem Chip.sweepMessages_stkMem (c : Chip) : (Chip.sweepMessages c).stkMem = c.stkMem := by unfold Chip.sweepMessages; rfl
theorem Chip.sendFlow2_stkMem (c : Chip) : (Chip.sendFlow2 c).stkMem = c.stkMem := by
  unfold Chip.sendFlow2
  repeat' (first
    | with_reducible rfl | simp only [Chip.queueMsg_stkMem, Chip.sweepMessages_stkMem, ite_stkMem, ite_self] | split)
theorem Chip.interruptPoll_stkMem (c : Chip) : (Chip.interruptPoll c).stkMem = c.stkMem := by
  unfold Chip.interruptPoll
  repeat' (first
    | with_reducible rfl | simp only [Chip.emit_stkMem, Chip.notReady_stkMem, Chip.sweepMessages_stkMem, ite_stkMem,
        ite_self] | split)
theorem Chip.addRepeat_stkMem (c : Chip) (t : MergeTarget) : (Chip.addRepeat c t).stkMem = c.stkMem := by
  unfold Chip.addRepeat
  repeat' (first
    | with_reducible rfl | simp only [Chip.count_stkMem] | split)
theorem Chip.mergeInto_stkMem (c : Chip) (t : MergeTarget) : (Chip.mergeInto c t).stkMem = c.stkMem := by
  simp only [Chip.mergeInto, Chip.addRepeat_stkMem, Chip.count_stkMem]
theorem Chip.report_stkMem (c : Chip) (f : Firing) (react : Nat) : (Chip.report c f react).stkMem = c.stkMem := by
  unfold Chip.report
  repeat' (first
    | with_reducible rfl | simp only [Chip.logEntry_stkMem, Chip.mergeInto_stkMem, Chip.queueRecord_stkMem, ite_stkMem,
        ite_self] | split | exact Chip.logEntry_stkMem2 (hEq_ := by assumption)
    | rw [Chip.logEntry_stkMem2 (hEq_ := by assumption)] | exact Chip.queueRecord_stkMem2 (hEq_ := by assumption)
    | rw [Chip.queueRecord_stkMem2 (hEq_ := by assumption)])
theorem Chip.dropRamps_stkMem (c : Chip) : (Chip.dropRamps c).stkMem = c.stkMem := by
  simp only [Chip.dropRamps]
theorem Chip.endMaint_stkMem (c : Chip) : (Chip.endMaint c).stkMem = c.stkMem := by
  unfold Chip.endMaint
  repeat' (first
    | with_reducible rfl | simp only [Chip.dropPlane_stkMem, Chip.endLaneActivity_stkMem, Chip.maintDrop_stkMem,
        Chip.stopRepairs_stkMem, Chip.stopVerify_stkMem] | split | (refine (foldl_stkMem ?_ _ _).trans ?_; intro c a) | rfl)
theorem Chip.forceSafe_stkMem (c : Chip) : (Chip.forceSafe c).stkMem = c.stkMem := by
  unfold Chip.forceSafe
  repeat' (first
    | with_reducible rfl | simp only [Chip.abandonSeq_stkMem, Chip.dpStop_stkMem, Chip.dropRamps_stkMem,
        Chip.endMaint_stkMem, Chip.endStream_stkMem, Chip.ethDown_stkMem, Chip.linkDown_stkMem, Chip.openPort_stkMem,
        Chip.pepOff_stkMem, Chip.setFld_stkMem, Chip.sourceStop_stkMem, Chip.stopHead_stkMem, Chip.syncUpstream_stkMem]
    | split | (refine (foldl_stkMem ?_ _ _).trans ?_; intro c a))
theorem Chip.enterSafe_stkMem (c : Chip) (cause src : Nat) : (Chip.enterSafe c cause src).stkMem = c.stkMem := by
  simp only [Chip.enterSafe, Chip.count_stkMem, Chip.forceSafe_stkMem, Chip.setFld_stkMem, Chip.setReg_stkMem, ite_stkMem,
      ite_self]
theorem Chip.fireSafe_stkMem (c : Chip) (f : Firing) (esc : Bool) : (Chip.fireSafe c f esc).stkMem = c.stkMem := by
  simp only [Chip.fireSafe, Chip.enterSafe_stkMem, Chip.logEntry_stkMem, Chip.queueRecord_stkMem]
theorem Chip.repeatFirst_stkMem (c : Chip) (t : MergeTarget) : (Chip.repeatFirst c t).stkMem = c.stkMem := by
  simp only [Chip.repeatFirst, Chip.addRepeat_stkMem]
theorem Chip.noteFailure_stkMem (c : Chip) (src : Nat) : (Chip.noteFailure c src).stkMem = c.stkMem := by
  simp only [Chip.noteFailure, Chip.wantFailover_stkMem, ite_stkMem, ite_self]
theorem Chip.fire_stkMem (c : Chip) (f : Firing) : (Chip.fire c f).stkMem = c.stkMem := by
  unfold Chip.fire
  repeat' (first
    | with_reducible rfl | simp only [Chip.fireSafe_stkMem, Chip.noteFailure_stkMem, Chip.repeatFirst_stkMem,
        Chip.report_stkMem, Chip.setFld_stkMem, ite_stkMem, ite_self] | split)
theorem Chip.eventFiring_stkMem (c : Chip) (ext : Option (Nat × Nat)) : (Chip.eventFiring c ext).stkMem = c.stkMem := by
  unfold Chip.eventFiring
  repeat' (first
    | with_reducible rfl | simp only [Chip.fire_stkMem, ite_stkMem, ite_self] | split)
theorem Chip.writeReact_stkMem (c : Chip) (src : Nat) (v : Word) : (Chip.writeReact c src v).stkMem = c.stkMem := by
  simp only [Chip.writeReact, Chip.count_stkMem, Chip.countLockIgn_stkMem, Chip.setFld_stkMem, ite_stkMem, ite_self]
theorem Chip.writeEvtCtrl_stkMem (c : Chip) (v : Word) : (Chip.writeEvtCtrl c v).stkMem = c.stkMem := by
  simp only [Chip.writeEvtCtrl, Chip.clearRegs_stkMem, Chip.writeMasked_stkMem, ite_stkMem, ite_self]
theorem Chip.writeSafeCtrl_stkMem (c : Chip) (v : Word) : (Chip.writeSafeCtrl c v).stkMem = c.stkMem := by
  simp only [Chip.writeSafeCtrl, Chip.fire_stkMem, Chip.writeMasked_stkMem, ite_stkMem, ite_self]
theorem Chip.writeEvForce_stkMem (c : Chip) (p : Nat) (v : Word) : (Chip.writeEvForce c p v).stkMem = c.stkMem := by
  simp only [Chip.writeEvForce, Chip.count_stkMem, Chip.raise_stkMem, ite_stkMem, ite_self]
theorem Chip.extest_stkMem (c : Chip) : (Chip.extest c).stkMem = c.stkMem := by
  simp only [Chip.extest, Chip.fire_stkMem, ite_stkMem, ite_self]
theorem Chip.autoWarm_stkMem (c : Chip) : (Chip.autoWarm c).stkMem = c.stkMem := by
  simp only [Chip.autoWarm, Chip.setFld_stkMem, Chip.wantWarm_stkMem, ite_stkMem, ite_self]
theorem Chip.toggleAlive_stkMem (c : Chip) : (Chip.toggleAlive c).stkMem = c.stkMem := by
  simp only [Chip.toggleAlive, Chip.emit_stkMem, ite_stkMem, ite_self]
theorem Chip.aliveBoundary_stkMem (c : Chip) : (Chip.aliveBoundary c).stkMem = c.stkMem := by
  simp only [Chip.aliveBoundary, Chip.count_stkMem, Chip.raise_stkMem, Chip.toggleAlive_stkMem, ite_stkMem, ite_self]
theorem Chip.aliveTick_stkMem (c : Chip) : (Chip.aliveTick c).stkMem = c.stkMem := by unfold Chip.aliveTick; rfl
theorem Chip.temperature_stkMem (c : Chip) (t : Nat) : (Chip.temperature c t).stkMem = c.stkMem := by
  simp only [Chip.temperature, Chip.raise_stkMem, Chip.setRaw_stkMem, ite_stkMem, ite_self]
theorem Chip.lasting_stkMem (c : Chip) (src detail : Nat) : (Chip.lasting c src detail).stkMem = c.stkMem := by
  simp only [Chip.lasting, Chip.raise_stkMem, Chip.setRaw_stkMem]

/-! ## RegReads -/

theorem Chip.sampleSupplies_stkMem (c : Chip) : (Chip.sampleSupplies c).stkMem = c.stkMem :=
    by unfold Chip.sampleSupplies; rfl
theorem Chip.readReg_stkMem (c : Chip) (p : Path) (a : Nat) : (Chip.readReg c p a).2.stkMem = c.stkMem := by
  unfold Chip.readReg
  repeat' (first
    | with_reducible rfl | simp only [ite_stkMem, ite_self] | split)
theorem Chip.readReg_stkMem2 (c : Chip) (p : Path) (a : Nat) {y0 e0} (hEq_ : (Chip.readReg c p a) = (y0,
    e0)) : e0.stkMem = c.stkMem := by
  have := Chip.readReg_stkMem c p a; rw [hEq_] at this; exact this

/-! ## RegWrites -/

theorem Chip.writeMuniCtrl_stkMem (c : Chip) (v : Word) : (Chip.writeMuniCtrl c v).stkMem = c.stkMem := by
  simp only [Chip.writeMuniCtrl, Chip.writeMasked_stkMem, ite_stkMem, ite_self]
theorem Chip.writePdSrc_stkMem (c : Chip) (a : Nat) (v : Word) : (Chip.writePdSrc c a v).stkMem = c.stkMem := by
  simp only [Chip.writePdSrc, Chip.walk_stkMem, Chip.writeMasked_stkMem]
theorem Chip.writePdSnk_stkMem (c : Chip) (a : Nat) (v : Word) : (Chip.writePdSnk c a v).stkMem = c.stkMem := by
  simp only [Chip.writePdSnk, Chip.refeed_stkMem, Chip.writeMasked_stkMem]
theorem Chip.writePdAlt_stkMem (c : Chip) (a : Nat) (v : Word) : (Chip.writePdAlt c a v).stkMem = c.stkMem := by
  unfold Chip.writePdAlt
  repeat' (first
    | with_reducible rfl | simp only [Chip.writeMasked_stkMem] | split | (refine Chip.thenDiscover_stkMem _ _ ?_; intro c)
    | rfl)
theorem Chip.writeFlowWord_stkMem (c : Chip) (a : Nat) (v : Word) : (Chip.writeFlowWord c a v).stkMem = c.stkMem := by
  simp only [Chip.writeFlowWord, Chip.writeFlowCfg_stkMem, Chip.writeStaged_stkMem, ite_stkMem, ite_self]
theorem Chip.writeWindow_stkMem (c : Chip) (a : Nat) (v : Word) : (Chip.writeWindow c a v).stkMem = c.stkMem := by
  simp only [Chip.writeWindow, Chip.writeWinCtrl_stkMem, Chip.writeWinWord_stkMem, ite_stkMem, ite_self]
theorem Chip.writeDescriptor_stkMem (c : Chip) (a : Nat) (v : Word) : (Chip.writeDescriptor c a v).stkMem = c.stkMem := by
  simp only [Chip.writeDescriptor, Chip.writeSdCtrl_stkMem, Chip.writeSdWord_stkMem, ite_stkMem, ite_self]
theorem Chip.writeMarginalia_stkMem (c : Chip) (a : Nat) (v : Word) : (Chip.writeMarginalia c a v).stkMem = c.stkMem := by
  simp only [Chip.writeMarginalia, Chip.writeMargCommit_stkMem, Chip.writeMargWord_stkMem, ite_stkMem, ite_self]
theorem Chip.writeHead_stkMem (c : Chip) (h a : Nat) (v : Word) : (Chip.writeHead c h a v).stkMem = c.stkMem := by
  unfold Chip.writeHead
  repeat' (first
    | with_reducible rfl | simp only [Chip.writeHeadCommit_stkMem, Chip.writeHeadCtrl_stkMem, Chip.writeHeadPlane_stkMem,
        Chip.writeHeadTiming_stkMem] | split)
theorem Chip.writeKdrv_stkMem (c : Chip) (a : Nat) (v : Word) : (Chip.writeKdrv c a v).stkMem = c.stkMem := by
  unfold Chip.writeKdrv
  repeat' (first
    | with_reducible rfl | simp only [Chip.setReg_stkMem, Chip.writeFlowKey_stkMem, Chip.writeKdCmd_stkMem,
        Chip.writeMasked_stkMem, ite_stkMem] | split)
theorem Chip.writeLcyc_stkMem (c : Chip) (a : Nat) (v : Word) : (Chip.writeLcyc c a v).stkMem = c.stkMem := by
  unfold Chip.writeLcyc
  repeat' (first
    | with_reducible rfl | simp only [Chip.writeLcCtrl_stkMem, Chip.writeLcSeed_stkMem, Chip.writeMasked_stkMem, ite_stkMem]
    | split)
theorem Chip.writeLane_stkMem (c : Chip) (l a : Nat) (v : Word) : (Chip.writeLane c l a v).stkMem = c.stkMem := by
  unfold Chip.writeLane
  repeat' (first
    | with_reducible rfl | simp only [Chip.writeEyeCtrl_stkMem, Chip.writeLaneCtrl_stkMem, Chip.writeLaneEqCtrl_stkMem,
        Chip.writeMasked_stkMem] | split)
theorem Chip.writeOutput_stkMem (c : Chip) (o a : Nat) (v : Word) : (Chip.writeOutput c o a v).stkMem = c.stkMem := by
  unfold Chip.writeOutput
  repeat' (first
    | with_reducible rfl | simp only [Chip.writeDptxAux_stkMem, Chip.writeDptxCtrl_stkMem, Chip.writeDptxSlots_stkMem,
        Chip.writeMasked_stkMem] | split)
theorem Chip.writePdPage_stkMem (c : Chip) (p a : Nat) (v : Word) : (Chip.writePdPage c p a v).stkMem = c.stkMem := by
  unfold Chip.writePdPage
  repeat' (first
    | with_reducible rfl | simp only [Chip.writeMasked_stkMem, Chip.writePdAlt_stkMem, Chip.writePdCtrl_stkMem,
        Chip.writePdSnk_stkMem, Chip.writePdSrc_stkMem] | split)
theorem Chip.writeCasc_stkMem (c : Chip) (a : Nat) (v : Word) : (Chip.writeCasc c a v).stkMem = c.stkMem := by
  simp only [Chip.writeCasc, Chip.writeCascCtrl_stkMem, Chip.writeCascPosn_stkMem, Chip.writeMasked_stkMem,
      Chip.writeRlyCtrl_stkMem, ite_stkMem, ite_self]
theorem Chip.writeSurf_stkMem (c : Chip) (a : Nat) (v : Word) : (Chip.writeSurf c a v).stkMem = c.stkMem := by
  unfold Chip.writeSurf
  repeat' (first
    | with_reducible rfl | simp only [Chip.writeMasked_stkMem, Chip.writeRxCtrl_stkMem, Chip.writeSurfCtrl_stkMem,
        ite_stkMem] | split)
theorem Chip.writePorts_stkMem (c : Chip) (a : Nat) (v : Word) : (Chip.writePorts c a v).stkMem = c.stkMem := by
  unfold Chip.writePorts
  repeat' (first
    | with_reducible rfl | simp only [Chip.writeMasked_stkMem, Chip.writePortCtrl_stkMem] | split)
theorem Chip.writeEvt_stkMem (c : Chip) (a : Nat) (v : Word) : (Chip.writeEvt c a v).stkMem = c.stkMem := by
  unfold Chip.writeEvt
  repeat' (first
    | with_reducible rfl | simp only [Chip.writeEvtCtrl_stkMem, Chip.writeMasked_stkMem, Chip.writeReact_stkMem, ite_stkMem]
    | split)
theorem Chip.writeSingle_stkMem (c : Chip) (p : Path) (a : Nat) (v : Word) : (Chip.writeSingle c p a v).stkMem = c.stkMem :=
    by
  simp only [Chip.writeSingle, Chip.writeAtstCtrl_stkMem, Chip.writeBrdgCtrl_stkMem, Chip.writeCircCtrl_stkMem,
      Chip.writeCoppCtrl_stkMem, Chip.writeEnetCtrl_stkMem, Chip.writeEphyCtrl_stkMem, Chip.writeFolioCtrl_stkMem,
      Chip.writeHubCtrl_stkMem, Chip.writeLedgRel_stkMem, Chip.writeLogRel_stkMem, Chip.writeMasked_stkMem,
      Chip.writeMuniCtrl_stkMem, Chip.writePcieCtrl_stkMem, Chip.writePcieTun_stkMem, Chip.writePpCtrl_stkMem,
      Chip.writePsWait_stkMem, Chip.writeRoutCtrl_stkMem, Chip.writeRstCtrl_stkMem, Chip.writeSafeCtrl_stkMem,
      Chip.writeScrbCtrl_stkMem, ite_stkMem, ite_self]
theorem Chip.writeBody_stkMem (c : Chip) (p : Path) (a : Nat) (v : Word) : (Chip.writeBody c p a v).stkMem = c.stkMem := by
  simp only [Chip.writeBody, Chip.writeCasc_stkMem, Chip.writeDescriptor_stkMem, Chip.writeEvt_stkMem,
      Chip.writeFlowWord_stkMem, Chip.writeHead_stkMem, Chip.writeKdrv_stkMem, Chip.writeLane_stkMem, Chip.writeLcyc_stkMem,
      Chip.writeLinkCtrl_stkMem, Chip.writeMarginalia_stkMem, Chip.writeMasked_stkMem, Chip.writeOutput_stkMem,
      Chip.writePdPage_stkMem, Chip.writePorts_stkMem, Chip.writeSingle_stkMem, Chip.writeSurf_stkMem,
      Chip.writeWindow_stkMem, ite_stkMem, ite_self]
theorem Chip.performWrite_stkMem (c : Chip) (p : Path) (a : Nat) (v : Word) : (Chip.performWrite c p a v).stkMem = c.stkMem :=
    by
  unfold Chip.performWrite
  repeat' (first
    | with_reducible rfl | simp only [Chip.writeBody_stkMem, Chip.writeEvForce_stkMem, Chip.writeMasked_stkMem,
        Chip.writePageCtrl_stkMem, ite_stkMem, ite_self] | split)

/-! ## Agent -/

theorem Chip.writeWords_stkMem (c : Chip) (p : Path) (a : Nat) (x0 : List (List Byte)) :
    (Chip.writeWords c p a x0).stkMem = c.stkMem := by
  induction x0 generalizing c p a <;> unfold Chip.writeWords <;> repeat' (first
    | with_reducible rfl | with_reducible assumption | (simp only [Chip.performWrite_stkMem, apply_ite Prod.snd, *]) | split
    | (refine (foldl_stkMem ?_ _ _).trans ?_; intro c a) | (refine foldl_stkMem ?_ _ _; intro c a)
    | (refine (when_stkMem ?_ _ _).trans ?_; intro c) | (refine when_stkMem ?_ _ _; intro c) | rfl)
theorem Chip.readWords_stkMem (c : Chip) (p : Path) (a : Nat) (x0 : Nat) : (Chip.readWords c p a x0).2.stkMem = c.stkMem := by
  induction x0 generalizing c a with
  | zero => rfl
  | succ n ih => simp only [Chip.readWords, ih, Chip.readReg_stkMem]
theorem Chip.readWords_stkMem2 (c : Chip) (p : Path) (a : Nat) (x0 : Nat) {y0 e0} (hEq_ : (Chip.readWords c p a x0) = (y0,
    e0)) : e0.stkMem = c.stkMem := by
  have := Chip.readWords_stkMem c p a x0; rw [hEq_] at this; exact this
theorem Chip.readStacks_stkMem (c : Chip) (a n : Nat) : (Chip.readStacks c a n).2.2.stkMem = c.stkMem := by
  simp only [Chip.readStacks, Chip.count_stkMem, ite_stkMem, ite_self]
theorem Chip.readStacks_stkMem2 (c : Chip) (a n : Nat) {y0 y1 e0} (hEq_ : (Chip.readStacks c a n) = (y0, y1,
    e0)) : e0.stkMem = c.stkMem := by
  have := Chip.readStacks_stkMem c a n; rw [hEq_] at this; exact this

/-! ## Service -/

theorem Chip.svcfSetup_stkMem (c : Chip) (f : Chip → Chip) (hf : ∀ c, (f c).stkMem = c.stkMem) :
    (Chip.svcfSetup c f).stkMem = c.stkMem := by
  unfold Chip.svcfSetup; split <;> [rfl; (split <;> simp only [hf, Chip.notReady_stkMem, Chip.discardSvcf_stkMem])]
theorem Chip.svcfAwait_stkMem (c : Chip) (req : Nat) : (Chip.svcfAwait c req).stkMem = c.stkMem := by
  simp only [Chip.svcfAwait, Chip.setFld_stkMem]
theorem Chip.svcfRegRead_stkMem (c : Chip) (a len : Nat) : (Chip.svcfRegRead c a len).stkMem = c.stkMem := by
  unfold Chip.svcfRegRead
  repeat' (first
    | with_reducible rfl | simp only [Chip.addReq_stkMem, Chip.readWords_stkMem, Chip.svcfAwait_stkMem, Chip.svcfEnd_stkMem,
        ite_stkMem] | split | exact Chip.readWords_stkMem2 (hEq_ := by assumption)
    | rw [Chip.readWords_stkMem2 (hEq_ := by assumption)])
theorem Chip.svcfStkRead_stkMem (c : Chip) (a len : Nat) : (Chip.svcfStkRead c a len).stkMem = c.stkMem := by
  unfold Chip.svcfStkRead
  repeat' (first
    | with_reducible rfl | simp only [Chip.readStacks_stkMem, Chip.svcfEnd_stkMem, ite_stkMem] | split
    | exact Chip.readStacks_stkMem2 (hEq_ := by assumption) | rw [Chip.readStacks_stkMem2 (hEq_ := by assumption)])
theorem Chip.svcfHold_stkMem (c : Chip) (req a : Nat) (data : List Byte) : (Chip.svcfHold c req a data).stkMem = c.stkMem :=
    by
  simp only [Chip.svcfHold, Chip.svcfEnd_stkMem, ite_stkMem, ite_self]
theorem Chip.lastStatus_stkMem (c : Chip) (addr len : Nat) : (Chip.lastStatus c addr len).stkMem = c.stkMem := by
  simp only [Chip.lastStatus, Chip.count_stkMem, Chip.emit_stkMem, Chip.raise_stkMem, ite_stkMem, ite_self]
theorem Chip.setConfiguration_stkMem (c : Chip) (on : Bool) (address setting : Nat) :
    (Chip.setConfiguration c on address setting).stkMem = c.stkMem := by
  simp only [Chip.setConfiguration, Chip.discardSvcf_stkMem, Chip.setFld_stkMem, ite_stkMem, ite_self]
theorem Chip.svcpEnd_stkMem (c : Chip) : (Chip.svcpEnd c).stkMem = c.stkMem := by
  simp only [Chip.svcpEnd, Chip.count_stkMem, Chip.modSvcp_stkMem, Chip.unasked_stkMem, ite_stkMem, ite_self]
theorem Chip.svcpDo_stkMem (c : Chip) (f : Chip → Chip) (hf : ∀ c, (f c).stkMem = c.stkMem) :
    (Chip.svcpDo c f).stkMem = c.stkMem := by
  unfold Chip.svcpDo; split <;> simp only [hf]
theorem Chip.svcpBegin_stkMem (c : Chip) (f : Chip → Chip) (hf : ∀ c, (f c).stkMem = c.stkMem) :
    (Chip.svcpBegin c f).stkMem = c.stkMem := by
  unfold Chip.svcpBegin; split
  · rfl
  · dsimp only; split
    · rw [Chip.emit_stkMem, Chip.latchWake_stkMem]
    · rw [Chip.svcpDo_stkMem _ _ hf, Chip.latchWake_stkMem]
theorem Chip.svcpStart_stkMem (c : Chip) (cmd : Nat) (f : Svcp → Svcp) : (Chip.svcpStart c cmd f).stkMem = c.stkMem := by
  simp only [Chip.svcpStart, Chip.modSvcp_stkMem, Chip.setFld_stkMem, Chip.svcpEnd_stkMem]
theorem Chip.nackAll_stkMem (c : Chip) (n : Nat) : (Chip.nackAll c n).stkMem = c.stkMem := by
  unfold Chip.nackAll
  repeat' (first
    | with_reducible rfl | simp only [Chip.emit_stkMem] | split | (refine (foldl_stkMem ?_ _ _).trans ?_; intro c a) | rfl)
theorem Chip.svcpSetup_stkMem (c : Chip) (cmd : Nat) (stk : Bool) (x : SvcpSetup) :
    (Chip.svcpSetup c cmd stk x).stkMem = c.stkMem := by
  unfold Chip.svcpSetup
  repeat' (first
    | with_reducible rfl | simp only [Chip.nackAll_stkMem, Chip.svcpStart_stkMem] | split)
theorem Chip.svcpReads_stkMem (c : Chip) (stk : Bool) (a : Nat) (x0 : Nat) : (Chip.svcpReads c stk a x0).stkMem = c.stkMem :=
    by
  induction x0 generalizing c stk a <;> unfold Chip.svcpReads <;> repeat' (first
    | with_reducible rfl | with_reducible assumption | (simp only [Chip.addReq_stkMem, Chip.emit_stkMem, Chip.modSvcp_stkMem,
        Chip.readReg_stkMem, Chip.readStacks_stkMem, Chip.svcpOnes_stkMem, ite_stkMem, apply_ite Prod.snd, *]) | split
    | exact Chip.readReg_stkMem2 (hEq_ := by assumption) | rw [Chip.readReg_stkMem2 (hEq_ := by assumption)]
    | exact Chip.readStacks_stkMem2 (hEq_ := by assumption) | rw [Chip.readStacks_stkMem2 (hEq_ := by assumption)]
    | (refine (foldl_stkMem ?_ _ _).trans ?_; intro c a) | (refine foldl_stkMem ?_ _ _; intro c a)
    | (refine (when_stkMem ?_ _ _).trans ?_; intro c) | (refine when_stkMem ?_ _ _; intro c) | rfl)
theorem Chip.svcpRead_stkMem (c : Chip) (n : Nat) : (Chip.svcpRead c n).stkMem = c.stkMem := by
  unfold Chip.svcpRead
  repeat' (first
    | with_reducible rfl | simp only [Chip.emit_stkMem, Chip.setFld_stkMem, Chip.svcpEnd_stkMem, Chip.svcpReads_stkMem]
    | split)
theorem Chip.svcVrefLoss_stkMem (c : Chip) : (Chip.svcVrefLoss c).stkMem = c.stkMem := by
  simp only [Chip.svcVrefLoss, Chip.svcpEnd_stkMem]
theorem Chip.railGroupOpen_stkMem (c : Chip) (i : Nat) : (Chip.railGroupOpen c i).stkMem = c.stkMem := by
  simp only [Chip.railGroupOpen, Chip.dpOvercurrent_stkMem, Chip.socketTrip_stkMem, ite_stkMem, ite_self]

/-! ## Requests -/

theorem Chip.countRefused_stkMem (c : Chip) (q : Arrived) (status : Nat) : (Chip.countRefused c q status).stkMem = c.stkMem :=
    by
  simp only [Chip.countRefused, Chip.count_stkMem, ite_stkMem, ite_self]
theorem Chip.refuseRequest_stkMem (c : Chip) (q : Arrived) (status : Nat) :
    (Chip.refuseRequest c q status).stkMem = c.stkMem := by
  simp only [Chip.refuseRequest, Chip.answer_stkMem, Chip.countRefused_stkMem, Chip.countWinError_stkMem,
      Chip.logFailure_stkMem, Chip.raise_stkMem, ite_stkMem, ite_self]
theorem Chip.prefetchAfter_stkMem (c : Chip) (q : Arrived) (w t : Nat) (p : Plan) :
    (Chip.prefetchAfter c q w t p).stkMem = c.stkMem := by
  unfold Chip.prefetchAfter
  repeat' (first
    | with_reducible rfl | simp only [Chip.addReq_stkMem, Chip.fillPrefetch_stkMem, Chip.readStacks_stkMem,
        Chip.readWords_stkMem, Chip.voidAhead_stkMem, ite_stkMem, ite_self] | split
    | exact Chip.readStacks_stkMem2 (hEq_ := by assumption) | rw [Chip.readStacks_stkMem2 (hEq_ := by assumption)]
    | exact Chip.readWords_stkMem2 (hEq_ := by assumption) | rw [Chip.readWords_stkMem2 (hEq_ := by assumption)])
theorem Chip.readBuffer_stkMem (c : Chip) (q : Arrived) (w t key order : Nat) (b : PrefetchBuf) :
    (Chip.readBuffer c q w t key order b).stkMem = c.stkMem := by
  simp only [Chip.readBuffer, Chip.answer_stkMem, Chip.count_stkMem]
theorem Chip.readTarget_stkMem (c : Chip) (q : Arrived) (t : Nat) (p : Plan) : (Chip.readTarget c q t p).stkMem = c.stkMem :=
    by
  unfold Chip.readTarget
  repeat' (first
    | with_reducible rfl | simp only [Chip.addReq_stkMem, Chip.answer_stkMem, Chip.readStacks_stkMem, Chip.readWords_stkMem,
        Chip.refuseRequest_stkMem] | split | exact Chip.readStacks_stkMem2 (hEq_ := by assumption)
    | rw [Chip.readStacks_stkMem2 (hEq_ := by assumption)] | exact Chip.readWords_stkMem2 (hEq_ := by assumption)
    | rw [Chip.readWords_stkMem2 (hEq_ := by assumption)])
theorem Chip.readRequest_stkMem (c : Chip) (q : Arrived) (t : Nat) (p : Plan) : (Chip.readRequest c q t p).stkMem = c.stkMem :=
    by
  unfold Chip.readRequest
  repeat' (first
    | with_reducible rfl | simp only [Chip.prefetchAfter_stkMem, Chip.readBuffer_stkMem, Chip.readTarget_stkMem,
        Chip.refuseRequest_stkMem] | split)
theorem Chip.wrote_stkMem (c : Chip) (q : Arrived) : (Chip.wrote c q).stkMem = c.stkMem := by
  simp only [Chip.wrote, Chip.answer_stkMem, ite_stkMem, ite_self]

/-! ## Epoch -/

theorem Chip.dwellTick_stkMem (c : Chip) : (Chip.dwellTick c).stkMem = c.stkMem := by
  unfold Chip.dwellTick
  repeat' (first
    | with_reducible rfl | simp only [Chip.modSched_stkMem] | split | (refine (foldl_stkMem ?_ _ _).trans ?_; intro c a)
    | rfl)
theorem Chip.nextEpoch_stkMem (c : Chip) : (Chip.nextEpoch c).stkMem = c.stkMem := by
  unfold Chip.nextEpoch
  repeat' (first
    | with_reducible rfl | simp only [Chip.dwellTick_stkMem, Chip.pdTick_stkMem, Chip.sampleSupplies_stkMem,
        Chip.setReg_stkMem] | split | (refine (when_stkMem ?_ _ _).trans ?_; intro c))
theorem Chip.markEpoch_stkMem (c : Chip) : (Chip.markEpoch c).stkMem = c.stkMem := by
  unfold Chip.markEpoch
  repeat' (first
    | with_reducible rfl | simp only [Chip.modLane_stkMem, Chip.modLink_stkMem, ite_stkMem, ite_self] | split
    | (refine (foldl_stkMem ?_ _ _).trans ?_; intro c a))
theorem Chip.leaveGroup_stkMem (c : Chip) (l : Nat) : (Chip.leaveGroup c l).stkMem = c.stkMem := by
  simp only [Chip.leaveGroup, Chip.modLane_stkMem, Chip.setFld_stkMem, Chip.swapSlices_stkMem, ite_stkMem, ite_self]
theorem Chip.startRetrain_stkMem (c : Chip) (l : Nat) : (Chip.startRetrain c l).stkMem = c.stkMem := by
  simp only [Chip.startRetrain, Chip.beginRetrain_stkMem, Chip.retrainLane_stkMem, ite_stkMem, ite_self]
theorem Chip.joinGroup_stkMem (c : Chip) (l : Nat) : (Chip.joinGroup c l).stkMem = c.stkMem := by
  simp only [Chip.joinGroup, Chip.modLane_stkMem, Chip.setFld_stkMem]
theorem Chip.rejoinGroup_stkMem (c : Chip) (l : Nat) : (Chip.rejoinGroup c l).stkMem = c.stkMem := by
  simp only [Chip.rejoinGroup, Chip.joinGroup_stkMem, ite_stkMem, ite_self]
theorem Chip.laneBoundary_stkMem (c : Chip) (k : Lnk) : (Chip.laneBoundary c k).stkMem = c.stkMem := by
  unfold Chip.laneBoundary
  repeat' (first
    | with_reducible rfl | simp only [Chip.leaveGroup_stkMem, Chip.rejoinGroup_stkMem, Chip.startRetrain_stkMem,
        Chip.syncMaps_stkMem, Chip.turnBoundary_stkMem, ite_stkMem] | split
    | (refine (foldl_stkMem ?_ _ _).trans ?_; intro c a))
theorem Chip.declareLink_stkMem (c : Chip) (k : Lnk) (trained : Bool) : (Chip.declareLink c k trained).stkMem = c.stkMem := by
  simp only [Chip.declareLink, Chip.modSched_stkMem, Chip.setFld_stkMem, ite_stkMem, ite_self]
theorem Chip.enterLanes_stkMem (c : Chip) (k : Lnk) (ls : List Nat) : (Chip.enterLanes c k ls).stkMem = c.stkMem := by
  unfold Chip.enterLanes
  repeat' (first
    | with_reducible rfl | simp only [Chip.joinGroup_stkMem, Chip.modLane_stkMem, ite_stkMem, ite_self] | split
    | (refine (foldl_stkMem ?_ _ _).trans ?_; intro c a) | rfl)
theorem Chip.markUp_stkMem (c : Chip) (k : Lnk) : (Chip.markUp c k).stkMem = c.stkMem := by
  simp only [Chip.markUp, Chip.modLink_stkMem, Chip.setFld_stkMem, Chip.syncMaps_stkMem]
theorem Chip.firstGrants_stkMem (c : Chip) (k : Lnk) : (Chip.firstGrants c k).stkMem = c.stkMem := by
  simp only [Chip.firstGrants, Chip.modLink_stkMem, ite_stkMem, ite_self]
theorem Chip.comeUp_stkMem (c : Chip) (k : Lnk) (ls : List Nat) : (Chip.comeUp c k ls).stkMem = c.stkMem := by
  simp only [Chip.comeUp, Chip.cascadeUp_stkMem, Chip.declareLink_stkMem, Chip.enterLanes_stkMem, Chip.firstGrants_stkMem,
      Chip.lightExit_stkMem, Chip.markUp_stkMem, Chip.raiseOpen_stkMem, Chip.syncCirc_stkMem, ite_stkMem, ite_self]
theorem Chip.linkBoundary_stkMem (c : Chip) (k : Lnk) : (Chip.linkBoundary c k).stkMem = c.stkMem := by
  simp only [Chip.linkBoundary, Chip.attemptFails_stkMem, Chip.comeUp_stkMem, Chip.setFld_stkMem, Chip.startTraining_stkMem,
      ite_stkMem, ite_self]
theorem Chip.takeEffect_stkMem (c : Chip) (k : Lnk) : (Chip.takeEffect c k).stkMem = c.stkMem := by
  unfold Chip.takeEffect
  repeat' (first
    | with_reducible rfl | simp only [Chip.modLink_stkMem, Chip.modSched_stkMem, Chip.setFld_stkMem] | split
    | (refine (foldl_stkMem ?_ _ _).trans ?_; intro c a))
theorem Chip.countStale_stkMem (c : Chip) (k : Lnk) : (Chip.countStale c k).stkMem = c.stkMem := by
  simp only [Chip.countStale, Chip.modSched_stkMem, Chip.raise_stkMem, Chip.setFld_stkMem, ite_stkMem, ite_self]
theorem Chip.circulate_stkMem (c : Chip) (k : Lnk) : (Chip.circulate c k).stkMem = c.stkMem := by
  simp only [Chip.circulate, Chip.computeDir_stkMem, Chip.countDecl_stkMem, Chip.countStale_stkMem, Chip.decideTurn_stkMem,
      Chip.sendAllot_stkMem, Chip.syncSched_stkMem, Chip.takeEffect_stkMem, ite_stkMem, ite_self]
theorem Chip.circulation_stkMem (c : Chip) : (Chip.circulation c).stkMem = c.stkMem := by
  simp only [Chip.circulation, Chip.checkpoint_stkMem, Chip.circulate_stkMem, Chip.endGap_stkMem, ite_stkMem, ite_self]
theorem Chip.drainFlow_stkMem (c : Chip) (f : Nat) : (Chip.drainFlow c f).stkMem = c.stkMem := by
  simp only [Chip.drainFlow, Chip.freeFlow_stkMem, Chip.modFlow_stkMem, ite_stkMem, ite_self]
theorem Chip.drainFlows_stkMem (c : Chip) : (Chip.drainFlows c).stkMem = c.stkMem := by
  unfold Chip.drainFlows
  repeat' (first
    | with_reducible rfl | simp only [Chip.drainFlow_stkMem] | split | (refine (foldl_stkMem ?_ _ _).trans ?_; intro c a)
    | rfl)
theorem Chip.retryMaint_stkMem (c : Chip) : (Chip.retryMaint c).stkMem = c.stkMem := by
  unfold Chip.retryMaint
  repeat' (first
    | with_reducible rfl | simp only [Chip.clearKeyFolios_stkMem, Chip.laneRepair_stkMem, Chip.repairSlot_stkMem,
        Chip.requestMapWrite_stkMem, Chip.startStkRepair_stkMem, ite_stkMem, ite_self] | split
    | (refine (foldl_stkMem ?_ _ _).trans ?_; intro c a))
theorem Chip.beamRecord_stkMem (c : Chip) : (Chip.beamRecord c).stkMem = c.stkMem := by
  unfold Chip.beamRecord
  repeat' (first
    | with_reducible rfl | simp only [Chip.modHead_stkMem, ite_stkMem] | split
    | (refine (foldl_stkMem ?_ _ _).trans ?_; intro c a))
theorem Chip.closeEpoch_stkMem (c : Chip) : (Chip.closeEpoch c).stkMem = c.stkMem := by
  simp only [Chip.closeEpoch, Chip.closeAll_stkMem, Chip.raise_stkMem, Chip.sweepMessages_stkMem, ite_stkMem, ite_self]
theorem Chip.freeTurns_stkMem (c : Chip) : (Chip.freeTurns c).stkMem = c.stkMem := by
  simp only [Chip.freeTurns, ite_stkMem, ite_self]
theorem Chip.ownBoundary_stkMem (c : Chip) (k : Lnk) : (Chip.ownBoundary c k).stkMem = c.stkMem := by
  simp only [Chip.ownBoundary, Chip.laneBoundary_stkMem, Chip.linkBoundary_stkMem, ite_stkMem, ite_self]
theorem Chip.coreStrobe_stkMem (c : Chip) : (Chip.coreStrobe c).stkMem = c.stkMem := by
  simp only [Chip.coreStrobe, Chip.applyRebinds_stkMem, Chip.beamRecord_stkMem, Chip.circulation_stkMem,
      Chip.closeEpoch_stkMem, Chip.drainFlows_stkMem, Chip.ethStrobe_stkMem, Chip.freeTurns_stkMem,
      Chip.lowerBoundary_stkMem, Chip.markEpoch_stkMem, Chip.ownBoundary_stkMem, Chip.retryMaint_stkMem,
      Chip.swapPlane_stkMem]
theorem Chip.strobe_stkMem (c : Chip) : (Chip.strobe c).stkMem = c.stkMem := by
  simp only [Chip.strobe, Chip.coreStrobe_stkMem, Chip.nextEpoch_stkMem, ite_stkMem, ite_self]

end Sys2Proof.Machine
end

