-- ==== Sys2Proof/Laws/Ops.lean ====
section
/-! SUPPORT. Registers and fields: read after write, fields that do not overlap, and what the shared operations leave alone. -/

namespace Sys2Proof.Machine

/-! ## Fields of a word -/

/-- The parts of a word below, in and above a field. -/
theorem Fld.put_toNat (f : Fld) (w : Word) (x : Nat) (h : f.lo + f.width ≤ 32) :
    (f.put w x).toNat =
      2 ^ f.lo * (2 ^ f.width * (w.toNat / 2 ^ f.lo / 2 ^ f.width) + x % 2 ^ f.width) + w.toNat % 2 ^ f.lo := by
  unfold Fld.put Fld.get
  set n := w.toNat with hn
  have hlt : n < 2 ^ 32 := w.isLt
  set L := 2 ^ f.lo with hL
  set W := 2 ^ f.width with hW
  have hLp : 0 < L := by positivity
  have hWp : 0 < W := by positivity
  have hLW : L * W * 2 ^ (32 - f.lo - f.width) = 2 ^ 32 := by
    rw [hL, hW, ← pow_add, ← pow_add]; congr 1; omega
  have e1 : n = L * (n / L) + n % L := (Nat.div_add_mod n L).symm
  have e2 : n / L = W * (n / L / W) + n / L % W := (Nat.div_add_mod _ W).symm
  have hy : x % W < W := Nat.mod_lt _ hWp
  have hr : n % L < L := Nat.mod_lt _ hLp
  have hq : n / L / W < 2 ^ (32 - f.lo - f.width) := by
    rw [Nat.div_div_eq_div_mul]; apply Nat.div_lt_of_lt_mul; rw [hLW]; exact hlt
  have e3 : n - n / L % W * L + x % W * L = L * (W * (n / L / W) + x % W) + n % L := by
    have : n = L * (W * (n / L / W)) + n / L % W * L + n % L := by
      calc n = L * (n / L) + n % L := e1
        _ = L * (W * (n / L / W) + n / L % W) + n % L := by rw [← e2]
        _ = _ := by ring
    have h4 : n - n / L % W * L = L * (W * (n / L / W)) + n % L := by omega
    rw [h4]; ring
  rw [e3, BitVec.toNat_ofNat, Nat.mod_eq_of_lt]
  calc L * (W * (n / L / W) + x % W) + n % L < L * (W * (n / L / W) + x % W) + L := by omega
    _ = L * (W * (n / L / W) + x % W + 1) := by ring
    _ ≤ L * (W * (n / L / W) + W) := Nat.mul_le_mul_left _ (by omega)
    _ = L * W * (n / L / W + 1) := by ring
    _ ≤ L * W * 2 ^ (32 - f.lo - f.width) := Nat.mul_le_mul_left _ hq
    _ = 2 ^ 32 := hLW

/-- A field reads back what was put into it. -/
theorem Fld.get_put (f : Fld) (w : Word) (x : Nat) (h : f.lo + f.width ≤ 32) : f.get (f.put w x) = x % 2 ^ f.width := by
  unfold Fld.get
  rw [Fld.put_toNat f w x h, Nat.mul_add_div (by positivity), Nat.div_eq_of_lt (Nat.mod_lt _ (by positivity)), Nat.add_zero,
    Nat.mul_add_mod, Nat.mod_mod]

/-- A field keeps its value when another one, apart from it, is replaced. -/
theorem Fld.get_put_apart (f g : Fld) (w : Word) (x : Nat) (h : f.lo + f.width ≤ 32)
    (ha : g.lo + g.width ≤ f.lo ∨ f.lo + f.width ≤ g.lo) : g.get (f.put w x) = g.get w := by
  unfold Fld.get
  rw [Fld.put_toNat f w x h]
  rcases ha with ha | ha
  · have low (n : Nat) : n / 2 ^ g.lo % 2 ^ g.width = n % 2 ^ f.lo / 2 ^ g.lo % 2 ^ g.width := by
      obtain ⟨k, hk⟩ := Nat.exists_eq_add_of_le ha
      have : 2 ^ f.lo = 2 ^ g.lo * 2 ^ (g.width + k) := by rw [← pow_add]; congr 1; omega
      rw [this, Nat.mod_mul_right_div_self, Nat.mod_mod_of_dvd]
      exact pow_dvd_pow _ (by omega)
    rw [low, low w.toNat, Nat.mul_add_mod, Nat.mod_mod]
  · have high (n : Nat) : n / 2 ^ g.lo = n / (2 ^ f.lo * 2 ^ f.width) / 2 ^ (g.lo - f.lo - f.width) := by
      rw [Nat.div_div_eq_div_mul, ← pow_add, ← pow_add]; congr 2; omega
    have e : ∀ q y r : Nat, y < 2 ^ f.width → r < 2 ^ f.lo →
        (2 ^ f.lo * (2 ^ f.width * q + y) + r) / (2 ^ f.lo * 2 ^ f.width) = q := by
      intro q y r hy hr
      rw [← Nat.div_div_eq_div_mul, Nat.mul_add_div (by positivity), Nat.div_eq_of_lt hr, Nat.add_zero,
        Nat.mul_add_div (by positivity), Nat.div_eq_of_lt hy, Nat.add_zero]
    rw [high, high w.toNat, e _ _ _ (Nat.mod_lt _ (by positivity)) (Nat.mod_lt _ (by positivity)), Nat.div_div_eq_div_mul w.toNat]

/-! ## Registers -/

@[simp] theorem Chip.reg_setReg_self (c : Chip) (a : Nat) (v : Word) : (c.setReg a v).reg a = v :=
  cellsGet_set_self _ _ _ _

theorem Chip.reg_setReg_ne (c : Chip) {a b : Nat} (v : Word) (h : b ≠ a) : (c.setReg a v).reg b = c.reg b :=
  cellsGet_set_ne _ _ _ h

theorem Chip.reg_setFld_ne (c : Chip) (f : Fld) (x : Nat) {b : Nat} (h : b ≠ f.addr) : (c.setFld f x).reg b = c.reg b :=
  c.reg_setReg_ne _ h

theorem Chip.fld_setFld_self (c : Chip) (f : Fld) (x : Nat) (h : f.lo + f.width ≤ 32) : (c.setFld f x).fld f = x % 2 ^ f.width := by
  unfold Chip.fld Chip.setFld; rw [Chip.reg_setReg_self, Fld.get_put f _ _ h]

theorem Chip.fld_setFld_ne (c : Chip) (f g : Fld) (x : Nat) (h : g.addr ≠ f.addr) : (c.setFld f x).fld g = c.fld g := by
  unfold Chip.fld; rw [Chip.reg_setFld_ne _ _ _ h]

theorem Chip.fld_setFld_apart (c : Chip) (f g : Fld) (x : Nat) (hf : f.lo + f.width ≤ 32)
    (h : g.lo + g.width ≤ f.lo ∨ f.lo + f.width ≤ g.lo) : (c.setFld f x).fld g = c.fld g := by
  by_cases ha : g.addr = f.addr
  · unfold Chip.fld Chip.setFld; rw [ha, Chip.reg_setReg_self, Fld.get_put_apart f g _ _ hf h]
  · exact c.fld_setFld_ne f g x ha

theorem Chip.fld_setReg_ne (c : Chip) (g : Fld) (a : Nat) (v : Word) (h : g.addr ≠ a) : (c.setReg a v).fld g = c.fld g := by
  unfold Chip.fld; rw [Chip.reg_setReg_ne _ _ h]

/-- A counter field that is not at its end rises by one and stops at it otherwise. -/
theorem Chip.fld_count_self (c : Chip) (f : Fld) (n : Nat) (h : f.lo + f.width ≤ 32) :
    (c.count f n).fld f = min (c.fld f + n) (2 ^ f.width - 1) := by
  unfold Chip.count
  rw [Chip.fld_setFld_self _ _ _ h, Nat.mod_eq_of_lt]
  have : 0 < 2 ^ f.width := by positivity
  omega

/-! ## What the shared operations leave alone -/

@[simp] theorem Chip.reg_emit (c : Chip) (e : Emit) (a : Nat) : (c.emit e).reg a = c.reg a := rfl
@[simp] theorem Chip.fld_emit (c : Chip) (e : Emit) (f : Fld) : (c.emit e).fld f = c.fld f := rfl
@[simp] theorem Chip.on_emit (c : Chip) (e : Emit) (f : Fld) : (c.emit e).on f = c.on f := rfl
@[simp] theorem Chip.out_emit (c : Chip) (e : Emit) : (c.emit e).out = c.out ++ [e] := rfl

/-- A source of an enabled page joins the pending firings; nothing else changes. -/
theorem Chip.raise_eq (c : Chip) (src detail : Nat) :
    c.raise src detail = c ∨
      c.raise src detail = { c with firings := c.firings ++ [{ src := src, detail := detail, forced := false }] } := by
  unfold Chip.raise; split <;> simp

@[simp] theorem Chip.reg_raise (c : Chip) (s d a : Nat) : (c.raise s d).reg a = c.reg a := by
  unfold Chip.raise; split <;> rfl
@[simp] theorem Chip.fld_raise (c : Chip) (s d : Nat) (f : Fld) : (c.raise s d).fld f = c.fld f := by
  unfold Chip.raise; split <;> rfl
@[simp] theorem Chip.reg_raiseOpen (c : Chip) (s a : Nat) : (c.raiseOpen s).reg a = c.reg a := by
  unfold Chip.raiseOpen; simp only [Chip.fresh, Chip.reg_raise]; rfl
@[simp] theorem Chip.fld_raiseOpen (c : Chip) (s : Nat) (f : Fld) : (c.raiseOpen s).fld f = c.fld f := by
  unfold Chip.fld; rw [Chip.reg_raiseOpen]

@[simp] theorem Chip.reg_modLane (c : Chip) (l : Nat) (f : LaneSt → LaneSt) (a : Nat) : (c.modLane l f).reg a = c.reg a := rfl
@[simp] theorem Chip.fld_modLane (c : Chip) (l : Nat) (f : LaneSt → LaneSt) (g : Fld) : (c.modLane l f).fld g = c.fld g := rfl
@[simp] theorem Chip.reg_modLink (c : Chip) (k : Lnk) (f : LinkSt → LinkSt) (a : Nat) : (c.modLink k f).reg a = c.reg a := rfl
@[simp] theorem Chip.fld_modLink (c : Chip) (k : Lnk) (f : LinkSt → LinkSt) (g : Fld) : (c.modLink k f).fld g = c.fld g := rfl
@[simp] theorem Chip.reg_modFlow (c : Chip) (n : Nat) (f : FlowEnt → FlowEnt) (a : Nat) : (c.modFlow n f).reg a = c.reg a := rfl
@[simp] theorem Chip.fld_modFlow (c : Chip) (n : Nat) (f : FlowEnt → FlowEnt) (g : Fld) : (c.modFlow n f).fld g = c.fld g := rfl
@[simp] theorem Chip.reg_modSched (c : Chip) (k : Lnk) (f : Sched → Sched) (a : Nat) : (c.modSched k f).reg a = c.reg a := rfl
@[simp] theorem Chip.fld_modSched (c : Chip) (k : Lnk) (f : Sched → Sched) (g : Fld) : (c.modSched k f).fld g = c.fld g := rfl
@[simp] theorem Chip.reg_setOutQ (c : Chip) (k : Lnk) (n : Nat) (q : List QCell) (a : Nat) : (c.setOutQ k n q).reg a = c.reg a := rfl
@[simp] theorem Chip.fld_setOutQ (c : Chip) (k : Lnk) (n : Nat) (q : List QCell) (g : Fld) : (c.setOutQ k n q).fld g = c.fld g := rfl
@[simp] theorem Chip.reg_maintDrop (c : Chip) (p : MaintHold → Bool) (a : Nat) : (c.maintDrop p).reg a = c.reg a := rfl
@[simp] theorem Chip.fld_maintDrop (c : Chip) (p : MaintHold → Bool) (g : Fld) : (c.maintDrop p).fld g = c.fld g := rfl
@[simp] theorem Chip.reg_setStk (c : Chip) (a : Nat) (b : Byte) (r : Nat) : (c.setStk a b).reg r = c.reg r := rfl

@[simp] theorem Chip.when_true (c : Chip) (f : Chip → Chip) : c.when true f = f c := rfl
@[simp] theorem Chip.when_false (c : Chip) (f : Chip → Chip) : c.when false f = c := rfl

/-! ## Stores of units -/

@[simp] theorem Chip.lane_setLane_self (c : Chip) (l : Nat) (x : LaneSt) : (c.setLane l x).lane l = x := cellsGet_set_self _ _ _ _
theorem Chip.lane_setLane_ne (c : Chip) {l m : Nat} (x : LaneSt) (h : m ≠ l) : (c.setLane l x).lane m = c.lane m :=
  cellsGet_set_ne _ _ _ h
@[simp] theorem Chip.lane_modLane_self (c : Chip) (l : Nat) (f : LaneSt → LaneSt) : (c.modLane l f).lane l = f (c.lane l) :=
  cellsGet_set_self _ _ _ _
@[simp] theorem Chip.link_modLink_self (c : Chip) (k : Lnk) (f : LinkSt → LinkSt) : (c.modLink k f).link k = f (c.link k) :=
  cellsGet_set_self _ _ _ _
@[simp] theorem Chip.flow_modFlow_self (c : Chip) (n : Nat) (f : FlowEnt → FlowEnt) : (c.modFlow n f).flow n = f (c.flow n) :=
  cellsGet_set_self _ _ _ _
@[simp] theorem Chip.sched_modSched_self (c : Chip) (k : Lnk) (f : Sched → Sched) : (c.modSched k f).sched k = f (c.sched k) :=
  cellsGet_set_self _ _ _ _
@[simp] theorem Chip.outQ_setOutQ_self (c : Chip) (k : Lnk) (f : Nat) (q : List QCell) : (c.setOutQ k f q).outQ k f = q :=
  cellsGet_set_self _ _ _ _

/-! ## The Stacks -/

@[simp] theorem Chip.stk_setStk_self (c : Chip) (a : Nat) (b : Byte) : (c.setStk a b).stk a = b := cellsGet_set_self _ _ _ _
theorem Chip.stk_setStk_ne (c : Chip) {a x : Nat} (b : Byte) (h : x ≠ a) : (c.setStk a b).stk x = c.stk x :=
  cellsGet_set_ne _ _ _ h

theorem Chip.stk_stkBytes (bs : List Byte) : ∀ (c : Chip) (a x : Nat),
    (c.stkBytes a bs).stk x = if a ≤ x ∧ x < a + bs.length then bs.getD (x - a) 0 else c.stk x := by
  induction bs with
  | nil => intro c a x; simp [Chip.stkBytes]
  | cons b bs ih =>
    intro c a x
    simp only [Chip.stkBytes, ih, List.length_cons]
    by_cases h : x = a
    · subst h
      have h1 : ¬ (x + 1 ≤ x ∧ x < x + 1 + bs.length) := by omega
      have h2 : x ≤ x ∧ x < x + (bs.length + 1) := by omega
      simp only [if_neg h1, if_pos h2, Chip.stk_setStk_self]
      simp
    · rw [Chip.stk_setStk_ne _ _ h]
      by_cases h1 : a + 1 ≤ x ∧ x < a + 1 + bs.length
      · have h2 : a ≤ x ∧ x < a + (bs.length + 1) := by omega
        rw [if_pos h1, if_pos h2]
        obtain ⟨k, rfl⟩ := Nat.exists_eq_add_of_le h1.1
        have e1 : a + 1 + k - (a + 1) = k := by omega
        have e2 : a + 1 + k - a = k + 1 := by omega
        rw [e1, e2]; simp
      · have h2 : ¬ (a ≤ x ∧ x < a + (bs.length + 1)) := by omega
        rw [if_neg h1, if_neg h2]

/-- A write of bytes stores them from its address on and leaves every other byte of the Stacks alone. -/
theorem Chip.stk_stkWrite (c : Chip) (a : Nat) (bs : List Byte) (x : Nat) :
    (c.stkWrite a bs).stk x = if a ≤ x ∧ x < a + bs.length then bs.getD (x - a) 0 else c.stk x := by
  have key (l : List Nat) (g : Chip → Nat → Chip) (hg : ∀ c b, (g c b).stk x = c.stk x) :
      ∀ c, (l.foldl g c).stk x = c.stk x := by
    induction l with
    | nil => intro c; rfl
    | cons b l ih => intro c; rw [List.foldl_cons, ih, hg]
  unfold Chip.stkWrite
  rw [Chip.stk_stkBytes]
  congr 1
  apply key
  intro c b
  dsimp only
  split <;> split <;> rfl

end Sys2Proof.Machine
end

