-- ==== Sys2Proof/Laws/StacksForm.lean ====
section
/-! SUPPORT. The bytes of the local Stacks stay in their canonical form: the shared operations that store, and every part of a meaning
that stores through them or gives the Stacks up. -/

namespace Sys2Proof.Machine

/-! ## The shared operations -/

theorem Chip.stacksWf_of_eq {c d : Chip} (h : d.stkMem = c.stkMem) (hc : c.stacksWf) : d.stacksWf := by
  unfold Chip.stacksWf; rw [h]; exact hc

theorem Chip.stacksWf_nil {d : Chip} (h : d.stkMem = []) : d.stacksWf := by
  unfold Chip.stacksWf; rw [h]; exact rfl

theorem Chip.setStk_stacksWf {c : Chip} (a : Nat) (b : Byte) (h : c.stacksWf) : (c.setStk a b).stacksWf := by
  unfold Chip.setStk; exact cellsWf_set _ _ _ _ h

theorem Chip.stkBytes_stacksWf (bs : List Byte) : ∀ {c : Chip} (a : Nat), c.stacksWf → (c.stkBytes a bs).stacksWf := by
  induction bs with
  | nil => intro c a h; exact h
  | cons b bs ih => intro c a h; rw [Chip.stkBytes]; exact ih _ (Chip.setStk_stacksWf _ _ h)

theorem Chip.stkWrite_stacksWf {c : Chip} (a : Nat) (bs : List Byte) (h : c.stacksWf) : (c.stkWrite a bs).stacksWf := by
  unfold Chip.stkWrite
  refine Chip.stkBytes_stacksWf _ _ (Chip.stacksWf_of_eq ?_ h)
  refine foldl_stkMem ?_ _ _
  intro c b
  dsimp only
  split <;> split <;> rfl

theorem ite_stacksWf {c d : Chip} (p : Prop) [Decidable p] (hc : c.stacksWf) (hd : d.stacksWf) : (if p then c else d).stacksWf := by
  split <;> assumption

/-! ## Tiles, raw lines and streams -/

theorem foldl_stacksWf {α : Type} {f : Chip → α → Chip} (h : ∀ c a, c.stacksWf → (f c a).stacksWf) (l : List α) :
    ∀ c : Chip, c.stacksWf → (l.foldl f c).stacksWf := by
  induction l with
  | nil => intro c hc; exact hc
  | cons a l ih => intro c hc; exact ih _ (h _ _ hc)

theorem Chip.putEspalier_stacksWf {c : Chip} (w : SurfWrite) (h : c.stacksWf) : (c.putEspalier w).stacksWf := by
  unfold Chip.putEspalier
  dsimp only
  exact Chip.stkWrite_stacksWf _ _ (ite_stacksWf _ h (Chip.stkWrite_stacksWf _ _ h))

theorem Chip.putPacked_stacksWf {c : Chip} (w : SurfWrite) (h : c.stacksWf) : (c.putPacked w).stacksWf := by
  unfold Chip.putPacked
  exact foldl_stacksWf (fun _ _ hc => Chip.stkWrite_stacksWf _ _ hc) _ _ h

theorem Chip.endTile_stacksWf {c : Chip} (u : Nat) (h : c.stacksWf) : (c.endTile u).stacksWf := by
  unfold Chip.endTile
  split
  · exact h
  · dsimp only
    refine Chip.stacksWf_of_eq
      ((Chip.count_stkMem _ _ _).trans ((Chip.endJob_stkMem _ _).trans (Chip.freeUnit_stkMem _ _))) ?_
    split
    · exact Chip.putEspalier_stacksWf _ h
    · exact Chip.putPacked_stacksWf _ h

theorem Chip.ringWrite_stacksWf {c : Chip} (a : Nat) (bs : List Byte) (h : c.stacksWf) : (c.ringWrite a bs).stacksWf := by
  unfold Chip.ringWrite; exact Chip.stkWrite_stacksWf _ _ h

theorem Chip.rawLine_stacksWf {c : Chip} (f : Nat) (m : List MsgCell) (h : c.stacksWf) : (c.rawLine f m).stacksWf := by
  unfold Chip.rawLine
  split
  · exact h
  · dsimp only
    split
    · exact Chip.stacksWf_of_eq ((Chip.count_stkMem _ _ _).trans (Chip.setRingTag_stkMem _ _ _ _)) (Chip.ringWrite_stacksWf _ _ h)
    · exact Chip.stacksWf_of_eq (Chip.rejectTile_stkMem _ _ _ _ _ _ _) h

theorem Chip.streamLine_stacksWf {c : Chip} (k : Nat) (m : StreamLine) (h : c.stacksWf) : (c.streamLine k m).stacksWf := by
  unfold Chip.streamLine
  split
  · exact h
  · split
    · exact Chip.stacksWf_of_eq (Chip.unsupported_stkMem _ _) h
    · dsimp only
      refine Chip.stacksWf_of_eq (Chip.setRingTag_stkMem _ _ _ _) (Chip.ringWrite_stacksWf _ _ (Chip.stacksWf_of_eq ?_ h))
      rw [Chip.setStream_stkMem, Chip.setFld_stkMem, Chip.setFld_stkMem, Chip.setFld_stkMem]

/-! ## The power sequencer: an exit from S3 gives the Stacks up -/

theorem Chip.startExit_stacksWf {c : Chip} (h : c.stacksWf) : (c.startExit).stacksWf := by
  unfold Chip.startExit
  dsimp only
  refine ite_stacksWf _ h (ite_stacksWf _ (Chip.stacksWf_nil (Chip.exitReset_stkMem _)) (Chip.stacksWf_of_eq ?_ h))
  split
  · rw [Chip.lightExit_stkMem, Chip.sendWake_stkMem, Chip.sendWake_stkMem, Chip.beginExit_stkMem, Chip.noteStay_stkMem]
  · rw [Chip.queueRamps_stkMem, Chip.beginExit_stkMem, Chip.noteStay_stkMem]

theorem Chip.wakeExit_stacksWf {c : Chip} (b : Nat) (h : c.stacksWf) : ((c.latchWake b).startExit).stacksWf :=
  Chip.startExit_stacksWf (Chip.stacksWf_of_eq (Chip.latchWake_stkMem _ _) h)

theorem Chip.enterState_stacksWf {c : Chip} (h : c.stacksWf) : (c.enterState).stacksWf := by
  have key : (((((c.endCmd psDone).setFld PS_STATUS.STATE c.seq.target).count PS_CNT.ENTRIES).seqRests).lastOff c.seq.target).stkMem =
      c.stkMem := by
    rw [Chip.lastOff_stkMem, Chip.seqRests_stkMem, Chip.count_stkMem, Chip.setFld_stkMem, Chip.endCmd_stkMem]
  have asked {d : Chip} (hd : d.stacksWf) : (if d.recordWaits then d.latchWake 1 else d).stacksWf :=
    ite_stacksWf _ (Chip.stacksWf_of_eq (Chip.latchWake_stkMem _ _) hd) hd
  unfold Chip.enterState
  dsimp only
  have hk := asked (Chip.stacksWf_of_eq key h)
  refine ite_stacksWf _ (Chip.startExit_stacksWf (Chip.stacksWf_of_eq ?_ hk)) hk
  rw [Chip.raiseOpen_stkMem, Chip.setFld_stkMem]

theorem Chip.agreed_stacksWf {c : Chip} (h : c.stacksWf) : (c.agreed).stacksWf := by
  have hs : (c.stopBlock c.seq.block).stacksWf := Chip.stacksWf_of_eq (Chip.stopBlock_stkMem _ _) h
  unfold Chip.agreed
  dsimp only
  split
  · exact Chip.stacksWf_of_eq (Chip.askBlock_stkMem _ _) hs
  · exact Chip.enterState_stacksWf hs

theorem Chip.answerBlock_stacksWf {c : Chip} (l2 : Bool) (h : c.stacksWf) : (c.answerBlock l2).stacksWf := by
  unfold Chip.answerBlock
  refine ite_stacksWf _ h ?_
  split
  · exact Chip.agreed_stacksWf h
  · exact Chip.stacksWf_of_eq (Chip.rollBack_stkMem _ _) h
  · exact h

theorem Chip.sleepAcked_stacksWf {c : Chip} (k : Lnk) (code : Nat) (h : c.stacksWf) : (c.sleepAcked k code).stacksWf := by
  unfold Chip.sleepAcked
  dsimp only
  split
  · exact h
  · have hm {f : LinkSt → LinkSt} : (c.modLink k f).stacksWf := Chip.stacksWf_of_eq (Chip.modLink_stkMem _ _ _) h
    refine ite_stacksWf _ ?_ (ite_stacksWf _ (Chip.stacksWf_of_eq (Chip.rollBack_stkMem _ _) hm) hm)
    have hl {d : Chip} (p : Prop) [Decidable p] (n : Nat) (hd : d.stacksWf) : (if p then d.linkSleep k n else d).stacksWf :=
      ite_stacksWf _ (Chip.stacksWf_of_eq (Chip.linkSleep_stkMem _ _ _) hd) hd
    exact ite_stacksWf _ (Chip.agreed_stacksWf (hl _ _ hm)) (hl _ _ hm)

/-! ## The service paths and the bridge -/

theorem Chip.svcfPerform_stacksWf {c : Chip} (w : SvcfWrite) (h : c.stacksWf) : (c.svcfPerform w).stacksWf := by
  unfold Chip.svcfPerform
  dsimp only
  have h' : ({ c with svcf := { c.svcf with write := none } } : Chip).stacksWf := h
  refine ite_stacksWf _ (Chip.stacksWf_of_eq (Chip.svcfEnd_stkMem _ _ _ _ _) (Chip.stkWrite_stacksWf _ _ h')) ?_
  split
  · exact ite_stacksWf _ (Chip.stacksWf_of_eq (Chip.svcfEnd_stkMem _ _ _ _ _) h')
      (Chip.stacksWf_of_eq ((Chip.svcfAwait_stkMem _ _).trans (Chip.addReq_stkMem _ _)) h')
  · exact Chip.stacksWf_of_eq ((Chip.svcfEnd_stkMem _ _ _ _ _).trans (Chip.writeWords_stkMem _ _ _ _)) h'

theorem Chip.svcfStatusStage_stacksWf {c : Chip} (h : c.stacksWf) : (c.svcfStatusStage).stacksWf := by
  unfold Chip.svcfStatusStage
  refine ite_stacksWf _ h (ite_stacksWf _ (Chip.stacksWf_of_eq (Chip.notReady_stkMem _ _) h) ?_)
  split
  · exact Chip.svcfPerform_stacksWf _ h
  · exact h

theorem Chip.svcpWords_stacksWf (ws : List (List Byte)) : ∀ {c : Chip}, c.stacksWf → (c.svcpWords ws).stacksWf := by
  induction ws with
  | nil => intro c h; exact h
  | cons w ws ih =>
    intro c h
    unfold Chip.svcpWords
    dsimp only
    refine ite_stacksWf _ (Chip.stacksWf_of_eq (Chip.svcpReject_stkMem _ _) h)
      (ite_stacksWf _ (Chip.stacksWf_of_eq (Chip.modSvcp_stkMem _ _) h) ?_)
    split
    · exact Chip.stacksWf_of_eq ((Chip.modSvcp_stkMem _ _).trans (Chip.addReq_stkMem _ _)) h
    · exact ih (Chip.stacksWf_of_eq (Chip.modSvcp_stkMem _ _) (Chip.stkWrite_stacksWf _ _ h))
    · have hd (f : Svcp → Svcp) (p : Path) (a : Nat) (v : Word) : ((c.performWrite p a v).modSvcp f).stacksWf :=
        Chip.stacksWf_of_eq ((Chip.modSvcp_stkMem _ _).trans (Chip.performWrite_stkMem _ _ _ _)) h
      exact ite_stacksWf _ (ih (hd _ _ _ _)) (Chip.stacksWf_of_eq (Chip.modSvcp_stkMem _ _) (hd _ _ _ _))

theorem Chip.svcpWrite_stacksWf {c : Chip} (cmd : Nat) (stk : Bool) (a : Nat) (bytes : List Byte) (h : c.stacksWf) :
    (c.svcpWrite cmd stk a bytes).stacksWf := by
  unfold Chip.svcpWrite
  exact Chip.svcpWords_stacksWf _ (Chip.stacksWf_of_eq (Chip.svcpStart_stkMem _ _ _) h)

theorem Chip.svcpResume_stacksWf {c : Chip} (h : c.stacksWf) : c.svcpResume.stacksWf := by
  unfold Chip.svcpResume
  exact ite_stacksWf _ h (Chip.svcpWords_stacksWf _ (Chip.stacksWf_of_eq (Chip.modSvcp_stkMem _ _) h))

theorem Chip.writeRequest_stacksWf {c : Chip} (q : Arrived) (t : Nat) (p : Plan) (h : c.stacksWf) : (c.writeRequest q t p).stacksWf := by
  have hp (b : Prop) [Decidable b] (a n : Nat) : (if b then c else c.discardOver a n).stacksWf :=
    ite_stacksWf _ h (Chip.stacksWf_of_eq (Chip.discardOver_stkMem _ _ _) h)
  unfold Chip.writeRequest
  dsimp only
  split
  · exact Chip.stacksWf_of_eq (Chip.refuseRequest_stkMem _ _ _) h
  · exact Chip.stacksWf_of_eq ((Chip.wrote_stkMem _ _).trans (Chip.writeWords_stkMem _ _ _ _)) (hp _ _ _)
  · exact Chip.stacksWf_of_eq (Chip.wrote_stkMem _ _) (Chip.stkWrite_stacksWf _ _ (hp _ _ _))
  · exact ite_stacksWf _ (Chip.stacksWf_of_eq (Chip.queueMsg_stkMem _ _ _ _ _) (hp _ _ _))
      (Chip.stacksWf_of_eq (Chip.addReq_stkMem _ _) (hp _ _ _))

theorem Chip.serve_stacksWf {c : Chip} (q : Arrived) (h : c.stacksWf) : (c.serve q).stacksWf := by
  have hw {o : Option Nat} {f : Nat → Fld} : (match o with | some w => c.count (f w) | none => c).stacksWf := by
    split
    · exact Chip.stacksWf_of_eq (Chip.count_stkMem _ _ _) h
    · exact h
  unfold Chip.serve
  refine ite_stacksWf _ h ?_
  dsimp only
  exact ite_stacksWf _ (Chip.stacksWf_of_eq (Chip.readRequest_stkMem _ _ _ _) hw) (Chip.writeRequest_stacksWf _ _ _ hw)

theorem Chip.request_stacksWf {c : Chip} (q : Arrived) (h : c.stacksWf) : (c.request q).stacksWf := by
  unfold Chip.request
  exact ite_stacksWf _ h (Chip.serve_stacksWf _ h)

theorem Chip.serveHeld_stacksWf {c : Chip} (h : c.stacksWf) : (c.serveHeld).stacksWf := by
  unfold Chip.serveHeld
  exact foldl_stacksWf (fun _ _ hc => Chip.serve_stacksWf _ hc) _ _ h

end Sys2Proof.Machine
end

