-- ==== Sys2Proof/Laws/State.lean ====
section
/-! SUPPORT. The fields of the chip that each update leaves alone, what running a command says of the queue, one-bit fields, and the
fields of the state after reset. -/

namespace Sys2Proof.Machine

/-! ## Running a command -/

@[simp] theorem State.run_eq (f : Chip → Chip) (s : State) : s.run f = .next { s with chip := f { s.chip with out := [] } } := rfl

/-- A command whose meaning is `f` completes with what `f` gives. -/
theorem Completes.intro {i : Instr} {s : State} {P : Chip → Prop} (f : Chip → Chip) (h : exec i s = s.run f)
    (hp : P (f { s.chip with out := [] })) : Completes i s P := ⟨_, h, rfl, hp⟩

/-- What a completed command shows may be weakened. -/
theorem Completes.mono {i : Instr} {s : State} {P Q : Chip → Prop} (h : Completes i s P) (hpq : ∀ d, P d → Q d) : Completes i s Q := by
  obtain ⟨t, e, q, hp⟩ := h
  exact ⟨t, e, q, hpq _ hp⟩

/-- Both of two facts about one completed command. -/
theorem Completes.both {i : Instr} {s : State} {P Q : Chip → Prop} (h : Completes i s P) (h' : Completes i s Q) :
    Completes i s fun d => P d ∧ Q d := by
  obtain ⟨t, e, q, hp⟩ := h
  obtain ⟨t', e', -, hp'⟩ := h'
  rw [e] at e'
  cases e'
  exact ⟨t, e, q, hp, hp'⟩

/-! ## Clearing what a command before put on the outside -/

@[simp] theorem Chip.clearOut_reg (c : Chip) (a : Nat) : ({ c with out := [] } : Chip).reg a = c.reg a := rfl
@[simp] theorem Chip.clearOut_fld (c : Chip) (f : Fld) : ({ c with out := [] } : Chip).fld f = c.fld f := rfl
@[simp] theorem Chip.clearOut_on (c : Chip) (f : Fld) : ({ c with out := [] } : Chip).on f = c.on f := rfl
@[simp] theorem Chip.clearOut_stk (c : Chip) (a : Nat) : ({ c with out := [] } : Chip).stk a = c.stk a := rfl
@[simp] theorem Chip.clearOut_pageOn (c : Chip) (p : Nat) : ({ c with out := [] } : Chip).pageOn p = c.pageOn p := rfl
@[simp] theorem Chip.clearOut_safe (c : Chip) : ({ c with out := [] } : Chip).safe = c.safe := rfl
@[simp] theorem Chip.clearOut_sstate (c : Chip) : ({ c with out := [] } : Chip).sstate = c.sstate := rfl
@[simp] theorem Chip.clearOut_lane (c : Chip) (l : Nat) : ({ c with out := [] } : Chip).lane l = c.lane l := rfl
@[simp] theorem Chip.clearOut_link (c : Chip) (k : Lnk) : ({ c with out := [] } : Chip).link k = c.link k := rfl
@[simp] theorem Chip.clearOut_flow (c : Chip) (f : Nat) : ({ c with out := [] } : Chip).flow f = c.flow f := rfl
@[simp] theorem Chip.clearOut_sched (c : Chip) (k : Lnk) : ({ c with out := [] } : Chip).sched k = c.sched k := rfl
@[simp] theorem Chip.clearOut_outQ (c : Chip) (k : Lnk) (f : Nat) : ({ c with out := [] } : Chip).outQ k f = c.outQ k f := rfl

/-! ## One-bit fields -/

theorem Chip.fld_of_on (c : Chip) (f : Fld) (h : f.width = 1) : c.fld f = if c.on f then 1 else 0 := by
  have : c.fld f < 2 := by unfold Chip.fld Fld.get; rw [h]; exact Nat.mod_lt _ (by decide)
  unfold Chip.on
  generalize c.fld f = x at *
  interval_cases x <;> decide

theorem Chip.on_setFld_self (c : Chip) (f : Fld) (x : Nat) (h : f.lo + f.width ≤ 32) (hw : f.width = 1) :
    (c.setFld f x).on f = (x % 2 != 0) := by
  unfold Chip.on; rw [Chip.fld_setFld_self _ _ _ h, hw]; rfl

theorem Chip.on_setFld_apart (c : Chip) (f g : Fld) (x : Nat) (hf : f.lo + f.width ≤ 32)
    (h : g.lo + g.width ≤ f.lo ∨ f.lo + f.width ≤ g.lo) : (c.setFld f x).on g = c.on g := by
  unfold Chip.on; rw [Chip.fld_setFld_apart _ _ _ _ hf h]

theorem Chip.on_setFld_ne (c : Chip) (f g : Fld) (x : Nat) (h : g.addr ≠ f.addr) : (c.setFld f x).on g = c.on g := by
  unfold Chip.on; rw [Chip.fld_setFld_ne _ _ _ _ h]

/-! ## The state after reset -/

@[simp] theorem State.reset_pending : State.reset.pending = [] := rfl
@[simp] theorem State.reset_chip : State.reset.chip = Chip.reset := rfl
@[simp] theorem Chip.reset_stkMem : Chip.reset.stkMem = [] := rfl
@[simp] theorem Chip.reset_out : Chip.reset.out = [] := rfl
@[simp] theorem Chip.reset_reg (a : Nat) : Chip.reset.reg a = regReset .mh4160 a := rfl
@[simp] theorem Chip.reset_stk (a : Nat) : Chip.reset.stk a = 0 := rfl
@[simp] theorem Chip.reset_step : Chip.reset.boot.step = 0 := rfl

/-! ## What each update leaves alone -/

/-! ### setReg -/

@[simp] theorem Chip.setReg_part (c : Chip) (a : Nat) (v : Word) : (c.setReg a v).part = c.part := rfl
@[simp] theorem Chip.setReg_out (c : Chip) (a : Nat) (v : Word) : (c.setReg a v).out = c.out := rfl
@[simp] theorem Chip.setReg_firings (c : Chip) (a : Nat) (v : Word) : (c.setReg a v).firings = c.firings := rfl
@[simp] theorem Chip.setReg_timeNs (c : Chip) (a : Nat) (v : Word) : (c.setReg a v).timeNs = c.timeNs := rfl
@[simp] theorem Chip.setReg_free (c : Chip) (a : Nat) (v : Word) : (c.setReg a v).free = c.free := rfl
@[simp] theorem Chip.setReg_boot (c : Chip) (a : Nat) (v : Word) : (c.setReg a v).boot = c.boot := rfl
@[simp] theorem Chip.setReg_folio (c : Chip) (a : Nat) (v : Word) : (c.setReg a v).folio = c.folio := rfl
@[simp] theorem Chip.setReg_maint (c : Chip) (a : Nat) (v : Word) : (c.setReg a v).maint = c.maint := rfl
@[simp] theorem Chip.setReg_lanes (c : Chip) (a : Nat) (v : Word) : (c.setReg a v).lanes = c.lanes := rfl
@[simp] theorem Chip.setReg_links (c : Chip) (a : Nat) (v : Word) : (c.setReg a v).links = c.links := rfl
@[simp] theorem Chip.setReg_flows (c : Chip) (a : Nat) (v : Word) : (c.setReg a v).flows = c.flows := rfl
@[simp] theorem Chip.setReg_queues (c : Chip) (a : Nat) (v : Word) : (c.setReg a v).queues = c.queues := rfl
@[simp] theorem Chip.setReg_scheds (c : Chip) (a : Nat) (v : Word) : (c.setReg a v).scheds = c.scheds := rfl
@[simp] theorem Chip.setReg_ev (c : Chip) (a : Nat) (v : Word) : (c.setReg a v).ev = c.ev := rfl
@[simp] theorem Chip.setReg_prefetch (c : Chip) (a : Nat) (v : Word) : (c.setReg a v).prefetch = c.prefetch := rfl
@[simp] theorem Chip.setReg_taps (c : Chip) (a : Nat) (v : Word) : (c.setReg a v).taps = c.taps := rfl
@[simp] theorem Chip.setReg_deferred (c : Chip) (a : Nat) (v : Word) : (c.setReg a v).deferred = c.deferred := rfl
@[simp] theorem Chip.setReg_lateNow (c : Chip) (a : Nat) (v : Word) : (c.setReg a v).lateNow = c.lateNow := rfl
@[simp] theorem Chip.setReg_fuses (c : Chip) (a : Nat) (v : Word) : (c.setReg a v).fuses = c.fuses := rfl
@[simp] theorem Chip.setReg_muni (c : Chip) (a : Nat) (v : Word) : (c.setReg a v).muni = c.muni := rfl
@[simp] theorem Chip.setReg_copp (c : Chip) (a : Nat) (v : Word) : (c.setReg a v).copp = c.copp := rfl
@[simp] theorem Chip.setReg_router (c : Chip) (a : Nat) (v : Word) : (c.setReg a v).router = c.router := rfl
@[simp] theorem Chip.setReg_stkBad (c : Chip) (a : Nat) (v : Word) : (c.setReg a v).stkBad = c.stkBad := rfl
@[simp] theorem Chip.setReg_stkFilled (c : Chip) (a : Nat) (v : Word) : (c.setReg a v).stkFilled = c.stkFilled := rfl
@[simp] theorem Chip.setReg_fwd (c : Chip) (a : Nat) (v : Word) : (c.setReg a v).fwd = c.fwd := rfl
@[simp] theorem Chip.setReg_surf (c : Chip) (a : Nat) (v : Word) : (c.setReg a v).surf = c.surf := rfl
@[simp] theorem Chip.setReg_heads (c : Chip) (a : Nat) (v : Word) : (c.setReg a v).heads = c.heads := rfl
@[simp] theorem Chip.setReg_dps (c : Chip) (a : Nat) (v : Word) : (c.setReg a v).dps = c.dps := rfl
@[simp] theorem Chip.setReg_hub (c : Chip) (a : Nat) (v : Word) : (c.setReg a v).hub = c.hub := rfl
@[simp] theorem Chip.setReg_svcf (c : Chip) (a : Nat) (v : Word) : (c.setReg a v).svcf = c.svcf := rfl
@[simp] theorem Chip.setReg_svcp (c : Chip) (a : Nat) (v : Word) : (c.setReg a v).svcp = c.svcp := rfl
@[simp] theorem Chip.setReg_latches (c : Chip) (a : Nat) (v : Word) : (c.setReg a v).latches = c.latches := rfl
@[simp] theorem Chip.setReg_pcie (c : Chip) (a : Nat) (v : Word) : (c.setReg a v).pcie = c.pcie := rfl
@[simp] theorem Chip.setReg_lpi (c : Chip) (a : Nat) (v : Word) : (c.setReg a v).lpi = c.lpi := rfl
@[simp] theorem Chip.setReg_eth (c : Chip) (a : Nat) (v : Word) : (c.setReg a v).eth = c.eth := rfl
@[simp] theorem Chip.setReg_pd (c : Chip) (a : Nat) (v : Word) : (c.setReg a v).pd = c.pd := rfl
@[simp] theorem Chip.setReg_budget (c : Chip) (a : Nat) (v : Word) : (c.setReg a v).budget = c.budget := rfl
@[simp] theorem Chip.setReg_tap (c : Chip) (a : Nat) (v : Word) : (c.setReg a v).tap = c.tap := rfl
@[simp] theorem Chip.setReg_samples (c : Chip) (a : Nat) (v : Word) : (c.setReg a v).samples = c.samples := rfl
@[simp] theorem Chip.setReg_seq (c : Chip) (a : Nat) (v : Word) : (c.setReg a v).seq = c.seq := rfl

/-! ### setFld -/

@[simp] theorem Chip.setFld_part (c : Chip) (f : Fld) (x : Nat) : (c.setFld f x).part = c.part := rfl
@[simp] theorem Chip.setFld_out (c : Chip) (f : Fld) (x : Nat) : (c.setFld f x).out = c.out := rfl
@[simp] theorem Chip.setFld_firings (c : Chip) (f : Fld) (x : Nat) : (c.setFld f x).firings = c.firings := rfl
@[simp] theorem Chip.setFld_timeNs (c : Chip) (f : Fld) (x : Nat) : (c.setFld f x).timeNs = c.timeNs := rfl
@[simp] theorem Chip.setFld_free (c : Chip) (f : Fld) (x : Nat) : (c.setFld f x).free = c.free := rfl
@[simp] theorem Chip.setFld_boot (c : Chip) (f : Fld) (x : Nat) : (c.setFld f x).boot = c.boot := rfl
@[simp] theorem Chip.setFld_folio (c : Chip) (f : Fld) (x : Nat) : (c.setFld f x).folio = c.folio := rfl
@[simp] theorem Chip.setFld_maint (c : Chip) (f : Fld) (x : Nat) : (c.setFld f x).maint = c.maint := rfl
@[simp] theorem Chip.setFld_lanes (c : Chip) (f : Fld) (x : Nat) : (c.setFld f x).lanes = c.lanes := rfl
@[simp] theorem Chip.setFld_links (c : Chip) (f : Fld) (x : Nat) : (c.setFld f x).links = c.links := rfl
@[simp] theorem Chip.setFld_flows (c : Chip) (f : Fld) (x : Nat) : (c.setFld f x).flows = c.flows := rfl
@[simp] theorem Chip.setFld_queues (c : Chip) (f : Fld) (x : Nat) : (c.setFld f x).queues = c.queues := rfl
@[simp] theorem Chip.setFld_scheds (c : Chip) (f : Fld) (x : Nat) : (c.setFld f x).scheds = c.scheds := rfl
@[simp] theorem Chip.setFld_ev (c : Chip) (f : Fld) (x : Nat) : (c.setFld f x).ev = c.ev := rfl
@[simp] theorem Chip.setFld_prefetch (c : Chip) (f : Fld) (x : Nat) : (c.setFld f x).prefetch = c.prefetch := rfl
@[simp] theorem Chip.setFld_taps (c : Chip) (f : Fld) (x : Nat) : (c.setFld f x).taps = c.taps := rfl
@[simp] theorem Chip.setFld_deferred (c : Chip) (f : Fld) (x : Nat) : (c.setFld f x).deferred = c.deferred := rfl
@[simp] theorem Chip.setFld_lateNow (c : Chip) (f : Fld) (x : Nat) : (c.setFld f x).lateNow = c.lateNow := rfl
@[simp] theorem Chip.setFld_fuses (c : Chip) (f : Fld) (x : Nat) : (c.setFld f x).fuses = c.fuses := rfl
@[simp] theorem Chip.setFld_muni (c : Chip) (f : Fld) (x : Nat) : (c.setFld f x).muni = c.muni := rfl
@[simp] theorem Chip.setFld_copp (c : Chip) (f : Fld) (x : Nat) : (c.setFld f x).copp = c.copp := rfl
@[simp] theorem Chip.setFld_router (c : Chip) (f : Fld) (x : Nat) : (c.setFld f x).router = c.router := rfl
@[simp] theorem Chip.setFld_stkBad (c : Chip) (f : Fld) (x : Nat) : (c.setFld f x).stkBad = c.stkBad := rfl
@[simp] theorem Chip.setFld_stkFilled (c : Chip) (f : Fld) (x : Nat) : (c.setFld f x).stkFilled = c.stkFilled := rfl
@[simp] theorem Chip.setFld_fwd (c : Chip) (f : Fld) (x : Nat) : (c.setFld f x).fwd = c.fwd := rfl
@[simp] theorem Chip.setFld_surf (c : Chip) (f : Fld) (x : Nat) : (c.setFld f x).surf = c.surf := rfl
@[simp] theorem Chip.setFld_heads (c : Chip) (f : Fld) (x : Nat) : (c.setFld f x).heads = c.heads := rfl
@[simp] theorem Chip.setFld_dps (c : Chip) (f : Fld) (x : Nat) : (c.setFld f x).dps = c.dps := rfl
@[simp] theorem Chip.setFld_hub (c : Chip) (f : Fld) (x : Nat) : (c.setFld f x).hub = c.hub := rfl
@[simp] theorem Chip.setFld_svcf (c : Chip) (f : Fld) (x : Nat) : (c.setFld f x).svcf = c.svcf := rfl
@[simp] theorem Chip.setFld_svcp (c : Chip) (f : Fld) (x : Nat) : (c.setFld f x).svcp = c.svcp := rfl
@[simp] theorem Chip.setFld_latches (c : Chip) (f : Fld) (x : Nat) : (c.setFld f x).latches = c.latches := rfl
@[simp] theorem Chip.setFld_pcie (c : Chip) (f : Fld) (x : Nat) : (c.setFld f x).pcie = c.pcie := rfl
@[simp] theorem Chip.setFld_lpi (c : Chip) (f : Fld) (x : Nat) : (c.setFld f x).lpi = c.lpi := rfl
@[simp] theorem Chip.setFld_eth (c : Chip) (f : Fld) (x : Nat) : (c.setFld f x).eth = c.eth := rfl
@[simp] theorem Chip.setFld_pd (c : Chip) (f : Fld) (x : Nat) : (c.setFld f x).pd = c.pd := rfl
@[simp] theorem Chip.setFld_budget (c : Chip) (f : Fld) (x : Nat) : (c.setFld f x).budget = c.budget := rfl
@[simp] theorem Chip.setFld_tap (c : Chip) (f : Fld) (x : Nat) : (c.setFld f x).tap = c.tap := rfl
@[simp] theorem Chip.setFld_samples (c : Chip) (f : Fld) (x : Nat) : (c.setFld f x).samples = c.samples := rfl
@[simp] theorem Chip.setFld_seq (c : Chip) (f : Fld) (x : Nat) : (c.setFld f x).seq = c.seq := rfl

/-! ### emit -/

@[simp] theorem Chip.emit_part (c : Chip) (e : Emit) : (c.emit e).part = c.part := rfl
@[simp] theorem Chip.emit_regs (c : Chip) (e : Emit) : (c.emit e).regs = c.regs := rfl
@[simp] theorem Chip.emit_firings (c : Chip) (e : Emit) : (c.emit e).firings = c.firings := rfl
@[simp] theorem Chip.emit_timeNs (c : Chip) (e : Emit) : (c.emit e).timeNs = c.timeNs := rfl
@[simp] theorem Chip.emit_free (c : Chip) (e : Emit) : (c.emit e).free = c.free := rfl
@[simp] theorem Chip.emit_boot (c : Chip) (e : Emit) : (c.emit e).boot = c.boot := rfl
@[simp] theorem Chip.emit_folio (c : Chip) (e : Emit) : (c.emit e).folio = c.folio := rfl
@[simp] theorem Chip.emit_maint (c : Chip) (e : Emit) : (c.emit e).maint = c.maint := rfl
@[simp] theorem Chip.emit_lanes (c : Chip) (e : Emit) : (c.emit e).lanes = c.lanes := rfl
@[simp] theorem Chip.emit_links (c : Chip) (e : Emit) : (c.emit e).links = c.links := rfl
@[simp] theorem Chip.emit_flows (c : Chip) (e : Emit) : (c.emit e).flows = c.flows := rfl
@[simp] theorem Chip.emit_queues (c : Chip) (e : Emit) : (c.emit e).queues = c.queues := rfl
@[simp] theorem Chip.emit_scheds (c : Chip) (e : Emit) : (c.emit e).scheds = c.scheds := rfl
@[simp] theorem Chip.emit_ev (c : Chip) (e : Emit) : (c.emit e).ev = c.ev := rfl
@[simp] theorem Chip.emit_prefetch (c : Chip) (e : Emit) : (c.emit e).prefetch = c.prefetch := rfl
@[simp] theorem Chip.emit_taps (c : Chip) (e : Emit) : (c.emit e).taps = c.taps := rfl
@[simp] theorem Chip.emit_deferred (c : Chip) (e : Emit) : (c.emit e).deferred = c.deferred := rfl
@[simp] theorem Chip.emit_lateNow (c : Chip) (e : Emit) : (c.emit e).lateNow = c.lateNow := rfl
@[simp] theorem Chip.emit_fuses (c : Chip) (e : Emit) : (c.emit e).fuses = c.fuses := rfl
@[simp] theorem Chip.emit_muni (c : Chip) (e : Emit) : (c.emit e).muni = c.muni := rfl
@[simp] theorem Chip.emit_copp (c : Chip) (e : Emit) : (c.emit e).copp = c.copp := rfl
@[simp] theorem Chip.emit_router (c : Chip) (e : Emit) : (c.emit e).router = c.router := rfl
@[simp] theorem Chip.emit_stkBad (c : Chip) (e : Emit) : (c.emit e).stkBad = c.stkBad := rfl
@[simp] theorem Chip.emit_stkFilled (c : Chip) (e : Emit) : (c.emit e).stkFilled = c.stkFilled := rfl
@[simp] theorem Chip.emit_fwd (c : Chip) (e : Emit) : (c.emit e).fwd = c.fwd := rfl
@[simp] theorem Chip.emit_surf (c : Chip) (e : Emit) : (c.emit e).surf = c.surf := rfl
@[simp] theorem Chip.emit_heads (c : Chip) (e : Emit) : (c.emit e).heads = c.heads := rfl
@[simp] theorem Chip.emit_dps (c : Chip) (e : Emit) : (c.emit e).dps = c.dps := rfl
@[simp] theorem Chip.emit_hub (c : Chip) (e : Emit) : (c.emit e).hub = c.hub := rfl
@[simp] theorem Chip.emit_svcf (c : Chip) (e : Emit) : (c.emit e).svcf = c.svcf := rfl
@[simp] theorem Chip.emit_svcp (c : Chip) (e : Emit) : (c.emit e).svcp = c.svcp := rfl
@[simp] theorem Chip.emit_latches (c : Chip) (e : Emit) : (c.emit e).latches = c.latches := rfl
@[simp] theorem Chip.emit_pcie (c : Chip) (e : Emit) : (c.emit e).pcie = c.pcie := rfl
@[simp] theorem Chip.emit_lpi (c : Chip) (e : Emit) : (c.emit e).lpi = c.lpi := rfl
@[simp] theorem Chip.emit_eth (c : Chip) (e : Emit) : (c.emit e).eth = c.eth := rfl
@[simp] theorem Chip.emit_pd (c : Chip) (e : Emit) : (c.emit e).pd = c.pd := rfl
@[simp] theorem Chip.emit_budget (c : Chip) (e : Emit) : (c.emit e).budget = c.budget := rfl
@[simp] theorem Chip.emit_tap (c : Chip) (e : Emit) : (c.emit e).tap = c.tap := rfl
@[simp] theorem Chip.emit_samples (c : Chip) (e : Emit) : (c.emit e).samples = c.samples := rfl
@[simp] theorem Chip.emit_seq (c : Chip) (e : Emit) : (c.emit e).seq = c.seq := rfl

/-! ### setLane -/

@[simp] theorem Chip.setLane_part (c : Chip) (l : Nat) (x : LaneSt) : (c.setLane l x).part = c.part := rfl
@[simp] theorem Chip.setLane_regs (c : Chip) (l : Nat) (x : LaneSt) : (c.setLane l x).regs = c.regs := rfl
@[simp] theorem Chip.setLane_out (c : Chip) (l : Nat) (x : LaneSt) : (c.setLane l x).out = c.out := rfl
@[simp] theorem Chip.setLane_firings (c : Chip) (l : Nat) (x : LaneSt) : (c.setLane l x).firings = c.firings := rfl
@[simp] theorem Chip.setLane_timeNs (c : Chip) (l : Nat) (x : LaneSt) : (c.setLane l x).timeNs = c.timeNs := rfl
@[simp] theorem Chip.setLane_free (c : Chip) (l : Nat) (x : LaneSt) : (c.setLane l x).free = c.free := rfl
@[simp] theorem Chip.setLane_boot (c : Chip) (l : Nat) (x : LaneSt) : (c.setLane l x).boot = c.boot := rfl
@[simp] theorem Chip.setLane_folio (c : Chip) (l : Nat) (x : LaneSt) : (c.setLane l x).folio = c.folio := rfl
@[simp] theorem Chip.setLane_maint (c : Chip) (l : Nat) (x : LaneSt) : (c.setLane l x).maint = c.maint := rfl
@[simp] theorem Chip.setLane_links (c : Chip) (l : Nat) (x : LaneSt) : (c.setLane l x).links = c.links := rfl
@[simp] theorem Chip.setLane_flows (c : Chip) (l : Nat) (x : LaneSt) : (c.setLane l x).flows = c.flows := rfl
@[simp] theorem Chip.setLane_queues (c : Chip) (l : Nat) (x : LaneSt) : (c.setLane l x).queues = c.queues := rfl
@[simp] theorem Chip.setLane_scheds (c : Chip) (l : Nat) (x : LaneSt) : (c.setLane l x).scheds = c.scheds := rfl
@[simp] theorem Chip.setLane_ev (c : Chip) (l : Nat) (x : LaneSt) : (c.setLane l x).ev = c.ev := rfl
@[simp] theorem Chip.setLane_prefetch (c : Chip) (l : Nat) (x : LaneSt) : (c.setLane l x).prefetch = c.prefetch := rfl
@[simp] theorem Chip.setLane_taps (c : Chip) (l : Nat) (x : LaneSt) : (c.setLane l x).taps = c.taps := rfl
@[simp] theorem Chip.setLane_deferred (c : Chip) (l : Nat) (x : LaneSt) : (c.setLane l x).deferred = c.deferred := rfl
@[simp] theorem Chip.setLane_lateNow (c : Chip) (l : Nat) (x : LaneSt) : (c.setLane l x).lateNow = c.lateNow := rfl
@[simp] theorem Chip.setLane_fuses (c : Chip) (l : Nat) (x : LaneSt) : (c.setLane l x).fuses = c.fuses := rfl
@[simp] theorem Chip.setLane_muni (c : Chip) (l : Nat) (x : LaneSt) : (c.setLane l x).muni = c.muni := rfl
@[simp] theorem Chip.setLane_copp (c : Chip) (l : Nat) (x : LaneSt) : (c.setLane l x).copp = c.copp := rfl
@[simp] theorem Chip.setLane_router (c : Chip) (l : Nat) (x : LaneSt) : (c.setLane l x).router = c.router := rfl
@[simp] theorem Chip.setLane_stkBad (c : Chip) (l : Nat) (x : LaneSt) : (c.setLane l x).stkBad = c.stkBad := rfl
@[simp] theorem Chip.setLane_stkFilled (c : Chip) (l : Nat) (x : LaneSt) : (c.setLane l x).stkFilled = c.stkFilled := rfl
@[simp] theorem Chip.setLane_fwd (c : Chip) (l : Nat) (x : LaneSt) : (c.setLane l x).fwd = c.fwd := rfl
@[simp] theorem Chip.setLane_surf (c : Chip) (l : Nat) (x : LaneSt) : (c.setLane l x).surf = c.surf := rfl
@[simp] theorem Chip.setLane_heads (c : Chip) (l : Nat) (x : LaneSt) : (c.setLane l x).heads = c.heads := rfl
@[simp] theorem Chip.setLane_dps (c : Chip) (l : Nat) (x : LaneSt) : (c.setLane l x).dps = c.dps := rfl
@[simp] theorem Chip.setLane_hub (c : Chip) (l : Nat) (x : LaneSt) : (c.setLane l x).hub = c.hub := rfl
@[simp] theorem Chip.setLane_svcf (c : Chip) (l : Nat) (x : LaneSt) : (c.setLane l x).svcf = c.svcf := rfl
@[simp] theorem Chip.setLane_svcp (c : Chip) (l : Nat) (x : LaneSt) : (c.setLane l x).svcp = c.svcp := rfl
@[simp] theorem Chip.setLane_latches (c : Chip) (l : Nat) (x : LaneSt) : (c.setLane l x).latches = c.latches := rfl
@[simp] theorem Chip.setLane_pcie (c : Chip) (l : Nat) (x : LaneSt) : (c.setLane l x).pcie = c.pcie := rfl
@[simp] theorem Chip.setLane_lpi (c : Chip) (l : Nat) (x : LaneSt) : (c.setLane l x).lpi = c.lpi := rfl
@[simp] theorem Chip.setLane_eth (c : Chip) (l : Nat) (x : LaneSt) : (c.setLane l x).eth = c.eth := rfl
@[simp] theorem Chip.setLane_pd (c : Chip) (l : Nat) (x : LaneSt) : (c.setLane l x).pd = c.pd := rfl
@[simp] theorem Chip.setLane_budget (c : Chip) (l : Nat) (x : LaneSt) : (c.setLane l x).budget = c.budget := rfl
@[simp] theorem Chip.setLane_tap (c : Chip) (l : Nat) (x : LaneSt) : (c.setLane l x).tap = c.tap := rfl
@[simp] theorem Chip.setLane_samples (c : Chip) (l : Nat) (x : LaneSt) : (c.setLane l x).samples = c.samples := rfl
@[simp] theorem Chip.setLane_seq (c : Chip) (l : Nat) (x : LaneSt) : (c.setLane l x).seq = c.seq := rfl

/-! ### setLink -/

@[simp] theorem Chip.setLink_part (c : Chip) (k : Lnk) (x : LinkSt) : (c.setLink k x).part = c.part := rfl
@[simp] theorem Chip.setLink_regs (c : Chip) (k : Lnk) (x : LinkSt) : (c.setLink k x).regs = c.regs := rfl
@[simp] theorem Chip.setLink_out (c : Chip) (k : Lnk) (x : LinkSt) : (c.setLink k x).out = c.out := rfl
@[simp] theorem Chip.setLink_firings (c : Chip) (k : Lnk) (x : LinkSt) : (c.setLink k x).firings = c.firings := rfl
@[simp] theorem Chip.setLink_timeNs (c : Chip) (k : Lnk) (x : LinkSt) : (c.setLink k x).timeNs = c.timeNs := rfl
@[simp] theorem Chip.setLink_free (c : Chip) (k : Lnk) (x : LinkSt) : (c.setLink k x).free = c.free := rfl
@[simp] theorem Chip.setLink_boot (c : Chip) (k : Lnk) (x : LinkSt) : (c.setLink k x).boot = c.boot := rfl
@[simp] theorem Chip.setLink_folio (c : Chip) (k : Lnk) (x : LinkSt) : (c.setLink k x).folio = c.folio := rfl
@[simp] theorem Chip.setLink_maint (c : Chip) (k : Lnk) (x : LinkSt) : (c.setLink k x).maint = c.maint := rfl
@[simp] theorem Chip.setLink_lanes (c : Chip) (k : Lnk) (x : LinkSt) : (c.setLink k x).lanes = c.lanes := rfl
@[simp] theorem Chip.setLink_flows (c : Chip) (k : Lnk) (x : LinkSt) : (c.setLink k x).flows = c.flows := rfl
@[simp] theorem Chip.setLink_queues (c : Chip) (k : Lnk) (x : LinkSt) : (c.setLink k x).queues = c.queues := rfl
@[simp] theorem Chip.setLink_scheds (c : Chip) (k : Lnk) (x : LinkSt) : (c.setLink k x).scheds = c.scheds := rfl
@[simp] theorem Chip.setLink_ev (c : Chip) (k : Lnk) (x : LinkSt) : (c.setLink k x).ev = c.ev := rfl
@[simp] theorem Chip.setLink_prefetch (c : Chip) (k : Lnk) (x : LinkSt) : (c.setLink k x).prefetch = c.prefetch := rfl
@[simp] theorem Chip.setLink_taps (c : Chip) (k : Lnk) (x : LinkSt) : (c.setLink k x).taps = c.taps := rfl
@[simp] theorem Chip.setLink_deferred (c : Chip) (k : Lnk) (x : LinkSt) : (c.setLink k x).deferred = c.deferred := rfl
@[simp] theorem Chip.setLink_lateNow (c : Chip) (k : Lnk) (x : LinkSt) : (c.setLink k x).lateNow = c.lateNow := rfl
@[simp] theorem Chip.setLink_fuses (c : Chip) (k : Lnk) (x : LinkSt) : (c.setLink k x).fuses = c.fuses := rfl
@[simp] theorem Chip.setLink_muni (c : Chip) (k : Lnk) (x : LinkSt) : (c.setLink k x).muni = c.muni := rfl
@[simp] theorem Chip.setLink_copp (c : Chip) (k : Lnk) (x : LinkSt) : (c.setLink k x).copp = c.copp := rfl
@[simp] theorem Chip.setLink_router (c : Chip) (k : Lnk) (x : LinkSt) : (c.setLink k x).router = c.router := rfl
@[simp] theorem Chip.setLink_stkBad (c : Chip) (k : Lnk) (x : LinkSt) : (c.setLink k x).stkBad = c.stkBad := rfl
@[simp] theorem Chip.setLink_stkFilled (c : Chip) (k : Lnk) (x : LinkSt) : (c.setLink k x).stkFilled = c.stkFilled := rfl
@[simp] theorem Chip.setLink_fwd (c : Chip) (k : Lnk) (x : LinkSt) : (c.setLink k x).fwd = c.fwd := rfl
@[simp] theorem Chip.setLink_surf (c : Chip) (k : Lnk) (x : LinkSt) : (c.setLink k x).surf = c.surf := rfl
@[simp] theorem Chip.setLink_heads (c : Chip) (k : Lnk) (x : LinkSt) : (c.setLink k x).heads = c.heads := rfl
@[simp] theorem Chip.setLink_dps (c : Chip) (k : Lnk) (x : LinkSt) : (c.setLink k x).dps = c.dps := rfl
@[simp] theorem Chip.setLink_hub (c : Chip) (k : Lnk) (x : LinkSt) : (c.setLink k x).hub = c.hub := rfl
@[simp] theorem Chip.setLink_svcf (c : Chip) (k : Lnk) (x : LinkSt) : (c.setLink k x).svcf = c.svcf := rfl
@[simp] theorem Chip.setLink_svcp (c : Chip) (k : Lnk) (x : LinkSt) : (c.setLink k x).svcp = c.svcp := rfl
@[simp] theorem Chip.setLink_latches (c : Chip) (k : Lnk) (x : LinkSt) : (c.setLink k x).latches = c.latches := rfl
@[simp] theorem Chip.setLink_pcie (c : Chip) (k : Lnk) (x : LinkSt) : (c.setLink k x).pcie = c.pcie := rfl
@[simp] theorem Chip.setLink_lpi (c : Chip) (k : Lnk) (x : LinkSt) : (c.setLink k x).lpi = c.lpi := rfl
@[simp] theorem Chip.setLink_eth (c : Chip) (k : Lnk) (x : LinkSt) : (c.setLink k x).eth = c.eth := rfl
@[simp] theorem Chip.setLink_pd (c : Chip) (k : Lnk) (x : LinkSt) : (c.setLink k x).pd = c.pd := rfl
@[simp] theorem Chip.setLink_budget (c : Chip) (k : Lnk) (x : LinkSt) : (c.setLink k x).budget = c.budget := rfl
@[simp] theorem Chip.setLink_tap (c : Chip) (k : Lnk) (x : LinkSt) : (c.setLink k x).tap = c.tap := rfl
@[simp] theorem Chip.setLink_samples (c : Chip) (k : Lnk) (x : LinkSt) : (c.setLink k x).samples = c.samples := rfl
@[simp] theorem Chip.setLink_seq (c : Chip) (k : Lnk) (x : LinkSt) : (c.setLink k x).seq = c.seq := rfl

/-! ### setFlow -/

@[simp] theorem Chip.setFlow_part (c : Chip) (f : Nat) (x : FlowEnt) : (c.setFlow f x).part = c.part := rfl
@[simp] theorem Chip.setFlow_regs (c : Chip) (f : Nat) (x : FlowEnt) : (c.setFlow f x).regs = c.regs := rfl
@[simp] theorem Chip.setFlow_out (c : Chip) (f : Nat) (x : FlowEnt) : (c.setFlow f x).out = c.out := rfl
@[simp] theorem Chip.setFlow_firings (c : Chip) (f : Nat) (x : FlowEnt) : (c.setFlow f x).firings = c.firings := rfl
@[simp] theorem Chip.setFlow_timeNs (c : Chip) (f : Nat) (x : FlowEnt) : (c.setFlow f x).timeNs = c.timeNs := rfl
@[simp] theorem Chip.setFlow_free (c : Chip) (f : Nat) (x : FlowEnt) : (c.setFlow f x).free = c.free := rfl
@[simp] theorem Chip.setFlow_boot (c : Chip) (f : Nat) (x : FlowEnt) : (c.setFlow f x).boot = c.boot := rfl
@[simp] theorem Chip.setFlow_folio (c : Chip) (f : Nat) (x : FlowEnt) : (c.setFlow f x).folio = c.folio := rfl
@[simp] theorem Chip.setFlow_maint (c : Chip) (f : Nat) (x : FlowEnt) : (c.setFlow f x).maint = c.maint := rfl
@[simp] theorem Chip.setFlow_lanes (c : Chip) (f : Nat) (x : FlowEnt) : (c.setFlow f x).lanes = c.lanes := rfl
@[simp] theorem Chip.setFlow_links (c : Chip) (f : Nat) (x : FlowEnt) : (c.setFlow f x).links = c.links := rfl
@[simp] theorem Chip.setFlow_queues (c : Chip) (f : Nat) (x : FlowEnt) : (c.setFlow f x).queues = c.queues := rfl
@[simp] theorem Chip.setFlow_scheds (c : Chip) (f : Nat) (x : FlowEnt) : (c.setFlow f x).scheds = c.scheds := rfl
@[simp] theorem Chip.setFlow_ev (c : Chip) (f : Nat) (x : FlowEnt) : (c.setFlow f x).ev = c.ev := rfl
@[simp] theorem Chip.setFlow_prefetch (c : Chip) (f : Nat) (x : FlowEnt) : (c.setFlow f x).prefetch = c.prefetch := rfl
@[simp] theorem Chip.setFlow_taps (c : Chip) (f : Nat) (x : FlowEnt) : (c.setFlow f x).taps = c.taps := rfl
@[simp] theorem Chip.setFlow_deferred (c : Chip) (f : Nat) (x : FlowEnt) : (c.setFlow f x).deferred = c.deferred := rfl
@[simp] theorem Chip.setFlow_lateNow (c : Chip) (f : Nat) (x : FlowEnt) : (c.setFlow f x).lateNow = c.lateNow := rfl
@[simp] theorem Chip.setFlow_fuses (c : Chip) (f : Nat) (x : FlowEnt) : (c.setFlow f x).fuses = c.fuses := rfl
@[simp] theorem Chip.setFlow_muni (c : Chip) (f : Nat) (x : FlowEnt) : (c.setFlow f x).muni = c.muni := rfl
@[simp] theorem Chip.setFlow_copp (c : Chip) (f : Nat) (x : FlowEnt) : (c.setFlow f x).copp = c.copp := rfl
@[simp] theorem Chip.setFlow_router (c : Chip) (f : Nat) (x : FlowEnt) : (c.setFlow f x).router = c.router := rfl
@[simp] theorem Chip.setFlow_stkBad (c : Chip) (f : Nat) (x : FlowEnt) : (c.setFlow f x).stkBad = c.stkBad := rfl
@[simp] theorem Chip.setFlow_stkFilled (c : Chip) (f : Nat) (x : FlowEnt) : (c.setFlow f x).stkFilled = c.stkFilled := rfl
@[simp] theorem Chip.setFlow_fwd (c : Chip) (f : Nat) (x : FlowEnt) : (c.setFlow f x).fwd = c.fwd := rfl
@[simp] theorem Chip.setFlow_surf (c : Chip) (f : Nat) (x : FlowEnt) : (c.setFlow f x).surf = c.surf := rfl
@[simp] theorem Chip.setFlow_heads (c : Chip) (f : Nat) (x : FlowEnt) : (c.setFlow f x).heads = c.heads := rfl
@[simp] theorem Chip.setFlow_dps (c : Chip) (f : Nat) (x : FlowEnt) : (c.setFlow f x).dps = c.dps := rfl
@[simp] theorem Chip.setFlow_hub (c : Chip) (f : Nat) (x : FlowEnt) : (c.setFlow f x).hub = c.hub := rfl
@[simp] theorem Chip.setFlow_svcf (c : Chip) (f : Nat) (x : FlowEnt) : (c.setFlow f x).svcf = c.svcf := rfl
@[simp] theorem Chip.setFlow_svcp (c : Chip) (f : Nat) (x : FlowEnt) : (c.setFlow f x).svcp = c.svcp := rfl
@[simp] theorem Chip.setFlow_latches (c : Chip) (f : Nat) (x : FlowEnt) : (c.setFlow f x).latches = c.latches := rfl
@[simp] theorem Chip.setFlow_pcie (c : Chip) (f : Nat) (x : FlowEnt) : (c.setFlow f x).pcie = c.pcie := rfl
@[simp] theorem Chip.setFlow_lpi (c : Chip) (f : Nat) (x : FlowEnt) : (c.setFlow f x).lpi = c.lpi := rfl
@[simp] theorem Chip.setFlow_eth (c : Chip) (f : Nat) (x : FlowEnt) : (c.setFlow f x).eth = c.eth := rfl
@[simp] theorem Chip.setFlow_pd (c : Chip) (f : Nat) (x : FlowEnt) : (c.setFlow f x).pd = c.pd := rfl
@[simp] theorem Chip.setFlow_budget (c : Chip) (f : Nat) (x : FlowEnt) : (c.setFlow f x).budget = c.budget := rfl
@[simp] theorem Chip.setFlow_tap (c : Chip) (f : Nat) (x : FlowEnt) : (c.setFlow f x).tap = c.tap := rfl
@[simp] theorem Chip.setFlow_samples (c : Chip) (f : Nat) (x : FlowEnt) : (c.setFlow f x).samples = c.samples := rfl
@[simp] theorem Chip.setFlow_seq (c : Chip) (f : Nat) (x : FlowEnt) : (c.setFlow f x).seq = c.seq := rfl

/-! ### setSched -/

@[simp] theorem Chip.setSched_part (c : Chip) (k : Lnk) (x : Sched) : (c.setSched k x).part = c.part := rfl
@[simp] theorem Chip.setSched_regs (c : Chip) (k : Lnk) (x : Sched) : (c.setSched k x).regs = c.regs := rfl
@[simp] theorem Chip.setSched_out (c : Chip) (k : Lnk) (x : Sched) : (c.setSched k x).out = c.out := rfl
@[simp] theorem Chip.setSched_firings (c : Chip) (k : Lnk) (x : Sched) : (c.setSched k x).firings = c.firings := rfl
@[simp] theorem Chip.setSched_timeNs (c : Chip) (k : Lnk) (x : Sched) : (c.setSched k x).timeNs = c.timeNs := rfl
@[simp] theorem Chip.setSched_free (c : Chip) (k : Lnk) (x : Sched) : (c.setSched k x).free = c.free := rfl
@[simp] theorem Chip.setSched_boot (c : Chip) (k : Lnk) (x : Sched) : (c.setSched k x).boot = c.boot := rfl
@[simp] theorem Chip.setSched_folio (c : Chip) (k : Lnk) (x : Sched) : (c.setSched k x).folio = c.folio := rfl
@[simp] theorem Chip.setSched_maint (c : Chip) (k : Lnk) (x : Sched) : (c.setSched k x).maint = c.maint := rfl
@[simp] theorem Chip.setSched_lanes (c : Chip) (k : Lnk) (x : Sched) : (c.setSched k x).lanes = c.lanes := rfl
@[simp] theorem Chip.setSched_links (c : Chip) (k : Lnk) (x : Sched) : (c.setSched k x).links = c.links := rfl
@[simp] theorem Chip.setSched_flows (c : Chip) (k : Lnk) (x : Sched) : (c.setSched k x).flows = c.flows := rfl
@[simp] theorem Chip.setSched_queues (c : Chip) (k : Lnk) (x : Sched) : (c.setSched k x).queues = c.queues := rfl
@[simp] theorem Chip.setSched_ev (c : Chip) (k : Lnk) (x : Sched) : (c.setSched k x).ev = c.ev := rfl
@[simp] theorem Chip.setSched_prefetch (c : Chip) (k : Lnk) (x : Sched) : (c.setSched k x).prefetch = c.prefetch := rfl
@[simp] theorem Chip.setSched_taps (c : Chip) (k : Lnk) (x : Sched) : (c.setSched k x).taps = c.taps := rfl
@[simp] theorem Chip.setSched_deferred (c : Chip) (k : Lnk) (x : Sched) : (c.setSched k x).deferred = c.deferred := rfl
@[simp] theorem Chip.setSched_lateNow (c : Chip) (k : Lnk) (x : Sched) : (c.setSched k x).lateNow = c.lateNow := rfl
@[simp] theorem Chip.setSched_fuses (c : Chip) (k : Lnk) (x : Sched) : (c.setSched k x).fuses = c.fuses := rfl
@[simp] theorem Chip.setSched_muni (c : Chip) (k : Lnk) (x : Sched) : (c.setSched k x).muni = c.muni := rfl
@[simp] theorem Chip.setSched_copp (c : Chip) (k : Lnk) (x : Sched) : (c.setSched k x).copp = c.copp := rfl
@[simp] theorem Chip.setSched_router (c : Chip) (k : Lnk) (x : Sched) : (c.setSched k x).router = c.router := rfl
@[simp] theorem Chip.setSched_stkBad (c : Chip) (k : Lnk) (x : Sched) : (c.setSched k x).stkBad = c.stkBad := rfl
@[simp] theorem Chip.setSched_stkFilled (c : Chip) (k : Lnk) (x : Sched) : (c.setSched k x).stkFilled = c.stkFilled := rfl
@[simp] theorem Chip.setSched_fwd (c : Chip) (k : Lnk) (x : Sched) : (c.setSched k x).fwd = c.fwd := rfl
@[simp] theorem Chip.setSched_surf (c : Chip) (k : Lnk) (x : Sched) : (c.setSched k x).surf = c.surf := rfl
@[simp] theorem Chip.setSched_heads (c : Chip) (k : Lnk) (x : Sched) : (c.setSched k x).heads = c.heads := rfl
@[simp] theorem Chip.setSched_dps (c : Chip) (k : Lnk) (x : Sched) : (c.setSched k x).dps = c.dps := rfl
@[simp] theorem Chip.setSched_hub (c : Chip) (k : Lnk) (x : Sched) : (c.setSched k x).hub = c.hub := rfl
@[simp] theorem Chip.setSched_svcf (c : Chip) (k : Lnk) (x : Sched) : (c.setSched k x).svcf = c.svcf := rfl
@[simp] theorem Chip.setSched_svcp (c : Chip) (k : Lnk) (x : Sched) : (c.setSched k x).svcp = c.svcp := rfl
@[simp] theorem Chip.setSched_latches (c : Chip) (k : Lnk) (x : Sched) : (c.setSched k x).latches = c.latches := rfl
@[simp] theorem Chip.setSched_pcie (c : Chip) (k : Lnk) (x : Sched) : (c.setSched k x).pcie = c.pcie := rfl
@[simp] theorem Chip.setSched_lpi (c : Chip) (k : Lnk) (x : Sched) : (c.setSched k x).lpi = c.lpi := rfl
@[simp] theorem Chip.setSched_eth (c : Chip) (k : Lnk) (x : Sched) : (c.setSched k x).eth = c.eth := rfl
@[simp] theorem Chip.setSched_pd (c : Chip) (k : Lnk) (x : Sched) : (c.setSched k x).pd = c.pd := rfl
@[simp] theorem Chip.setSched_budget (c : Chip) (k : Lnk) (x : Sched) : (c.setSched k x).budget = c.budget := rfl
@[simp] theorem Chip.setSched_tap (c : Chip) (k : Lnk) (x : Sched) : (c.setSched k x).tap = c.tap := rfl
@[simp] theorem Chip.setSched_samples (c : Chip) (k : Lnk) (x : Sched) : (c.setSched k x).samples = c.samples := rfl
@[simp] theorem Chip.setSched_seq (c : Chip) (k : Lnk) (x : Sched) : (c.setSched k x).seq = c.seq := rfl

/-! ### setOutQ -/

@[simp] theorem Chip.setOutQ_part (c : Chip) (k : Lnk) (f : Nat) (q : List QCell) : (c.setOutQ k f q).part = c.part := rfl
@[simp] theorem Chip.setOutQ_regs (c : Chip) (k : Lnk) (f : Nat) (q : List QCell) : (c.setOutQ k f q).regs = c.regs := rfl
@[simp] theorem Chip.setOutQ_out (c : Chip) (k : Lnk) (f : Nat) (q : List QCell) : (c.setOutQ k f q).out = c.out := rfl
@[simp] theorem Chip.setOutQ_firings (c : Chip) (k : Lnk) (f : Nat) (q : List QCell) : (c.setOutQ k f q).firings = c.firings := rfl
@[simp] theorem Chip.setOutQ_timeNs (c : Chip) (k : Lnk) (f : Nat) (q : List QCell) : (c.setOutQ k f q).timeNs = c.timeNs := rfl
@[simp] theorem Chip.setOutQ_free (c : Chip) (k : Lnk) (f : Nat) (q : List QCell) : (c.setOutQ k f q).free = c.free := rfl
@[simp] theorem Chip.setOutQ_boot (c : Chip) (k : Lnk) (f : Nat) (q : List QCell) : (c.setOutQ k f q).boot = c.boot := rfl
@[simp] theorem Chip.setOutQ_folio (c : Chip) (k : Lnk) (f : Nat) (q : List QCell) : (c.setOutQ k f q).folio = c.folio := rfl
@[simp] theorem Chip.setOutQ_maint (c : Chip) (k : Lnk) (f : Nat) (q : List QCell) : (c.setOutQ k f q).maint = c.maint := rfl
@[simp] theorem Chip.setOutQ_lanes (c : Chip) (k : Lnk) (f : Nat) (q : List QCell) : (c.setOutQ k f q).lanes = c.lanes := rfl
@[simp] theorem Chip.setOutQ_links (c : Chip) (k : Lnk) (f : Nat) (q : List QCell) : (c.setOutQ k f q).links = c.links := rfl
@[simp] theorem Chip.setOutQ_flows (c : Chip) (k : Lnk) (f : Nat) (q : List QCell) : (c.setOutQ k f q).flows = c.flows := rfl
@[simp] theorem Chip.setOutQ_scheds (c : Chip) (k : Lnk) (f : Nat) (q : List QCell) : (c.setOutQ k f q).scheds = c.scheds := rfl
@[simp] theorem Chip.setOutQ_ev (c : Chip) (k : Lnk) (f : Nat) (q : List QCell) : (c.setOutQ k f q).ev = c.ev := rfl
@[simp] theorem Chip.setOutQ_prefetch (c : Chip) (k : Lnk) (f : Nat) (q : List QCell) : (c.setOutQ k f q).prefetch = c.prefetch := rfl
@[simp] theorem Chip.setOutQ_taps (c : Chip) (k : Lnk) (f : Nat) (q : List QCell) : (c.setOutQ k f q).taps = c.taps := rfl
@[simp] theorem Chip.setOutQ_deferred (c : Chip) (k : Lnk) (f : Nat) (q : List QCell) : (c.setOutQ k f q).deferred = c.deferred := rfl
@[simp] theorem Chip.setOutQ_lateNow (c : Chip) (k : Lnk) (f : Nat) (q : List QCell) : (c.setOutQ k f q).lateNow = c.lateNow := rfl
@[simp] theorem Chip.setOutQ_fuses (c : Chip) (k : Lnk) (f : Nat) (q : List QCell) : (c.setOutQ k f q).fuses = c.fuses := rfl
@[simp] theorem Chip.setOutQ_muni (c : Chip) (k : Lnk) (f : Nat) (q : List QCell) : (c.setOutQ k f q).muni = c.muni := rfl
@[simp] theorem Chip.setOutQ_copp (c : Chip) (k : Lnk) (f : Nat) (q : List QCell) : (c.setOutQ k f q).copp = c.copp := rfl
@[simp] theorem Chip.setOutQ_router (c : Chip) (k : Lnk) (f : Nat) (q : List QCell) : (c.setOutQ k f q).router = c.router := rfl
@[simp] theorem Chip.setOutQ_stkBad (c : Chip) (k : Lnk) (f : Nat) (q : List QCell) : (c.setOutQ k f q).stkBad = c.stkBad := rfl
@[simp] theorem Chip.setOutQ_stkFilled (c : Chip) (k : Lnk) (f : Nat) (q : List QCell) : (c.setOutQ k f q).stkFilled = c.stkFilled := rfl
@[simp] theorem Chip.setOutQ_fwd (c : Chip) (k : Lnk) (f : Nat) (q : List QCell) : (c.setOutQ k f q).fwd = c.fwd := rfl
@[simp] theorem Chip.setOutQ_surf (c : Chip) (k : Lnk) (f : Nat) (q : List QCell) : (c.setOutQ k f q).surf = c.surf := rfl
@[simp] theorem Chip.setOutQ_heads (c : Chip) (k : Lnk) (f : Nat) (q : List QCell) : (c.setOutQ k f q).heads = c.heads := rfl
@[simp] theorem Chip.setOutQ_dps (c : Chip) (k : Lnk) (f : Nat) (q : List QCell) : (c.setOutQ k f q).dps = c.dps := rfl
@[simp] theorem Chip.setOutQ_hub (c : Chip) (k : Lnk) (f : Nat) (q : List QCell) : (c.setOutQ k f q).hub = c.hub := rfl
@[simp] theorem Chip.setOutQ_svcf (c : Chip) (k : Lnk) (f : Nat) (q : List QCell) : (c.setOutQ k f q).svcf = c.svcf := rfl
@[simp] theorem Chip.setOutQ_svcp (c : Chip) (k : Lnk) (f : Nat) (q : List QCell) : (c.setOutQ k f q).svcp = c.svcp := rfl
@[simp] theorem Chip.setOutQ_latches (c : Chip) (k : Lnk) (f : Nat) (q : List QCell) : (c.setOutQ k f q).latches = c.latches := rfl
@[simp] theorem Chip.setOutQ_pcie (c : Chip) (k : Lnk) (f : Nat) (q : List QCell) : (c.setOutQ k f q).pcie = c.pcie := rfl
@[simp] theorem Chip.setOutQ_lpi (c : Chip) (k : Lnk) (f : Nat) (q : List QCell) : (c.setOutQ k f q).lpi = c.lpi := rfl
@[simp] theorem Chip.setOutQ_eth (c : Chip) (k : Lnk) (f : Nat) (q : List QCell) : (c.setOutQ k f q).eth = c.eth := rfl
@[simp] theorem Chip.setOutQ_pd (c : Chip) (k : Lnk) (f : Nat) (q : List QCell) : (c.setOutQ k f q).pd = c.pd := rfl
@[simp] theorem Chip.setOutQ_budget (c : Chip) (k : Lnk) (f : Nat) (q : List QCell) : (c.setOutQ k f q).budget = c.budget := rfl
@[simp] theorem Chip.setOutQ_tap (c : Chip) (k : Lnk) (f : Nat) (q : List QCell) : (c.setOutQ k f q).tap = c.tap := rfl
@[simp] theorem Chip.setOutQ_samples (c : Chip) (k : Lnk) (f : Nat) (q : List QCell) : (c.setOutQ k f q).samples = c.samples := rfl
@[simp] theorem Chip.setOutQ_seq (c : Chip) (k : Lnk) (f : Nat) (q : List QCell) : (c.setOutQ k f q).seq = c.seq := rfl

/-! ### setStk -/

@[simp] theorem Chip.setStk_part (c : Chip) (a : Nat) (b : Byte) : (c.setStk a b).part = c.part := rfl
@[simp] theorem Chip.setStk_regs (c : Chip) (a : Nat) (b : Byte) : (c.setStk a b).regs = c.regs := rfl
@[simp] theorem Chip.setStk_out (c : Chip) (a : Nat) (b : Byte) : (c.setStk a b).out = c.out := rfl
@[simp] theorem Chip.setStk_firings (c : Chip) (a : Nat) (b : Byte) : (c.setStk a b).firings = c.firings := rfl
@[simp] theorem Chip.setStk_timeNs (c : Chip) (a : Nat) (b : Byte) : (c.setStk a b).timeNs = c.timeNs := rfl
@[simp] theorem Chip.setStk_free (c : Chip) (a : Nat) (b : Byte) : (c.setStk a b).free = c.free := rfl
@[simp] theorem Chip.setStk_boot (c : Chip) (a : Nat) (b : Byte) : (c.setStk a b).boot = c.boot := rfl
@[simp] theorem Chip.setStk_folio (c : Chip) (a : Nat) (b : Byte) : (c.setStk a b).folio = c.folio := rfl
@[simp] theorem Chip.setStk_maint (c : Chip) (a : Nat) (b : Byte) : (c.setStk a b).maint = c.maint := rfl
@[simp] theorem Chip.setStk_lanes (c : Chip) (a : Nat) (b : Byte) : (c.setStk a b).lanes = c.lanes := rfl
@[simp] theorem Chip.setStk_links (c : Chip) (a : Nat) (b : Byte) : (c.setStk a b).links = c.links := rfl
@[simp] theorem Chip.setStk_flows (c : Chip) (a : Nat) (b : Byte) : (c.setStk a b).flows = c.flows := rfl
@[simp] theorem Chip.setStk_queues (c : Chip) (a : Nat) (b : Byte) : (c.setStk a b).queues = c.queues := rfl
@[simp] theorem Chip.setStk_scheds (c : Chip) (a : Nat) (b : Byte) : (c.setStk a b).scheds = c.scheds := rfl
@[simp] theorem Chip.setStk_ev (c : Chip) (a : Nat) (b : Byte) : (c.setStk a b).ev = c.ev := rfl
@[simp] theorem Chip.setStk_prefetch (c : Chip) (a : Nat) (b : Byte) : (c.setStk a b).prefetch = c.prefetch := rfl
@[simp] theorem Chip.setStk_taps (c : Chip) (a : Nat) (b : Byte) : (c.setStk a b).taps = c.taps := rfl
@[simp] theorem Chip.setStk_deferred (c : Chip) (a : Nat) (b : Byte) : (c.setStk a b).deferred = c.deferred := rfl
@[simp] theorem Chip.setStk_lateNow (c : Chip) (a : Nat) (b : Byte) : (c.setStk a b).lateNow = c.lateNow := rfl
@[simp] theorem Chip.setStk_fuses (c : Chip) (a : Nat) (b : Byte) : (c.setStk a b).fuses = c.fuses := rfl
@[simp] theorem Chip.setStk_muni (c : Chip) (a : Nat) (b : Byte) : (c.setStk a b).muni = c.muni := rfl
@[simp] theorem Chip.setStk_copp (c : Chip) (a : Nat) (b : Byte) : (c.setStk a b).copp = c.copp := rfl
@[simp] theorem Chip.setStk_router (c : Chip) (a : Nat) (b : Byte) : (c.setStk a b).router = c.router := rfl
@[simp] theorem Chip.setStk_stkBad (c : Chip) (a : Nat) (b : Byte) : (c.setStk a b).stkBad = c.stkBad := rfl
@[simp] theorem Chip.setStk_stkFilled (c : Chip) (a : Nat) (b : Byte) : (c.setStk a b).stkFilled = c.stkFilled := rfl
@[simp] theorem Chip.setStk_fwd (c : Chip) (a : Nat) (b : Byte) : (c.setStk a b).fwd = c.fwd := rfl
@[simp] theorem Chip.setStk_surf (c : Chip) (a : Nat) (b : Byte) : (c.setStk a b).surf = c.surf := rfl
@[simp] theorem Chip.setStk_heads (c : Chip) (a : Nat) (b : Byte) : (c.setStk a b).heads = c.heads := rfl
@[simp] theorem Chip.setStk_dps (c : Chip) (a : Nat) (b : Byte) : (c.setStk a b).dps = c.dps := rfl
@[simp] theorem Chip.setStk_hub (c : Chip) (a : Nat) (b : Byte) : (c.setStk a b).hub = c.hub := rfl
@[simp] theorem Chip.setStk_svcf (c : Chip) (a : Nat) (b : Byte) : (c.setStk a b).svcf = c.svcf := rfl
@[simp] theorem Chip.setStk_svcp (c : Chip) (a : Nat) (b : Byte) : (c.setStk a b).svcp = c.svcp := rfl
@[simp] theorem Chip.setStk_latches (c : Chip) (a : Nat) (b : Byte) : (c.setStk a b).latches = c.latches := rfl
@[simp] theorem Chip.setStk_pcie (c : Chip) (a : Nat) (b : Byte) : (c.setStk a b).pcie = c.pcie := rfl
@[simp] theorem Chip.setStk_lpi (c : Chip) (a : Nat) (b : Byte) : (c.setStk a b).lpi = c.lpi := rfl
@[simp] theorem Chip.setStk_eth (c : Chip) (a : Nat) (b : Byte) : (c.setStk a b).eth = c.eth := rfl
@[simp] theorem Chip.setStk_pd (c : Chip) (a : Nat) (b : Byte) : (c.setStk a b).pd = c.pd := rfl
@[simp] theorem Chip.setStk_budget (c : Chip) (a : Nat) (b : Byte) : (c.setStk a b).budget = c.budget := rfl
@[simp] theorem Chip.setStk_tap (c : Chip) (a : Nat) (b : Byte) : (c.setStk a b).tap = c.tap := rfl
@[simp] theorem Chip.setStk_samples (c : Chip) (a : Nat) (b : Byte) : (c.setStk a b).samples = c.samples := rfl
@[simp] theorem Chip.setStk_seq (c : Chip) (a : Nat) (b : Byte) : (c.setStk a b).seq = c.seq := rfl

/-! ### setHead -/

@[simp] theorem Chip.setHead_part (c : Chip) (h : Nat) (x : HeadSt) : (c.setHead h x).part = c.part := rfl
@[simp] theorem Chip.setHead_regs (c : Chip) (h : Nat) (x : HeadSt) : (c.setHead h x).regs = c.regs := rfl
@[simp] theorem Chip.setHead_out (c : Chip) (h : Nat) (x : HeadSt) : (c.setHead h x).out = c.out := rfl
@[simp] theorem Chip.setHead_firings (c : Chip) (h : Nat) (x : HeadSt) : (c.setHead h x).firings = c.firings := rfl
@[simp] theorem Chip.setHead_timeNs (c : Chip) (h : Nat) (x : HeadSt) : (c.setHead h x).timeNs = c.timeNs := rfl
@[simp] theorem Chip.setHead_free (c : Chip) (h : Nat) (x : HeadSt) : (c.setHead h x).free = c.free := rfl
@[simp] theorem Chip.setHead_boot (c : Chip) (h : Nat) (x : HeadSt) : (c.setHead h x).boot = c.boot := rfl
@[simp] theorem Chip.setHead_folio (c : Chip) (h : Nat) (x : HeadSt) : (c.setHead h x).folio = c.folio := rfl
@[simp] theorem Chip.setHead_maint (c : Chip) (h : Nat) (x : HeadSt) : (c.setHead h x).maint = c.maint := rfl
@[simp] theorem Chip.setHead_lanes (c : Chip) (h : Nat) (x : HeadSt) : (c.setHead h x).lanes = c.lanes := rfl
@[simp] theorem Chip.setHead_links (c : Chip) (h : Nat) (x : HeadSt) : (c.setHead h x).links = c.links := rfl
@[simp] theorem Chip.setHead_flows (c : Chip) (h : Nat) (x : HeadSt) : (c.setHead h x).flows = c.flows := rfl
@[simp] theorem Chip.setHead_queues (c : Chip) (h : Nat) (x : HeadSt) : (c.setHead h x).queues = c.queues := rfl
@[simp] theorem Chip.setHead_scheds (c : Chip) (h : Nat) (x : HeadSt) : (c.setHead h x).scheds = c.scheds := rfl
@[simp] theorem Chip.setHead_ev (c : Chip) (h : Nat) (x : HeadSt) : (c.setHead h x).ev = c.ev := rfl
@[simp] theorem Chip.setHead_prefetch (c : Chip) (h : Nat) (x : HeadSt) : (c.setHead h x).prefetch = c.prefetch := rfl
@[simp] theorem Chip.setHead_taps (c : Chip) (h : Nat) (x : HeadSt) : (c.setHead h x).taps = c.taps := rfl
@[simp] theorem Chip.setHead_deferred (c : Chip) (h : Nat) (x : HeadSt) : (c.setHead h x).deferred = c.deferred := rfl
@[simp] theorem Chip.setHead_lateNow (c : Chip) (h : Nat) (x : HeadSt) : (c.setHead h x).lateNow = c.lateNow := rfl
@[simp] theorem Chip.setHead_fuses (c : Chip) (h : Nat) (x : HeadSt) : (c.setHead h x).fuses = c.fuses := rfl
@[simp] theorem Chip.setHead_muni (c : Chip) (h : Nat) (x : HeadSt) : (c.setHead h x).muni = c.muni := rfl
@[simp] theorem Chip.setHead_copp (c : Chip) (h : Nat) (x : HeadSt) : (c.setHead h x).copp = c.copp := rfl
@[simp] theorem Chip.setHead_router (c : Chip) (h : Nat) (x : HeadSt) : (c.setHead h x).router = c.router := rfl
@[simp] theorem Chip.setHead_stkBad (c : Chip) (h : Nat) (x : HeadSt) : (c.setHead h x).stkBad = c.stkBad := rfl
@[simp] theorem Chip.setHead_stkFilled (c : Chip) (h : Nat) (x : HeadSt) : (c.setHead h x).stkFilled = c.stkFilled := rfl
@[simp] theorem Chip.setHead_fwd (c : Chip) (h : Nat) (x : HeadSt) : (c.setHead h x).fwd = c.fwd := rfl
@[simp] theorem Chip.setHead_surf (c : Chip) (h : Nat) (x : HeadSt) : (c.setHead h x).surf = c.surf := rfl
@[simp] theorem Chip.setHead_dps (c : Chip) (h : Nat) (x : HeadSt) : (c.setHead h x).dps = c.dps := rfl
@[simp] theorem Chip.setHead_hub (c : Chip) (h : Nat) (x : HeadSt) : (c.setHead h x).hub = c.hub := rfl
@[simp] theorem Chip.setHead_svcf (c : Chip) (h : Nat) (x : HeadSt) : (c.setHead h x).svcf = c.svcf := rfl
@[simp] theorem Chip.setHead_svcp (c : Chip) (h : Nat) (x : HeadSt) : (c.setHead h x).svcp = c.svcp := rfl
@[simp] theorem Chip.setHead_latches (c : Chip) (h : Nat) (x : HeadSt) : (c.setHead h x).latches = c.latches := rfl
@[simp] theorem Chip.setHead_pcie (c : Chip) (h : Nat) (x : HeadSt) : (c.setHead h x).pcie = c.pcie := rfl
@[simp] theorem Chip.setHead_lpi (c : Chip) (h : Nat) (x : HeadSt) : (c.setHead h x).lpi = c.lpi := rfl
@[simp] theorem Chip.setHead_eth (c : Chip) (h : Nat) (x : HeadSt) : (c.setHead h x).eth = c.eth := rfl
@[simp] theorem Chip.setHead_pd (c : Chip) (h : Nat) (x : HeadSt) : (c.setHead h x).pd = c.pd := rfl
@[simp] theorem Chip.setHead_budget (c : Chip) (h : Nat) (x : HeadSt) : (c.setHead h x).budget = c.budget := rfl
@[simp] theorem Chip.setHead_tap (c : Chip) (h : Nat) (x : HeadSt) : (c.setHead h x).tap = c.tap := rfl
@[simp] theorem Chip.setHead_samples (c : Chip) (h : Nat) (x : HeadSt) : (c.setHead h x).samples = c.samples := rfl
@[simp] theorem Chip.setHead_seq (c : Chip) (h : Nat) (x : HeadSt) : (c.setHead h x).seq = c.seq := rfl

/-! ### setDp -/

@[simp] theorem Chip.setDp_part (c : Chip) (o : Nat) (x : DpSt) : (c.setDp o x).part = c.part := rfl
@[simp] theorem Chip.setDp_regs (c : Chip) (o : Nat) (x : DpSt) : (c.setDp o x).regs = c.regs := rfl
@[simp] theorem Chip.setDp_out (c : Chip) (o : Nat) (x : DpSt) : (c.setDp o x).out = c.out := rfl
@[simp] theorem Chip.setDp_firings (c : Chip) (o : Nat) (x : DpSt) : (c.setDp o x).firings = c.firings := rfl
@[simp] theorem Chip.setDp_timeNs (c : Chip) (o : Nat) (x : DpSt) : (c.setDp o x).timeNs = c.timeNs := rfl
@[simp] theorem Chip.setDp_free (c : Chip) (o : Nat) (x : DpSt) : (c.setDp o x).free = c.free := rfl
@[simp] theorem Chip.setDp_boot (c : Chip) (o : Nat) (x : DpSt) : (c.setDp o x).boot = c.boot := rfl
@[simp] theorem Chip.setDp_folio (c : Chip) (o : Nat) (x : DpSt) : (c.setDp o x).folio = c.folio := rfl
@[simp] theorem Chip.setDp_maint (c : Chip) (o : Nat) (x : DpSt) : (c.setDp o x).maint = c.maint := rfl
@[simp] theorem Chip.setDp_lanes (c : Chip) (o : Nat) (x : DpSt) : (c.setDp o x).lanes = c.lanes := rfl
@[simp] theorem Chip.setDp_links (c : Chip) (o : Nat) (x : DpSt) : (c.setDp o x).links = c.links := rfl
@[simp] theorem Chip.setDp_flows (c : Chip) (o : Nat) (x : DpSt) : (c.setDp o x).flows = c.flows := rfl
@[simp] theorem Chip.setDp_queues (c : Chip) (o : Nat) (x : DpSt) : (c.setDp o x).queues = c.queues := rfl
@[simp] theorem Chip.setDp_scheds (c : Chip) (o : Nat) (x : DpSt) : (c.setDp o x).scheds = c.scheds := rfl
@[simp] theorem Chip.setDp_ev (c : Chip) (o : Nat) (x : DpSt) : (c.setDp o x).ev = c.ev := rfl
@[simp] theorem Chip.setDp_prefetch (c : Chip) (o : Nat) (x : DpSt) : (c.setDp o x).prefetch = c.prefetch := rfl
@[simp] theorem Chip.setDp_taps (c : Chip) (o : Nat) (x : DpSt) : (c.setDp o x).taps = c.taps := rfl
@[simp] theorem Chip.setDp_deferred (c : Chip) (o : Nat) (x : DpSt) : (c.setDp o x).deferred = c.deferred := rfl
@[simp] theorem Chip.setDp_lateNow (c : Chip) (o : Nat) (x : DpSt) : (c.setDp o x).lateNow = c.lateNow := rfl
@[simp] theorem Chip.setDp_fuses (c : Chip) (o : Nat) (x : DpSt) : (c.setDp o x).fuses = c.fuses := rfl
@[simp] theorem Chip.setDp_muni (c : Chip) (o : Nat) (x : DpSt) : (c.setDp o x).muni = c.muni := rfl
@[simp] theorem Chip.setDp_copp (c : Chip) (o : Nat) (x : DpSt) : (c.setDp o x).copp = c.copp := rfl
@[simp] theorem Chip.setDp_router (c : Chip) (o : Nat) (x : DpSt) : (c.setDp o x).router = c.router := rfl
@[simp] theorem Chip.setDp_stkBad (c : Chip) (o : Nat) (x : DpSt) : (c.setDp o x).stkBad = c.stkBad := rfl
@[simp] theorem Chip.setDp_stkFilled (c : Chip) (o : Nat) (x : DpSt) : (c.setDp o x).stkFilled = c.stkFilled := rfl
@[simp] theorem Chip.setDp_fwd (c : Chip) (o : Nat) (x : DpSt) : (c.setDp o x).fwd = c.fwd := rfl
@[simp] theorem Chip.setDp_surf (c : Chip) (o : Nat) (x : DpSt) : (c.setDp o x).surf = c.surf := rfl
@[simp] theorem Chip.setDp_heads (c : Chip) (o : Nat) (x : DpSt) : (c.setDp o x).heads = c.heads := rfl
@[simp] theorem Chip.setDp_hub (c : Chip) (o : Nat) (x : DpSt) : (c.setDp o x).hub = c.hub := rfl
@[simp] theorem Chip.setDp_svcf (c : Chip) (o : Nat) (x : DpSt) : (c.setDp o x).svcf = c.svcf := rfl
@[simp] theorem Chip.setDp_svcp (c : Chip) (o : Nat) (x : DpSt) : (c.setDp o x).svcp = c.svcp := rfl
@[simp] theorem Chip.setDp_latches (c : Chip) (o : Nat) (x : DpSt) : (c.setDp o x).latches = c.latches := rfl
@[simp] theorem Chip.setDp_pcie (c : Chip) (o : Nat) (x : DpSt) : (c.setDp o x).pcie = c.pcie := rfl
@[simp] theorem Chip.setDp_lpi (c : Chip) (o : Nat) (x : DpSt) : (c.setDp o x).lpi = c.lpi := rfl
@[simp] theorem Chip.setDp_eth (c : Chip) (o : Nat) (x : DpSt) : (c.setDp o x).eth = c.eth := rfl
@[simp] theorem Chip.setDp_pd (c : Chip) (o : Nat) (x : DpSt) : (c.setDp o x).pd = c.pd := rfl
@[simp] theorem Chip.setDp_budget (c : Chip) (o : Nat) (x : DpSt) : (c.setDp o x).budget = c.budget := rfl
@[simp] theorem Chip.setDp_tap (c : Chip) (o : Nat) (x : DpSt) : (c.setDp o x).tap = c.tap := rfl
@[simp] theorem Chip.setDp_samples (c : Chip) (o : Nat) (x : DpSt) : (c.setDp o x).samples = c.samples := rfl
@[simp] theorem Chip.setDp_seq (c : Chip) (o : Nat) (x : DpSt) : (c.setDp o x).seq = c.seq := rfl

/-! ### setPd -/

@[simp] theorem Chip.setPd_part (c : Chip) (p : Nat) (x : PdPort) : (c.setPd p x).part = c.part := rfl
@[simp] theorem Chip.setPd_regs (c : Chip) (p : Nat) (x : PdPort) : (c.setPd p x).regs = c.regs := rfl
@[simp] theorem Chip.setPd_out (c : Chip) (p : Nat) (x : PdPort) : (c.setPd p x).out = c.out := rfl
@[simp] theorem Chip.setPd_firings (c : Chip) (p : Nat) (x : PdPort) : (c.setPd p x).firings = c.firings := rfl
@[simp] theorem Chip.setPd_timeNs (c : Chip) (p : Nat) (x : PdPort) : (c.setPd p x).timeNs = c.timeNs := rfl
@[simp] theorem Chip.setPd_free (c : Chip) (p : Nat) (x : PdPort) : (c.setPd p x).free = c.free := rfl
@[simp] theorem Chip.setPd_boot (c : Chip) (p : Nat) (x : PdPort) : (c.setPd p x).boot = c.boot := rfl
@[simp] theorem Chip.setPd_folio (c : Chip) (p : Nat) (x : PdPort) : (c.setPd p x).folio = c.folio := rfl
@[simp] theorem Chip.setPd_maint (c : Chip) (p : Nat) (x : PdPort) : (c.setPd p x).maint = c.maint := rfl
@[simp] theorem Chip.setPd_lanes (c : Chip) (p : Nat) (x : PdPort) : (c.setPd p x).lanes = c.lanes := rfl
@[simp] theorem Chip.setPd_links (c : Chip) (p : Nat) (x : PdPort) : (c.setPd p x).links = c.links := rfl
@[simp] theorem Chip.setPd_flows (c : Chip) (p : Nat) (x : PdPort) : (c.setPd p x).flows = c.flows := rfl
@[simp] theorem Chip.setPd_queues (c : Chip) (p : Nat) (x : PdPort) : (c.setPd p x).queues = c.queues := rfl
@[simp] theorem Chip.setPd_scheds (c : Chip) (p : Nat) (x : PdPort) : (c.setPd p x).scheds = c.scheds := rfl
@[simp] theorem Chip.setPd_ev (c : Chip) (p : Nat) (x : PdPort) : (c.setPd p x).ev = c.ev := rfl
@[simp] theorem Chip.setPd_prefetch (c : Chip) (p : Nat) (x : PdPort) : (c.setPd p x).prefetch = c.prefetch := rfl
@[simp] theorem Chip.setPd_taps (c : Chip) (p : Nat) (x : PdPort) : (c.setPd p x).taps = c.taps := rfl
@[simp] theorem Chip.setPd_deferred (c : Chip) (p : Nat) (x : PdPort) : (c.setPd p x).deferred = c.deferred := rfl
@[simp] theorem Chip.setPd_lateNow (c : Chip) (p : Nat) (x : PdPort) : (c.setPd p x).lateNow = c.lateNow := rfl
@[simp] theorem Chip.setPd_fuses (c : Chip) (p : Nat) (x : PdPort) : (c.setPd p x).fuses = c.fuses := rfl
@[simp] theorem Chip.setPd_muni (c : Chip) (p : Nat) (x : PdPort) : (c.setPd p x).muni = c.muni := rfl
@[simp] theorem Chip.setPd_copp (c : Chip) (p : Nat) (x : PdPort) : (c.setPd p x).copp = c.copp := rfl
@[simp] theorem Chip.setPd_router (c : Chip) (p : Nat) (x : PdPort) : (c.setPd p x).router = c.router := rfl
@[simp] theorem Chip.setPd_stkBad (c : Chip) (p : Nat) (x : PdPort) : (c.setPd p x).stkBad = c.stkBad := rfl
@[simp] theorem Chip.setPd_stkFilled (c : Chip) (p : Nat) (x : PdPort) : (c.setPd p x).stkFilled = c.stkFilled := rfl
@[simp] theorem Chip.setPd_fwd (c : Chip) (p : Nat) (x : PdPort) : (c.setPd p x).fwd = c.fwd := rfl
@[simp] theorem Chip.setPd_surf (c : Chip) (p : Nat) (x : PdPort) : (c.setPd p x).surf = c.surf := rfl
@[simp] theorem Chip.setPd_heads (c : Chip) (p : Nat) (x : PdPort) : (c.setPd p x).heads = c.heads := rfl
@[simp] theorem Chip.setPd_dps (c : Chip) (p : Nat) (x : PdPort) : (c.setPd p x).dps = c.dps := rfl
@[simp] theorem Chip.setPd_hub (c : Chip) (p : Nat) (x : PdPort) : (c.setPd p x).hub = c.hub := rfl
@[simp] theorem Chip.setPd_svcf (c : Chip) (p : Nat) (x : PdPort) : (c.setPd p x).svcf = c.svcf := rfl
@[simp] theorem Chip.setPd_svcp (c : Chip) (p : Nat) (x : PdPort) : (c.setPd p x).svcp = c.svcp := rfl
@[simp] theorem Chip.setPd_latches (c : Chip) (p : Nat) (x : PdPort) : (c.setPd p x).latches = c.latches := rfl
@[simp] theorem Chip.setPd_pcie (c : Chip) (p : Nat) (x : PdPort) : (c.setPd p x).pcie = c.pcie := rfl
@[simp] theorem Chip.setPd_lpi (c : Chip) (p : Nat) (x : PdPort) : (c.setPd p x).lpi = c.lpi := rfl
@[simp] theorem Chip.setPd_eth (c : Chip) (p : Nat) (x : PdPort) : (c.setPd p x).eth = c.eth := rfl
@[simp] theorem Chip.setPd_budget (c : Chip) (p : Nat) (x : PdPort) : (c.setPd p x).budget = c.budget := rfl
@[simp] theorem Chip.setPd_tap (c : Chip) (p : Nat) (x : PdPort) : (c.setPd p x).tap = c.tap := rfl
@[simp] theorem Chip.setPd_samples (c : Chip) (p : Nat) (x : PdPort) : (c.setPd p x).samples = c.samples := rfl
@[simp] theorem Chip.setPd_seq (c : Chip) (p : Nat) (x : PdPort) : (c.setPd p x).seq = c.seq := rfl

/-! ### setPep -/

@[simp] theorem Chip.setPep_part (c : Chip) (p : Nat) (x : Pep) : (c.setPep p x).part = c.part := rfl
@[simp] theorem Chip.setPep_regs (c : Chip) (p : Nat) (x : Pep) : (c.setPep p x).regs = c.regs := rfl
@[simp] theorem Chip.setPep_out (c : Chip) (p : Nat) (x : Pep) : (c.setPep p x).out = c.out := rfl
@[simp] theorem Chip.setPep_firings (c : Chip) (p : Nat) (x : Pep) : (c.setPep p x).firings = c.firings := rfl
@[simp] theorem Chip.setPep_timeNs (c : Chip) (p : Nat) (x : Pep) : (c.setPep p x).timeNs = c.timeNs := rfl
@[simp] theorem Chip.setPep_free (c : Chip) (p : Nat) (x : Pep) : (c.setPep p x).free = c.free := rfl
@[simp] theorem Chip.setPep_boot (c : Chip) (p : Nat) (x : Pep) : (c.setPep p x).boot = c.boot := rfl
@[simp] theorem Chip.setPep_folio (c : Chip) (p : Nat) (x : Pep) : (c.setPep p x).folio = c.folio := rfl
@[simp] theorem Chip.setPep_maint (c : Chip) (p : Nat) (x : Pep) : (c.setPep p x).maint = c.maint := rfl
@[simp] theorem Chip.setPep_lanes (c : Chip) (p : Nat) (x : Pep) : (c.setPep p x).lanes = c.lanes := rfl
@[simp] theorem Chip.setPep_links (c : Chip) (p : Nat) (x : Pep) : (c.setPep p x).links = c.links := rfl
@[simp] theorem Chip.setPep_flows (c : Chip) (p : Nat) (x : Pep) : (c.setPep p x).flows = c.flows := rfl
@[simp] theorem Chip.setPep_queues (c : Chip) (p : Nat) (x : Pep) : (c.setPep p x).queues = c.queues := rfl
@[simp] theorem Chip.setPep_scheds (c : Chip) (p : Nat) (x : Pep) : (c.setPep p x).scheds = c.scheds := rfl
@[simp] theorem Chip.setPep_ev (c : Chip) (p : Nat) (x : Pep) : (c.setPep p x).ev = c.ev := rfl
@[simp] theorem Chip.setPep_prefetch (c : Chip) (p : Nat) (x : Pep) : (c.setPep p x).prefetch = c.prefetch := rfl
@[simp] theorem Chip.setPep_taps (c : Chip) (p : Nat) (x : Pep) : (c.setPep p x).taps = c.taps := rfl
@[simp] theorem Chip.setPep_deferred (c : Chip) (p : Nat) (x : Pep) : (c.setPep p x).deferred = c.deferred := rfl
@[simp] theorem Chip.setPep_lateNow (c : Chip) (p : Nat) (x : Pep) : (c.setPep p x).lateNow = c.lateNow := rfl
@[simp] theorem Chip.setPep_fuses (c : Chip) (p : Nat) (x : Pep) : (c.setPep p x).fuses = c.fuses := rfl
@[simp] theorem Chip.setPep_muni (c : Chip) (p : Nat) (x : Pep) : (c.setPep p x).muni = c.muni := rfl
@[simp] theorem Chip.setPep_copp (c : Chip) (p : Nat) (x : Pep) : (c.setPep p x).copp = c.copp := rfl
@[simp] theorem Chip.setPep_router (c : Chip) (p : Nat) (x : Pep) : (c.setPep p x).router = c.router := rfl
@[simp] theorem Chip.setPep_stkBad (c : Chip) (p : Nat) (x : Pep) : (c.setPep p x).stkBad = c.stkBad := rfl
@[simp] theorem Chip.setPep_stkFilled (c : Chip) (p : Nat) (x : Pep) : (c.setPep p x).stkFilled = c.stkFilled := rfl
@[simp] theorem Chip.setPep_fwd (c : Chip) (p : Nat) (x : Pep) : (c.setPep p x).fwd = c.fwd := rfl
@[simp] theorem Chip.setPep_surf (c : Chip) (p : Nat) (x : Pep) : (c.setPep p x).surf = c.surf := rfl
@[simp] theorem Chip.setPep_heads (c : Chip) (p : Nat) (x : Pep) : (c.setPep p x).heads = c.heads := rfl
@[simp] theorem Chip.setPep_dps (c : Chip) (p : Nat) (x : Pep) : (c.setPep p x).dps = c.dps := rfl
@[simp] theorem Chip.setPep_hub (c : Chip) (p : Nat) (x : Pep) : (c.setPep p x).hub = c.hub := rfl
@[simp] theorem Chip.setPep_svcf (c : Chip) (p : Nat) (x : Pep) : (c.setPep p x).svcf = c.svcf := rfl
@[simp] theorem Chip.setPep_svcp (c : Chip) (p : Nat) (x : Pep) : (c.setPep p x).svcp = c.svcp := rfl
@[simp] theorem Chip.setPep_latches (c : Chip) (p : Nat) (x : Pep) : (c.setPep p x).latches = c.latches := rfl
@[simp] theorem Chip.setPep_lpi (c : Chip) (p : Nat) (x : Pep) : (c.setPep p x).lpi = c.lpi := rfl
@[simp] theorem Chip.setPep_eth (c : Chip) (p : Nat) (x : Pep) : (c.setPep p x).eth = c.eth := rfl
@[simp] theorem Chip.setPep_pd (c : Chip) (p : Nat) (x : Pep) : (c.setPep p x).pd = c.pd := rfl
@[simp] theorem Chip.setPep_budget (c : Chip) (p : Nat) (x : Pep) : (c.setPep p x).budget = c.budget := rfl
@[simp] theorem Chip.setPep_tap (c : Chip) (p : Nat) (x : Pep) : (c.setPep p x).tap = c.tap := rfl
@[simp] theorem Chip.setPep_samples (c : Chip) (p : Nat) (x : Pep) : (c.setPep p x).samples = c.samples := rfl
@[simp] theorem Chip.setPep_seq (c : Chip) (p : Nat) (x : Pep) : (c.setPep p x).seq = c.seq := rfl

/-! ### setPort -/

@[simp] theorem Chip.setPort_part (c : Chip) (p : Nat) (x : PortSt) : (c.setPort p x).part = c.part := rfl
@[simp] theorem Chip.setPort_regs (c : Chip) (p : Nat) (x : PortSt) : (c.setPort p x).regs = c.regs := rfl
@[simp] theorem Chip.setPort_out (c : Chip) (p : Nat) (x : PortSt) : (c.setPort p x).out = c.out := rfl
@[simp] theorem Chip.setPort_firings (c : Chip) (p : Nat) (x : PortSt) : (c.setPort p x).firings = c.firings := rfl
@[simp] theorem Chip.setPort_timeNs (c : Chip) (p : Nat) (x : PortSt) : (c.setPort p x).timeNs = c.timeNs := rfl
@[simp] theorem Chip.setPort_free (c : Chip) (p : Nat) (x : PortSt) : (c.setPort p x).free = c.free := rfl
@[simp] theorem Chip.setPort_boot (c : Chip) (p : Nat) (x : PortSt) : (c.setPort p x).boot = c.boot := rfl
@[simp] theorem Chip.setPort_folio (c : Chip) (p : Nat) (x : PortSt) : (c.setPort p x).folio = c.folio := rfl
@[simp] theorem Chip.setPort_maint (c : Chip) (p : Nat) (x : PortSt) : (c.setPort p x).maint = c.maint := rfl
@[simp] theorem Chip.setPort_lanes (c : Chip) (p : Nat) (x : PortSt) : (c.setPort p x).lanes = c.lanes := rfl
@[simp] theorem Chip.setPort_links (c : Chip) (p : Nat) (x : PortSt) : (c.setPort p x).links = c.links := rfl
@[simp] theorem Chip.setPort_flows (c : Chip) (p : Nat) (x : PortSt) : (c.setPort p x).flows = c.flows := rfl
@[simp] theorem Chip.setPort_queues (c : Chip) (p : Nat) (x : PortSt) : (c.setPort p x).queues = c.queues := rfl
@[simp] theorem Chip.setPort_scheds (c : Chip) (p : Nat) (x : PortSt) : (c.setPort p x).scheds = c.scheds := rfl
@[simp] theorem Chip.setPort_ev (c : Chip) (p : Nat) (x : PortSt) : (c.setPort p x).ev = c.ev := rfl
@[simp] theorem Chip.setPort_prefetch (c : Chip) (p : Nat) (x : PortSt) : (c.setPort p x).prefetch = c.prefetch := rfl
@[simp] theorem Chip.setPort_taps (c : Chip) (p : Nat) (x : PortSt) : (c.setPort p x).taps = c.taps := rfl
@[simp] theorem Chip.setPort_deferred (c : Chip) (p : Nat) (x : PortSt) : (c.setPort p x).deferred = c.deferred := rfl
@[simp] theorem Chip.setPort_lateNow (c : Chip) (p : Nat) (x : PortSt) : (c.setPort p x).lateNow = c.lateNow := rfl
@[simp] theorem Chip.setPort_fuses (c : Chip) (p : Nat) (x : PortSt) : (c.setPort p x).fuses = c.fuses := rfl
@[simp] theorem Chip.setPort_muni (c : Chip) (p : Nat) (x : PortSt) : (c.setPort p x).muni = c.muni := rfl
@[simp] theorem Chip.setPort_copp (c : Chip) (p : Nat) (x : PortSt) : (c.setPort p x).copp = c.copp := rfl
@[simp] theorem Chip.setPort_router (c : Chip) (p : Nat) (x : PortSt) : (c.setPort p x).router = c.router := rfl
@[simp] theorem Chip.setPort_stkBad (c : Chip) (p : Nat) (x : PortSt) : (c.setPort p x).stkBad = c.stkBad := rfl
@[simp] theorem Chip.setPort_stkFilled (c : Chip) (p : Nat) (x : PortSt) : (c.setPort p x).stkFilled = c.stkFilled := rfl
@[simp] theorem Chip.setPort_fwd (c : Chip) (p : Nat) (x : PortSt) : (c.setPort p x).fwd = c.fwd := rfl
@[simp] theorem Chip.setPort_surf (c : Chip) (p : Nat) (x : PortSt) : (c.setPort p x).surf = c.surf := rfl
@[simp] theorem Chip.setPort_heads (c : Chip) (p : Nat) (x : PortSt) : (c.setPort p x).heads = c.heads := rfl
@[simp] theorem Chip.setPort_dps (c : Chip) (p : Nat) (x : PortSt) : (c.setPort p x).dps = c.dps := rfl
@[simp] theorem Chip.setPort_svcf (c : Chip) (p : Nat) (x : PortSt) : (c.setPort p x).svcf = c.svcf := rfl
@[simp] theorem Chip.setPort_svcp (c : Chip) (p : Nat) (x : PortSt) : (c.setPort p x).svcp = c.svcp := rfl
@[simp] theorem Chip.setPort_latches (c : Chip) (p : Nat) (x : PortSt) : (c.setPort p x).latches = c.latches := rfl
@[simp] theorem Chip.setPort_pcie (c : Chip) (p : Nat) (x : PortSt) : (c.setPort p x).pcie = c.pcie := rfl
@[simp] theorem Chip.setPort_lpi (c : Chip) (p : Nat) (x : PortSt) : (c.setPort p x).lpi = c.lpi := rfl
@[simp] theorem Chip.setPort_eth (c : Chip) (p : Nat) (x : PortSt) : (c.setPort p x).eth = c.eth := rfl
@[simp] theorem Chip.setPort_pd (c : Chip) (p : Nat) (x : PortSt) : (c.setPort p x).pd = c.pd := rfl
@[simp] theorem Chip.setPort_budget (c : Chip) (p : Nat) (x : PortSt) : (c.setPort p x).budget = c.budget := rfl
@[simp] theorem Chip.setPort_tap (c : Chip) (p : Nat) (x : PortSt) : (c.setPort p x).tap = c.tap := rfl
@[simp] theorem Chip.setPort_samples (c : Chip) (p : Nat) (x : PortSt) : (c.setPort p x).samples = c.samples := rfl
@[simp] theorem Chip.setPort_seq (c : Chip) (p : Nat) (x : PortSt) : (c.setPort p x).seq = c.seq := rfl

/-! ### modMuni -/

@[simp] theorem Chip.modMuni_part (c : Chip) (f : Muni → Muni) : (c.modMuni f).part = c.part := rfl
@[simp] theorem Chip.modMuni_regs (c : Chip) (f : Muni → Muni) : (c.modMuni f).regs = c.regs := rfl
@[simp] theorem Chip.modMuni_out (c : Chip) (f : Muni → Muni) : (c.modMuni f).out = c.out := rfl
@[simp] theorem Chip.modMuni_firings (c : Chip) (f : Muni → Muni) : (c.modMuni f).firings = c.firings := rfl
@[simp] theorem Chip.modMuni_timeNs (c : Chip) (f : Muni → Muni) : (c.modMuni f).timeNs = c.timeNs := rfl
@[simp] theorem Chip.modMuni_free (c : Chip) (f : Muni → Muni) : (c.modMuni f).free = c.free := rfl
@[simp] theorem Chip.modMuni_boot (c : Chip) (f : Muni → Muni) : (c.modMuni f).boot = c.boot := rfl
@[simp] theorem Chip.modMuni_folio (c : Chip) (f : Muni → Muni) : (c.modMuni f).folio = c.folio := rfl
@[simp] theorem Chip.modMuni_maint (c : Chip) (f : Muni → Muni) : (c.modMuni f).maint = c.maint := rfl
@[simp] theorem Chip.modMuni_lanes (c : Chip) (f : Muni → Muni) : (c.modMuni f).lanes = c.lanes := rfl
@[simp] theorem Chip.modMuni_links (c : Chip) (f : Muni → Muni) : (c.modMuni f).links = c.links := rfl
@[simp] theorem Chip.modMuni_flows (c : Chip) (f : Muni → Muni) : (c.modMuni f).flows = c.flows := rfl
@[simp] theorem Chip.modMuni_queues (c : Chip) (f : Muni → Muni) : (c.modMuni f).queues = c.queues := rfl
@[simp] theorem Chip.modMuni_scheds (c : Chip) (f : Muni → Muni) : (c.modMuni f).scheds = c.scheds := rfl
@[simp] theorem Chip.modMuni_ev (c : Chip) (f : Muni → Muni) : (c.modMuni f).ev = c.ev := rfl
@[simp] theorem Chip.modMuni_prefetch (c : Chip) (f : Muni → Muni) : (c.modMuni f).prefetch = c.prefetch := rfl
@[simp] theorem Chip.modMuni_taps (c : Chip) (f : Muni → Muni) : (c.modMuni f).taps = c.taps := rfl
@[simp] theorem Chip.modMuni_deferred (c : Chip) (f : Muni → Muni) : (c.modMuni f).deferred = c.deferred := rfl
@[simp] theorem Chip.modMuni_lateNow (c : Chip) (f : Muni → Muni) : (c.modMuni f).lateNow = c.lateNow := rfl
@[simp] theorem Chip.modMuni_fuses (c : Chip) (f : Muni → Muni) : (c.modMuni f).fuses = c.fuses := rfl
@[simp] theorem Chip.modMuni_copp (c : Chip) (f : Muni → Muni) : (c.modMuni f).copp = c.copp := rfl
@[simp] theorem Chip.modMuni_router (c : Chip) (f : Muni → Muni) : (c.modMuni f).router = c.router := rfl
@[simp] theorem Chip.modMuni_stkBad (c : Chip) (f : Muni → Muni) : (c.modMuni f).stkBad = c.stkBad := rfl
@[simp] theorem Chip.modMuni_stkFilled (c : Chip) (f : Muni → Muni) : (c.modMuni f).stkFilled = c.stkFilled := rfl
@[simp] theorem Chip.modMuni_fwd (c : Chip) (f : Muni → Muni) : (c.modMuni f).fwd = c.fwd := rfl
@[simp] theorem Chip.modMuni_surf (c : Chip) (f : Muni → Muni) : (c.modMuni f).surf = c.surf := rfl
@[simp] theorem Chip.modMuni_heads (c : Chip) (f : Muni → Muni) : (c.modMuni f).heads = c.heads := rfl
@[simp] theorem Chip.modMuni_dps (c : Chip) (f : Muni → Muni) : (c.modMuni f).dps = c.dps := rfl
@[simp] theorem Chip.modMuni_hub (c : Chip) (f : Muni → Muni) : (c.modMuni f).hub = c.hub := rfl
@[simp] theorem Chip.modMuni_svcf (c : Chip) (f : Muni → Muni) : (c.modMuni f).svcf = c.svcf := rfl
@[simp] theorem Chip.modMuni_svcp (c : Chip) (f : Muni → Muni) : (c.modMuni f).svcp = c.svcp := rfl
@[simp] theorem Chip.modMuni_latches (c : Chip) (f : Muni → Muni) : (c.modMuni f).latches = c.latches := rfl
@[simp] theorem Chip.modMuni_pcie (c : Chip) (f : Muni → Muni) : (c.modMuni f).pcie = c.pcie := rfl
@[simp] theorem Chip.modMuni_lpi (c : Chip) (f : Muni → Muni) : (c.modMuni f).lpi = c.lpi := rfl
@[simp] theorem Chip.modMuni_eth (c : Chip) (f : Muni → Muni) : (c.modMuni f).eth = c.eth := rfl
@[simp] theorem Chip.modMuni_pd (c : Chip) (f : Muni → Muni) : (c.modMuni f).pd = c.pd := rfl
@[simp] theorem Chip.modMuni_budget (c : Chip) (f : Muni → Muni) : (c.modMuni f).budget = c.budget := rfl
@[simp] theorem Chip.modMuni_tap (c : Chip) (f : Muni → Muni) : (c.modMuni f).tap = c.tap := rfl
@[simp] theorem Chip.modMuni_samples (c : Chip) (f : Muni → Muni) : (c.modMuni f).samples = c.samples := rfl
@[simp] theorem Chip.modMuni_seq (c : Chip) (f : Muni → Muni) : (c.modMuni f).seq = c.seq := rfl

/-! ### modCopp -/

@[simp] theorem Chip.modCopp_part (c : Chip) (f : Copp → Copp) : (c.modCopp f).part = c.part := rfl
@[simp] theorem Chip.modCopp_regs (c : Chip) (f : Copp → Copp) : (c.modCopp f).regs = c.regs := rfl
@[simp] theorem Chip.modCopp_out (c : Chip) (f : Copp → Copp) : (c.modCopp f).out = c.out := rfl
@[simp] theorem Chip.modCopp_firings (c : Chip) (f : Copp → Copp) : (c.modCopp f).firings = c.firings := rfl
@[simp] theorem Chip.modCopp_timeNs (c : Chip) (f : Copp → Copp) : (c.modCopp f).timeNs = c.timeNs := rfl
@[simp] theorem Chip.modCopp_free (c : Chip) (f : Copp → Copp) : (c.modCopp f).free = c.free := rfl
@[simp] theorem Chip.modCopp_boot (c : Chip) (f : Copp → Copp) : (c.modCopp f).boot = c.boot := rfl
@[simp] theorem Chip.modCopp_folio (c : Chip) (f : Copp → Copp) : (c.modCopp f).folio = c.folio := rfl
@[simp] theorem Chip.modCopp_maint (c : Chip) (f : Copp → Copp) : (c.modCopp f).maint = c.maint := rfl
@[simp] theorem Chip.modCopp_lanes (c : Chip) (f : Copp → Copp) : (c.modCopp f).lanes = c.lanes := rfl
@[simp] theorem Chip.modCopp_links (c : Chip) (f : Copp → Copp) : (c.modCopp f).links = c.links := rfl
@[simp] theorem Chip.modCopp_flows (c : Chip) (f : Copp → Copp) : (c.modCopp f).flows = c.flows := rfl
@[simp] theorem Chip.modCopp_queues (c : Chip) (f : Copp → Copp) : (c.modCopp f).queues = c.queues := rfl
@[simp] theorem Chip.modCopp_scheds (c : Chip) (f : Copp → Copp) : (c.modCopp f).scheds = c.scheds := rfl
@[simp] theorem Chip.modCopp_ev (c : Chip) (f : Copp → Copp) : (c.modCopp f).ev = c.ev := rfl
@[simp] theorem Chip.modCopp_prefetch (c : Chip) (f : Copp → Copp) : (c.modCopp f).prefetch = c.prefetch := rfl
@[simp] theorem Chip.modCopp_taps (c : Chip) (f : Copp → Copp) : (c.modCopp f).taps = c.taps := rfl
@[simp] theorem Chip.modCopp_deferred (c : Chip) (f : Copp → Copp) : (c.modCopp f).deferred = c.deferred := rfl
@[simp] theorem Chip.modCopp_lateNow (c : Chip) (f : Copp → Copp) : (c.modCopp f).lateNow = c.lateNow := rfl
@[simp] theorem Chip.modCopp_fuses (c : Chip) (f : Copp → Copp) : (c.modCopp f).fuses = c.fuses := rfl
@[simp] theorem Chip.modCopp_muni (c : Chip) (f : Copp → Copp) : (c.modCopp f).muni = c.muni := rfl
@[simp] theorem Chip.modCopp_router (c : Chip) (f : Copp → Copp) : (c.modCopp f).router = c.router := rfl
@[simp] theorem Chip.modCopp_stkBad (c : Chip) (f : Copp → Copp) : (c.modCopp f).stkBad = c.stkBad := rfl
@[simp] theorem Chip.modCopp_stkFilled (c : Chip) (f : Copp → Copp) : (c.modCopp f).stkFilled = c.stkFilled := rfl
@[simp] theorem Chip.modCopp_fwd (c : Chip) (f : Copp → Copp) : (c.modCopp f).fwd = c.fwd := rfl
@[simp] theorem Chip.modCopp_surf (c : Chip) (f : Copp → Copp) : (c.modCopp f).surf = c.surf := rfl
@[simp] theorem Chip.modCopp_heads (c : Chip) (f : Copp → Copp) : (c.modCopp f).heads = c.heads := rfl
@[simp] theorem Chip.modCopp_dps (c : Chip) (f : Copp → Copp) : (c.modCopp f).dps = c.dps := rfl
@[simp] theorem Chip.modCopp_hub (c : Chip) (f : Copp → Copp) : (c.modCopp f).hub = c.hub := rfl
@[simp] theorem Chip.modCopp_svcf (c : Chip) (f : Copp → Copp) : (c.modCopp f).svcf = c.svcf := rfl
@[simp] theorem Chip.modCopp_svcp (c : Chip) (f : Copp → Copp) : (c.modCopp f).svcp = c.svcp := rfl
@[simp] theorem Chip.modCopp_latches (c : Chip) (f : Copp → Copp) : (c.modCopp f).latches = c.latches := rfl
@[simp] theorem Chip.modCopp_pcie (c : Chip) (f : Copp → Copp) : (c.modCopp f).pcie = c.pcie := rfl
@[simp] theorem Chip.modCopp_lpi (c : Chip) (f : Copp → Copp) : (c.modCopp f).lpi = c.lpi := rfl
@[simp] theorem Chip.modCopp_eth (c : Chip) (f : Copp → Copp) : (c.modCopp f).eth = c.eth := rfl
@[simp] theorem Chip.modCopp_pd (c : Chip) (f : Copp → Copp) : (c.modCopp f).pd = c.pd := rfl
@[simp] theorem Chip.modCopp_budget (c : Chip) (f : Copp → Copp) : (c.modCopp f).budget = c.budget := rfl
@[simp] theorem Chip.modCopp_tap (c : Chip) (f : Copp → Copp) : (c.modCopp f).tap = c.tap := rfl
@[simp] theorem Chip.modCopp_samples (c : Chip) (f : Copp → Copp) : (c.modCopp f).samples = c.samples := rfl
@[simp] theorem Chip.modCopp_seq (c : Chip) (f : Copp → Copp) : (c.modCopp f).seq = c.seq := rfl

end Sys2Proof.Machine
end

