-- ==== Sys2Proof/WellFormed.lean ====
section
/-! DEFINITION. Which commands are well formed: operands that the type of a command admits and the spec does not. -/

namespace Sys2Proof

/-- Whether a command's operands have the shape the spec gives them: a register command carries its trigger bit, a register
address is aligned, a message has its stated length. -/
def Instr.wf : Instr → Bool
  | .warm _ v => v.getLsbD 0
  | .registerWrite _ a _ => a.toNat % 4 == 0
  | .folioWrite v => v.getLsbD 0
  | .folioVerify v => v.getLsbD 2
  | .blockReceive _ r => r.levels.length == 2672 || r.levels.length == 5344
  | .ack _ m => m.maps.length == 4
  | .eq _ lanes => lanes.length == 4 && lanes.all fun x => x.req.length == 4
  | .adaptationComplete _ _ taps => taps.length == 28
  | .laneOut _ _ reason => decide (reason.toNat ≤ 2)
  | .retrain _ v => v.getLsbD 9
  | .linkRecover _ v => v.getLsbD 8
  | .linkCntClr _ v => v.getLsbD 10
  | .allot _ m => decide (m.index < m.parts) && decide (m.parts ≤ 4) && decide (m.entries.length ≤ 37)
  | .demand _ m => decide (m.index < m.parts) && decide (m.parts ≤ 10) && decide (m.entries.length ≤ 28)
  | .eyeScanStart _ v => v.getLsbD 31
  | .eyeScanAbort _ v => v.getLsbD 30
  | .laneEqRetrain _ v => v.getLsbD 8
  | .nearEndSerial _ v => (v.toNat / 16) % 8 == 1
  | .nearEndParallel _ v => (v.toNat / 16) % 8 == 2
  | .farEndRetimed _ v => (v.toNat / 16) % 8 == 3
  | .pattern _ v => (v.toNat / 16) % 8 == 4
  | .loopNone _ v => (v.toNat / 16) % 8 == 0
  | .flowEntryParityError f _ => decide (3 ≤ f.val)
  | .circCntClr v => v.getLsbD 10
  | .read _ _ _ bytes => bytes.headD 0 == 0x01#8
  | .writeNonPosted _ _ typ bytes => typ != 4 && bytes.headD 0 != 0x01#8
  | .writePosted _ _ typ bytes => typ == 4 && bytes.headD 0 != 0x01#8
  | .readCpl _ _ _ bytes => bytes.headD 0 == 0x81#8
  | .writeCpl _ _ _ bytes => bytes.headD 0 == 0x82#8
  | .windowEnable _ v => v.getLsbD 31
  | .windowDisable _ v => !v.getLsbD 31
  | .rel v => v.getLsbD 0
  | .brdgCntClr v => v.getLsbD 8
  | .surfaceValidate _ v => v.getLsbD 31
  | .surfaceInvalidate _ v => !v.getLsbD 31
  | .tile _ cells => (cells.head?.bind fun x => x.payload.head?) != some 0x11#8
  | .fill _ cells => (cells.head?.bind fun x => x.payload.head?) == some 0x11#8
  | .rawLine _ cells => !cells.isEmpty
  | .surfCntClr v => v.getLsbD 8
  | .headEnable _ v => v.getLsbD 31
  | .headDisable _ v => !v.getLsbD 31
  | .headArm _ v => v.getLsbD 0
  | .headCancel _ v => v.getLsbD 1
  | .headCntClr _ v => v.getLsbD 2
  | .margArm _ v => v.getLsbD 0
  | .margCancel _ v => v.getLsbD 1
  | .dptxRetrain _ v => v.getLsbD 22
  | .nativeWrite _ v => v.getLsbD 31 && v.toNat / 2 ^ 28 % 8 == 0
  | .nativeRead _ v => v.getLsbD 31 && v.toNat / 2 ^ 28 % 8 == 1
  | .i2cWrite _ v => v.getLsbD 31 && v.toNat / 2 ^ 28 % 8 == 4
  | .i2cRead _ v => v.getLsbD 31 && v.toNat / 2 ^ 28 % 8 == 5
  | .i2cWriteMot _ v => v.getLsbD 31 && v.toNat / 2 ^ 28 % 8 == 6
  | .i2cReadMot _ v => v.getLsbD 31 && v.toNat / 2 ^ 28 % 8 == 7
  | .ssHdr _ cells _ => (cells.head?.bind fun x => x.payload.head?) == some 0x01#8
  | .ssData _ cells _ _ => !([0x01#8, 0x10#8, 0x20#8].map some).contains (cells.head?.bind fun x => x.payload.head?)
  | .u2Txn _ cells _ _ _ reply => (cells.head?.bind fun x => x.payload.head?) == some 0x10#8 && decide (reply.length ≤ 1024)
  | .uportReset _ cells => (cells.head?.bind fun x => x.payload.head?) == some 0x20#8 && (cells.head?.bind fun x => x.payload[1]?) == some 0x00#8
  | .uportSuspend _ cells => (cells.head?.bind fun x => x.payload.head?) == some 0x20#8 && (cells.head?.bind fun x => x.payload[1]?) != some 0x00#8 && (cells.head?.bind fun x => x.payload[1]?) != some 0x02#8
  | .uportResume _ cells => (cells.head?.bind fun x => x.payload.head?) == some 0x20#8 && (cells.head?.bind fun x => x.payload[1]?) == some 0x02#8
  | .hubCntClr v => v.getLsbD 12
  | .pcieTunEnable v => v.getLsbD 31
  | .pcieCntClr v => v.getLsbD 2
  | .ntb n => decide (n.frames.length ≤ 32)
  | .reneg v => v.getLsbD 21
  | .enetCntClr v => v.getLsbD 25
  | .sourceCapabilities _ caps => !caps.isEmpty
  | .hrst _ v => v.getLsbD 25
  | .ppCntClr v => v.getLsbD 0
  | .derive v => v.getLsbD 31 && v.toNat / 2 ^ 28 % 8 == 1
  | .importKey v => v.getLsbD 31 && v.toNat / 2 ^ 28 % 8 == 2
  | .ecdh v => v.getLsbD 31 && v.toNat / 2 ^ 28 % 8 == 3
  | .clear v => v.getLsbD 31 && v.toNat / 2 ^ 28 % 8 == 4
  | .invalidate v => v.getLsbD 31 && v.toNat / 2 ^ 28 % 8 == 5
  | .atstGo v => v.getLsbD 31
  | .certWrite v _ => v.getLsbD 30
  | .lcGo v _ => v.getLsbD 31
  | .openMsg _ _ m => decide (m.lens.length = m.cells.length) && decide (m.tail.length = 32)
  | .flitParityError _ x => !x.planes.isEmpty
  | .slackMeasurement meas => decide (meas.length = 9)
  | .force v => v.getLsbD 31
  | .coppCntClr v => v.getLsbD 12
  | .scrbCntClr v => v.getLsbD 8
  | .evtCntClr v => v.getLsbD 8
  | .safeCtrlEnter v => v.getLsbD 31
  | _ => true

end Sys2Proof
end

