-- ==== Sys2Proof/Tests/Slice0.lean ====
section
/-! SUPPORT. Tests: for each statement with hypotheses a state and operands that meet them, an ill-formed term for each check of
`Instr.wf`, and single steps whose results are written out from the rules of spec/. -/

namespace Sys2Proof.Tests

open Sys2Proof Sys2Proof.Machine

/-- The chip after start-up, before anything is attached. -/
def up : Chip := { Chip.reset with boot := { Boot.init with step := 12 } }

/-- A chip with fields of registers set. -/
def put (l : List (Fld × Nat)) (c : Chip := up) : Chip := l.foldl (fun c p => c.setFld p.1 p.2) c

/-- A message of one cell. -/
def one (typ : Nat) (bs : List Byte) : List MsgCell := [{ typ := typ, len := 15, payload := fitBytes 120 bs }]

/-! ## For each statement with hypotheses, states and operands that meet them -/

theorem test_startUpAndResets_met :
    (∃ c : Chip, c.boot.step = 0) ∧
    (∃ c : Chip, 0 < c.boot.step ∧ c.boot.step < c.lastStep ∧ c.railDue = false ∧ c.safe = false) ∧
    (∃ c : Chip, ∃ p, c.boot.rampNow = some (.ds p) ∧ c.wantsVbus p = true) ∧
    (∃ c : Chip, ∃ kind : Fin 3, ∃ p, (c.boot.stagger.find? fun y => y.run == kind.val) = some (.ds p) ∧ c.enables (.ds p) ∧
      c.boot.rampNow = none ∧ .ds p ∉ c.boot.rampWait) ∧
    (∃ c : Chip, ∃ kind : Fin 3, ∃ o, (c.boot.stagger.find? fun y => y.run == kind.val) = some (.dp o) ∧ c.enables (.dp o) ∧
      c.boot.rampNow = some (.ds 0) ∧ .dp o ∉ c.boot.rampWait) ∧
    (∃ c : Chip, c.on STAK_STATUS.TRAINED = true ∧ c.on STAK_STATUS.FILLED = false) ∧
    (∃ c : Chip, ∃ v, bit v 0 = true ∧ c.boot.warm = none ∧ c.boot.warmRun = false) ∧
    (∃ c : Chip, c.boot.warm = some 0 ∧ c.mayReset = true) :=
  ⟨⟨Chip.reset, by decide⟩, ⟨{ up with boot := { Boot.init with step := 11 } }, by decide⟩,
    ⟨({ up with boot := { Boot.init with step := 12, rampNow := some (.ds 5) }, budget := { granted := [itPort 5], hold := false } }).modPort 5
      fun x => { x with asked := true }, 5, by decide⟩,
    ⟨({ up with boot := { Boot.init with step := 12, stagger := [.ds 5, .ds 0] }, budget := { granted := [itPort 5], hold := false } }).modPort 5
      fun x => { x with asked := true }, 0, 5, rfl, by unfold Chip.enables; decide⟩,
    ⟨put [(DPTX_CTRL.PWR_EN 1, 1)] { up with boot := { Boot.init with step := 12, stagger := [.ds 0, .dp 1], rampNow := some (.ds 0) } }, 1, 1, rfl,
      by unfold Chip.enables; decide⟩,
    ⟨put [(STAK_STATUS.TRAINED, 1)], by decide⟩, ⟨up, 1, by decide⟩,
    ⟨{ up with boot := { Boot.init with warm := some 0 } }, by decide⟩⟩

theorem test_pagesAndRegisters_met :
    (∃ c : Chip, ∃ p : Fin 64, pagePresent c.part p = true ∧ fixedPage p = false ∧ c.on (PAGE_CTRL.EN p) = true ∧ p.val ≠ 1) ∧
    (∃ c : Chip, ∃ p : Fin 64, pagePresent c.part p = true ∧ fixedPage p = false ∧ p.val ∈ plainPages ∧
      c.folio.deferredSrst = false ∧ c.on (PAGE_CTRL.EN p) = false) ∧
    (∃ c : Chip, c.pathOpen .svcf = true ∧ pagePresent c.part 0x3D = true ∧ pagePresent c.part 0x3E = false ∧
      hiOf (loAddr (.cw .ul 0)) ≠ none ∧ pagePresent c.part (pageOf (loAddr (.cw .ul 0))) = true) ∧
    (∃ c : Chip, c.pathOpen .bridge = false) :=
  ⟨⟨up, 0x2A, by decide⟩, ⟨put [(PAGE_CTRL.EN 0x3A, 0)], 0x3A, by decide⟩, ⟨up, by decide⟩, ⟨put [(SAFE_STATUS.ACTIVE, 1)], by decide⟩⟩

theorem test_folioCommands_met :
    (∃ c : Chip, (c.maint.h0 = none ∧ c.maint.h1 = none ∧ c.sstate = 0 ∧ c.ramping = false ∧ c.safe = false) ∧ c.stkBad = [] ∧
      c.pageLocked 1 = false ∧ c.on FOLIO_CTRL.WRITE = false ∧ c.on FOLIO_CTRL.VERIFY = false) ∧
    (∃ c : Chip, quietMaint c ∧ c.saveDue .cs = true) ∧
    (∃ c : Chip, ∃ j, c.folio.job = some j ∧ j.verify = false ∧ j.writer ≠ 2) ∧
    (∃ c : Chip, ∃ j slots, c.folio.job = some j ∧ j.verify = false ∧ j.writer = 2 ∧ c.muni.after = some slots ∧ c.muni.queue = [] ∧
      c.muni.invalidated = none ∧ c.boot.warm = none ∧ c.folio.deferredSrst = false) ∧
    (∃ c : Chip, ∃ j, c.folio.job = some j ∧ j.verify = true ∧ imgValid (c.copyOf j.target) = false) ∧
    (∃ c : Chip, ∃ id, quietMaint c ∧ c.cableId .ul = some id ∧ c.saveDue .ul = true ∧ c.recordFor .ul id = none) :=
  ⟨⟨up, by decide⟩, ⟨put [(LINK_STATUS.STATE 1, 2)] { up with timeNs := tapStable }, by unfold quietMaint; decide⟩,
    ⟨{ up with folio := { Folio.init with job := some ⟨1, 0, [], [], false, false, false⟩ } }, _, rfl, by decide⟩,
    ⟨{ up with
        folio := { Folio.init with job := some ⟨1, 2, [], [], false, false, false⟩ }
        muni := { Muni.init with after := some [(9, { KeySlot.free 9 with gen := 3 })], dst := 9 } }, _, _, rfl, by decide, by decide, rfl, by decide⟩,
    ⟨{ up with folio := { Folio.init with job := some ⟨1, 0, [], [], false, false, true⟩ } }, _, rfl, by decide⟩,
    ⟨put [(PD_STATUS.CBL_EMARK 0, 1), (LINK_STATUS.STATE 0, 2), (⟨PD_CBL 0 0, 0, 32⟩, 7)] { up with timeNs := tapStable }, _,
      by unfold quietMaint; decide, rfl, by decide⟩⟩

/-- The native mode on UL with the link up, and flow 5 active for its cells. -/
def linkedUp : List (Fld × Nat) := [(PD_STATUS.MODE 0, 2), (LINK_STATUS.STATE 0, 2), (FLOW_STATE.STATE 5, 1), (FLOW_CFG.CLASS 5, 3)]

theorem test_epochAndAlive_met :
    (∃ c : Chip, 2 ≤ c.boot.step ∧ c.sstate ≠ 3) ∧
    (∃ c : Chip, (2 ≤ c.boot.step ∧ c.sstate ≠ 3 ∧ c.coreUp = true ∧ c.sstate ≤ 1 ∧ c.readyUp .ul = false ∧ c.readyUp .cs = false) ∧
      c.flow2Part = true ∧ c.native .ul = true ∧ ((c.headList.filter (c.fld SURF_CTRL.BEAM_EN).testBit).map (2 ^ ·)).sum ≠ 0 ∧
      (c.epoch + 1) % 2 ^ 48 % (c.fld SURF_CTRL.BEAM_INT + 1) = 0 ∧ c.safe = false ∧ c.sstate = 0 ∧ c.pageOn 0x1D = true ∧
      c.noRouter = false ∧ c.router.phase = 0) ∧
    (∃ c : Chip, (2 ≤ c.boot.step ∧ c.sstate ≠ 3 ∧ c.coreUp = true ∧ c.sstate ≤ 1 ∧ c.readyUp .ul = false ∧ c.readyUp .cs = false) ∧
      c.schedules .ul = true ∧ c.linkUp .ul = true ∧ c.fld ROUT_STATUS.STATE ≠ 1 ∧ (c.link .ul).turn = none ∧
      (∀ l ∈ pairs .ul, (c.lane l).out = .in_) ∧ c.flowState 5 = 1 ∧ c.crosses .ul 5 = true ∧ c.ownerLink 5 = .ul ∧ c.flowDir .ul 0 5 = 0 ∧
      lookup (c.sched .ul).nextIn 5 = 7) ∧
    (∃ c : Chip, ∃ t, (2 ≤ c.boot.step ∧ c.sstate ≠ 3 ∧ c.coreUp = true ∧ c.sstate ≤ 1 ∧ c.readyUp .ul = false ∧ c.readyUp .cs = false) ∧
      c.schedules .ul = true ∧ (c.link .ul).turn = some t ∧ t.epoch ≠ 0 ∧ t.lanes ≠ [] ∧
      (∀ l ∈ t.lanes, l ∈ pairs .ul ∧ (c.lane l).ready = true ∧ (c.lane l).out = .in_)) ∧
    (∃ c : Chip, (c.ev.aliveOn = true ∧ c.aliveHeld = false ∧ c.sstate ≠ 3 ∧ c.epoch % 128 = 0 ∧ c.tokenOff = false ∧
      c.boot.svcVref = true) ∧ c.ev.tokens = 0 ∧ c.coreUp = true) ∧
    (∃ c : Chip, (c.ev.aliveOn = true ∧ c.aliveHeld = false ∧ c.sstate ≠ 3 ∧ c.epoch % 128 = 0 ∧ c.tokenOff = false ∧
      c.boot.svcVref = true) ∧ c.ev.tokens ≠ 0 ∧ c.ev.tokenFree = false) ∧
    (∃ c : Chip, c.sstate = 3 ∧ c.aliveHeld = false ∧ c.boot.svcVref = true) :=
  ⟨⟨{ up with boot := { Boot.init with step := 2 } }, by decide⟩,
    ⟨put (linkedUp ++ [(EVT_CTRL.FLOW2_EN, 1)]) { up with ev := { EvSt.init with
        targets := [⟨8, 1, none, none⟩] } }, by decide⟩,
    ⟨(put linkedUp).modSched .ul fun x => { x with nextIn := [(5, 7)], nextOut := [(5, 6)] }, by decide⟩,
    ⟨((put linkedUp).modLink .ul fun x => { x with turn := some ⟨.a31, [2], true, true, true, 1, true, true, 1⟩ }).modLane 2
      fun x => { x with ready := true }, _, by decide, by decide, rfl, by decide⟩,
    ⟨{ up with ev := { EvSt.init with aliveOn := true } }, by decide⟩,
    ⟨{ up with ev := { EvSt.init with aliveOn := true, tokens := 1, tokenFree := false } }, by decide⟩,
    ⟨put [(PS_STATUS.STATE, 3)], by decide⟩⟩

theorem test_events_met :
    (∃ c : Chip, ∃ f fs, c.firings = f :: fs ∧ (evSource f.src).cls ≠ 0 ∧ c.recovering = false ∧ c.react f.src = 0) ∧
    (∃ c : Chip, ∃ f fs, c.firings = f :: fs ∧ (evSource f.src).cls ≠ 0 ∧ c.recovering = false ∧ c.react f.src = 1 ∧
      c.ev.targets = [] ∧ c.on LEDG_STATUS.FROZEN = false) ∧
    (∃ c : Chip, ∃ m ms, c.ev.closed = m :: ms ∧ m.usb = false ∧ c.usbPart = true ∧ c.svcfOpen = true ∧ c.noRouter = false) ∧
    (∃ c : Chip, ∃ m ms, c.ev.closed = m :: ms ∧ m.usb = false ∧ c.usbPart = true ∧ c.svcfOpen = true ∧ c.noRouter = true) ∧
    (∃ c : Chip, ∃ b, c.ev.beam = some b ∧ c.native .ul = true ∧ c.flow2Ready 1 = true ∧ c.on (FLOW_CFG.ENC 2) = false) :=
  let configured : List (Fld × Nat) := [(SVCF_STATUS.CONFIGURED, 1), (HUB_STATUS.UP, 2)]
  ⟨⟨put [(EVT_SRC.REACT 8, 0)] { up with firings := [⟨8, 1, false⟩] }, _, _, rfl, by decide⟩,
    ⟨put [(EVT_SRC.REACT 8, 1)] { up with firings := [⟨8, 1, false⟩] }, _, _, rfl, by decide⟩,
    ⟨put configured { up with ev := { EvSt.init with closed := [⟨0, [], false, false⟩] } }, _, _, rfl, by decide⟩,
    ⟨put ((ROUT_STATUS.STATE, 1) :: configured) { up with ev := { EvSt.init with closed := [⟨0, [], false, false⟩] } }, _, _, rfl, by decide⟩,
    ⟨(put [(PD_STATUS.MODE 0, 2), (LINK_STATUS.STATE 0, 2)] { up with ev := { EvSt.init with beam := some [] } }).modLink .ul
      fun x => { x with credits := ⟨0, 0, 0, 1⟩ }, _, rfl, by decide⟩⟩

theorem test_eventRegisters_met :
    (∃ c : Chip, pagePresent c.part 0x3D = true ∧ (evSource 255).cls = 0 ∧ (evSource 8).cls ≠ 0 ∧ c.pageLocked 4 = false) ∧
    (∃ c : Chip, ∃ v, c.on LEDG_STATUS.FROZEN = true ∧
      LEDG_REL.SEQ.get v = c.fld ⟨LEDGER (c.fld LEDG_STATUS.FREEZE_IDX) 3, 16, 8⟩) ∧
    (∃ c : Chip, c.pageOn 0x3D = true ∧ c.armed = true) ∧
    (∃ c : Chip, (c.boot.rampNow = none ∧ c.seq.ramping = false ∧ c.pageOn (evSource 8).page = true) ∧ c.domainOn 1 = true ∧
      2 ≤ c.boot.step ∧ c.pageOn (evSource 9).page = true) :=
  ⟨⟨up, by decide⟩, ⟨put [(LEDG_STATUS.FROZEN, 1)], 0, by decide⟩, ⟨put [(STRAP_STATUS.TEST_EN, 1)], by decide⟩, ⟨up, by decide⟩⟩

theorem test_safeState_met :
    (∃ c : Chip, c.safe = false ∧ c.recovering = false ∧ c.react 13 = 5 ∧ c.armed = true) ∧
    (∃ c : Chip, c.safe = true ∧ c.fld SAFE_CTRL.AUTO_WARM ≠ 0 ∧ c.fld SAFE_STATUS.AUTO_USED < 3 ∧ c.boot.warm = none ∧
      c.boot.warmRun = false) :=
  ⟨⟨put [(STRAP_STATUS.TEST_EN, 1)], by decide⟩,
    ⟨put [(SAFE_STATUS.ACTIVE, 1), (SAFE_CTRL.AUTO_WARM, 1), (SAFE_STATUS.AUTO_USED, 2)], by decide⟩⟩

theorem test_laneBlocksAndEyeScans_met :
    (∃ c : Chip, (c.fld (LANE_STATUS.DIR 0) = 0 ∧ c.fld (LANE_STATUS.ALIGN 0) = 0 ∧ c.effLoop 0 = 0 ∧ c.adapting 0 = false) ∧
      c.fld (LANE_STATUS.RATE 0) = 1 ∧ (c.lane 0).carry = [] ∧ findComma false 1 0 (List.replicate 16 0) = none ∧
      findComma false 1 0 (commaLevels false) = some 0 ∧ (commaLevels false).length < 0 + 2672) ∧
    (∃ c : Chip, c.laneLocked 0 = true ∧ c.turning 0 = false ∧ c.inService 0 = false) ∧
    (∃ c : Chip, (c.lane 0).impaired = true ∧ c.inService 0 = true ∧ (c.lane 0).out = .in_ ∧
      ((c.group (lnkOf 0) (c.fld (LANE_STATUS.DIR 0))).any fun m => m != 0 && (c.lane m).out == .in_) = true) ∧
    (∃ c : Chip, c.sends 0 = true ∧ c.effLoop 0 = 0 ∧ (c.link (lnkOf 0)).sleepGo = none) ∧
    (∃ c : Chip, ∃ v, pagePresent c.part 0x17 = true ∧ quietMaint c ∧ (c.lane 7).eye = none ∧ bit v 31 = true ∧
      c.fld (LANE_STATUS.DIR 7) = 0 ∧ c.laneLocked 7 = true ∧ (EYE_CTRL.EYE 7).get v = 1) ∧
    (∃ c : Chip, ∃ e, (c.lane 0).eye = some e) :=
  ⟨⟨put [(LANE_STATUS.DIR 0, 0), (LANE_STATUS.RATE 0, 1)], by decide⟩,
    ⟨put [(LANE_STATUS.ALIGN 0, 2)], by decide⟩,
    ⟨(put [(LANE_STATUS.SVC 0, 1), (LANE_STATUS.SVC 1, 1), (LANE_STATUS.DIR 0, 0), (LANE_STATUS.DIR 1, 0)]).modLane 0 fun x =>
      { x with badAt := [1, 2, 3, 4, 5], blocks := 5 }, by decide⟩,
    ⟨(put [(LANE_STATUS.DIR 0, 1), (LINK_STATUS.STATE 0, 2)]).modLane 0 fun x => { x with idle := false }, by decide⟩,
    ⟨put [(LANE_STATUS.ALIGN 7, 2), (LANE_STATUS.DIR 7, 0)], 0x81000000, by unfold quietMaint; decide⟩,
    ⟨up.modLane 0 fun x => { x with eye := some ⟨0, 0, false, 1⟩ }, _, rfl⟩⟩

theorem test_laneModes_met :
    (∃ c : Chip, pagePresent c.part 0x10 = true ∧ quietMaint c ∧ c.fld (LANE_CTRL.LOOP 0) = 0 ∧ (LANE_CTRL.LOOP 0).get 0x40 = 4 ∧
      (c.lane 0).retraining = false ∧ c.inService 0 = false) ∧
    (∃ c : Chip, (c.lane 0).retraining = true) :=
  ⟨⟨up, by unfold quietMaint; decide⟩, ⟨up.modLane 0 fun x => { x with retraining := true }, by decide⟩⟩

theorem test_acknowledgementAndRecovery_met :
    (∃ c : Chip, ∃ m : AckMsg, c.linkUp .ul = true ∧ (c.link .ul).again = [] ∧
      (∀ e ∈ (c.link .ul).replay, c.entryAck m e = some false)) ∧
    (∃ c : Chip, c.linkUp .ul = true ∧ (c.link .ul).replay ≠ [] ∧ (c.link .ul).ackReqs < 3) ∧
    (∃ c : Chip, c.linkUp .cs = false) ∧
    (∃ c : Chip, c.linkUp .ul = true ∧ (c.link .ul).replay ≠ [] ∧ 3 ≤ (c.link .ul).ackReqs ∧ (c.link .ul).turn = none) :=
  ⟨⟨(put [(LINK_STATUS.STATE 0, 2)]).modLink .ul fun x => { x with replay := [⟨0, 1, []⟩] },
      { bcnt := 1, nextSeq := 0, maps := [0, 0, 0, 0] }, by decide⟩,
    ⟨(put [(LINK_STATUS.STATE 0, 2)]).modLink .ul fun x => { x with replay := [⟨0, 1, []⟩], ackReqs := 2 }, by decide⟩,
    ⟨up, by decide⟩,
    ⟨(put [(LINK_STATUS.STATE 0, 2)]).modLink .ul fun x => { x with replay := [⟨0, 1, []⟩], ackReqs := 3 }, by decide⟩⟩

theorem test_linkRecoveryAndRetrain_met :
    (∃ c : Chip, c.linkState .cs = 3) ∧
    (∃ c : Chip, c.linkUp .ul = true ∧ (c.link .ul).turn = none ∧ c.inService 0 = true ∧ c.sends 0 = true) ∧
    (∃ c : Chip, c.linkPresent .ul = true ∧ c.mayTrain .ul = true ∧ c.linkUp .ul = true) :=
  ⟨⟨put [(LINK_STATUS.STATE 1, 3)], by decide⟩,
    ⟨(put [(LINK_STATUS.STATE 0, 2), (LANE_STATUS.SVC 0, 1), (LANE_STATUS.DIR 0, 1)]).modLane 0 fun x => { x with idle := false }, by decide⟩,
    ⟨put [(LINK_STATUS.STATE 0, 2), (PD_STATUS.MODE 0, 2)], by decide⟩⟩

theorem test_linkTraining_met :
    (∃ c : Chip, c.mayTrain .cs = true ∧ c.linkState .cs = 0) ∧
    (∃ c : Chip, ∃ m : AdvMsg, c.linkState .ul = 1 ∧ (c.link .ul).step = 3 ∧ m.chosen.toNat ≠ 0 ∧ m.chosen.toNat = (c.link .ul).chosenTx) ∧
    (∃ c : Chip, c.linkState .ul = 1 ∧ (c.link .ul).step = 4 ∧ c.copp.slices = []) ∧
    (∃ c : Chip, ∃ qs : List EqLane, ∃ l : Fin 4, ∃ q, c.linkState .ul = 1 ∧ qs[l.val]? = some q ∧ q.mode.toNat ≠ 0 ∧
      c.fld (LANE_STATUS.DIR l) = 1) ∧
    (∃ c : Chip, c.linkState .ul = 1 ∧ (c.link .ul).step = 7 ∧ ∀ l ∈ pairs .ul, c.fld (LANE_STATUS.DIR l) = resetDir l) :=
  ⟨⟨put [(PD_STATUS.MODE 1, 2)], by decide⟩,
    ⟨(put [(LINK_STATUS.STATE 0, 1)]).modLink .ul fun x => { x with step := 3, chosenTx := 0x14 },
      { vers := 0, rates := 0, cap := 0, lanes := 0, flags := 0, loopLanes := 0, chosen := 0x14, nextSeq := 0, part := 0 }, by decide⟩,
    ⟨(put [(LINK_STATUS.STATE 0, 1)]).modLink .ul fun x => { x with step := 4 }, by decide⟩,
    ⟨put [(LINK_STATUS.STATE 0, 1), (LANE_STATUS.DIR 3, 1)], List.replicate 4 { mode := 1, req := [], resp := 0, pre := none }, 3, _, by decide, rfl,
      by decide, by decide⟩,
    ⟨(put [(LINK_STATUS.STATE 0, 1)]).modLink .ul fun x => { x with step := 7 }, by decide⟩⟩

theorem test_lanesLeaveAndJoin_met :
    (∃ c : Chip, c.linkUp .ul = true ∧ c.inService (c.pairOf .ul 0) = true ∧ (c.lane (c.pairOf .ul 0)).out = .in_ ∧
      ((c.group (lnkOf (c.pairOf .ul 0)) (c.fld (LANE_STATUS.DIR (c.pairOf .ul 0)))).any fun m =>
        m != c.pairOf .ul 0 && (c.lane m).out == .in_) = true) ∧
    (∃ c : Chip, (c.lane (c.pairOf .cs 3)).out = .laneInSent ∧ (c.lane (c.pairOf .cs 3)).partnerIn = false) :=
  ⟨⟨put [(LINK_STATUS.STATE 0, 2), (LANE_STATUS.SVC 0, 1), (LANE_STATUS.SVC 1, 1), (LANE_STATUS.DIR 0, 0), (LANE_STATUS.DIR 1, 0)], by decide⟩,
    ⟨up.modLane (up.pairOf .cs 3) fun x => { x with out := .laneInSent }, by decide⟩⟩

theorem test_holdAndSleep_met :
    (∃ c : Chip, c.on (LINK_STATUS.HOLD_RX 0) = true ∧ 4 < (c.link .ul).holdEpochs ∧ c.pageOn (evSource (evOf .ul 54 60)).page = true) ∧
    (∃ c : Chip, c.linkUp .ul = true ∧ (c.link .ul).sleepWant = none ∧ c.sleepAnswer .ul 2 = 0 ∧ c.sleepAnswer .ul 3 ≠ 0) ∧
    (∃ c : Chip, (c.link .ul).sleepGo = some 2 ∧ c.effLoop 3 = 0 ∧ (c.link .ul).wakeDue = false ∧ ∀ m ∈ (c.link .ul).lmcs, m.code ≠ 0x41) ∧
    (∃ c : Chip, (c.link .ul).sleepWant = some 2 ∧ c.linkUp .ul = true ∧ c.seq.target = 0 ∧ (c.link .ul).wakeDue = false) ∧
    (∃ c : Chip, c.linkAsleep .ul = true ∧ (c.link .ul).wakeSent = false ∧ c.sstate ≤ 1 ∧ (c.link .ul).sleepGo = none ∧
      (c.link .ul).sleepWant = none) ∧
    (∃ c : Chip, c.linkAsleep .ul = true ∧ (c.link .ul).wakeSent = true) :=
  ⟨⟨(put [(LINK_STATUS.HOLD_RX 0, 1)]).modLink .ul fun x => { x with holdEpochs := 5 }, by decide⟩,
    ⟨put [(LINK_STATUS.STATE 0, 2), (LINK_STATUS.VERSION 0, 2)], by decide⟩,
    ⟨(put [(LINK_STATUS.STATE 0, 2)]).modLink .ul fun x => { x with sleepGo := some 2 }, by decide⟩,
    ⟨(put [(LINK_STATUS.STATE 0, 2)]).modLink .ul fun x => { x with sleepWant := some 2 }, by decide⟩,
    ⟨put [(LINK_STATUS.STATE 0, 5), (PS_STATUS.STATE, 1)], by decide⟩,
    ⟨(put [(LINK_STATUS.STATE 0, 4)]).modLink .ul fun x => { x with wakeSent := true }, by decide⟩⟩

set_option maxRecDepth 4000 in
theorem test_turnaround_met :
    (∃ c : Chip, c.linkState .ul ≠ 0 ∧ c.linkState .ul ≠ 7 ∧ c.schedules .ul = true) ∧
    (∃ c : Chip, c.maySwing .cs .a31 4 = true ∧ quietMaint c) ∧
    (∃ c : Chip, ∃ t, (c.link .ul).turn = some t ∧ t.decider = true ∧ t.acked = false ∧ t.pastConfirm = false) ∧
    (∃ c : Chip, ∃ t, (c.link .ul).turn = some t ∧ t.decider = false ∧ t.go = false ∧ t.pastReady = false ∧ t.epoch ≠ 0 ∧
      (∀ l ∈ t.lanes, (c.lane l).ready = true)) ∧
    (∃ c : Chip, ∃ t, (c.link .ul).turn = some t ∧ t.pastReady = false ∧ t.epoch ≠ 0 ∧ t.lanes.Nodup ∧ (∀ l ∈ t.lanes, l ∈ pairs .ul) ∧
      (∃ l ∈ t.lanes, (c.lane l).ready = false)) ∧
    (∃ c : Chip, c.turning 2 = true ∧ (c.lane 2).confirmed = true ∧ (c.lane 2).released = false ∧ c.sends 2 = true) ∧
    (∃ c : Chip, c.turning 2 = true ∧ (c.lane 2).confirmed = true ∧ (c.lane 2).released = false ∧ c.fld (LANE_STATUS.DIR 2) = 0) ∧
    (∃ c : Chip, c.turning 2 = true ∧ (c.lane 2).confirmed = true ∧ (c.lane 2).released = true ∧ (c.lane 2).idle = true ∧
      c.fld (LANE_STATUS.DIR 2) = 1) ∧
    (∃ c : Chip, c.turning 2 = true ∧ (c.lane 2).confirmed = true ∧ (c.lane 2).released = true ∧ (c.lane 2).idle = false ∧
      c.laneLocked 2 = true ∧ (c.lane 2).skew = 180) ∧
    (∃ c : Chip, c.turning 2 = true ∧ (c.lane 2).confirmed = true ∧ (c.lane 2).released = true ∧ (c.lane 2).idle = false ∧
      c.fld (LANE_STATUS.DIR 2) = 0 ∧ (c.lane 2).skew = 181) :=
  let turn (d : Bool) : Turn := ⟨.a31, [2], d, false, false, 1, false, false, 1⟩
  let upper : List (Fld × Nat) := [4, 5, 6, 7].flatMap fun l => [(LANE_STATUS.SVC l, 1), (LANE_STATUS.LINK_LANE l, l - 4), (LANE_STATUS.ALIGN l, 2),
    (LANE_STATUS.TURN_MEDIA l, 1), (LANE_STATUS.TURN_TRAINED l, 1), (LANE_STATUS.DIR l, if l < 6 then 1 else 0)]
  let at2 (l : List (Fld × Nat)) (f : LaneSt → LaneSt) : Chip :=
    ((put l).modLink .ul fun x => { x with turn := some (turn true) }).modLane 2 f
  ⟨⟨put [(LINK_STATUS.STATE 0, 2)], by decide⟩, ⟨put (upper ++ [(LINK_STATUS.STATE 1, 2), (LINK_STATUS.VERSION 1, 2)]), by unfold quietMaint; decide⟩,
    ⟨up.modLink .ul fun x => { x with turn := some (turn true) }, _, rfl, by decide⟩,
    ⟨(up.modLink .ul fun x => { x with turn := some (turn false) }).modLane 2 fun x => { x with ready := true }, _, rfl, by decide⟩,
    ⟨(up.modLink .ul fun x => { x with turn := some (turn true) }).modLane 2 fun x => { x with released := true }, _, rfl, by decide⟩,
    ⟨at2 [(LANE_STATUS.DIR 2, 1), (LINK_STATUS.STATE 0, 2)] fun x => { x with confirmed := true, idle := false }, by decide⟩,
    ⟨at2 [(LANE_STATUS.DIR 2, 0)] fun x => { x with confirmed := true }, by decide⟩,
    ⟨at2 [(LANE_STATUS.DIR 2, 1)] fun x => { x with confirmed := true, released := true, idle := true }, by decide⟩,
    ⟨at2 [(LANE_STATUS.ALIGN 2, 2)] fun x => { x with confirmed := true, released := true, idle := false, skew := 180 }, by decide⟩,
    ⟨at2 [(LANE_STATUS.DIR 2, 0)] fun x => { x with confirmed := true, released := true, idle := false, skew := 181 }, by decide⟩⟩

/-- Two lanes of UL in service each way. -/
def lanesIn : List (Fld × Nat) := (List.range 4).flatMap fun l =>
  [(LANE_STATUS.SVC l, 1), (LANE_STATUS.DIR l, l % 2), (LANE_STATUS.RATE l, 1), (LANE_STATUS.ALIGN l, 2)]

/-- FLOW_CFG with VALID 1, of a class and a weight, that ends at the bridge. -/
def cfg (cls weight : Nat) : Word := BitVec.ofNat 32 (2 ^ 31 + cls * 2 ^ 28 + 4 * 2 ^ (FLOW_CFG.ENDPOINT 3).lo + weight * 2 ^ 8)

set_option maxRecDepth 8000 in
theorem test_grantsAndFlows_met :
    (∃ c : Chip, c.linkUp .cs = true ∧ c.schedules .cs = false ∧ (c.link .cs).turn = none ∧ (c.link .cs).grant.parts = [] ∧ (c.link .cs).grant.late 0 = false ∧
      (∀ l ∈ pairs .cs, (c.lane l).out = .in_)) ∧
    (∃ c : Chip, ∃ m : DemandPart, c.linkUp .ul = true ∧ c.schedules .ul = true ∧ (c.sched .ul).collect = [] ∧ m.parts = 1 ∧ m.index = 0) ∧
    (∃ c : Chip, c.pageLocked 0xB = false ∧ c.pageLocked 0xE = false ∧ c.fld ROUT_STATUS.STATE ≠ 1 ∧ c.flowState 255 = 1 ∧
      c.flowState 3 = 3) ∧
    (∃ c : Chip, ∃ v : Word, c.pageLocked 0xB = false ∧ c.fld ROUT_STATUS.STATE ≠ 1 ∧ v.getLsbD 31 = true ∧ c.draining 3 = true) ∧
    (∃ c : Chip, ∃ v : Word, c.pageLocked 0xB = false ∧ c.fld ROUT_STATUS.STATE ≠ 1 ∧ v.getLsbD 31 = true ∧ c.draining 3 = false ∧
      (FLOW_CFG.CLASS 3).get v = 1 ∧ (FLOW_CFG.WEIGHT 3).get v = 0) ∧
    (∃ c : Chip, ∃ v : Word, c.pageLocked 0xB = false ∧ c.fld ROUT_STATUS.STATE ≠ 1 ∧ v.getLsbD 31 = true ∧ c.draining 3 = false ∧
      c.badCommit 3 v (c.reg (FLOW_GUAR 3)) (c.reg (FLOW_CEIL 3)) = false ∧ c.reg (FLOW_GUAR 3) = 0) ∧
    (∃ c : Chip, ∃ v : Word, c.pageLocked 0xB = false ∧ c.fld ROUT_STATUS.STATE ≠ 1 ∧ v.getLsbD 31 = true ∧ c.draining 3 = false ∧
      c.badCommit 3 v (c.reg (FLOW_GUAR 3)) (c.reg (FLOW_CEIL 3)) = false ∧ 0 < halfIn (c.reg (FLOW_GUAR 3)) ∧ c.schedules .ul = true ∧
      c.on (c.shortfallFlag .ul 0) = false ∧ c.on (c.shortfallFlag .ul 1) = false ∧ c.schedules .cs = false ∧
      admissionLimit (c.capAdmit .ul 0) < (c.withEntry 3 v (c.reg (FLOW_GUAR 3)) (c.reg (FLOW_CEIL 3)) (c.reg (FLOW_DECL 3))
        (c.newFlowState 3)).guarSum .ul 0) ∧
    (∃ c : Chip, ∃ v : Word, c.pageLocked 0xB = false ∧ c.fld ROUT_STATUS.STATE ≠ 1 ∧ v.getLsbD 31 = true ∧ c.draining 3 = false ∧
      c.badCommit 3 v (c.reg (FLOW_GUAR 3)) (c.reg (FLOW_CEIL 3)) = false ∧ 0 < halfIn (c.reg (FLOW_GUAR 3)) ∧ c.schedules .ul = true ∧
      c.on (c.shortfallFlag .ul 0) = false ∧ c.on (c.shortfallFlag .ul 1) = false ∧ c.schedules .cs = false ∧
      (∀ dir : Fin 2, (c.withEntry 3 v (c.reg (FLOW_GUAR 3)) (c.reg (FLOW_CEIL 3)) (c.reg (FLOW_DECL 3)) (c.newFlowState 3)).guarSum .ul dir ≤
        admissionLimit (c.capAdmit .ul dir))) ∧
    (∃ c : Chip, ∃ n, c.nextSpare kFlow 0 = some n) :=
  ⟨⟨put [(LINK_STATUS.STATE 1, 2)], by decide⟩, ⟨put [(LINK_STATUS.STATE 0, 2)], ⟨0, 1, 0, []⟩, by decide⟩,
    ⟨put [(FLOW_STATE.STATE 255, 1), (FLOW_STATE.STATE 3, 3)], by decide⟩, ⟨put [(FLOW_STATE.STATE 3, 2)], 0x80000000, by decide⟩,
    ⟨up, cfg 1 0, by decide⟩, ⟨up, cfg 2 0, by decide⟩, ⟨put [(⟨FLOW_GUAR 3, 0, 32⟩, 0x0FFF0FFF)], cfg 2 0, by decide⟩,
    ⟨(put ((⟨FLOW_GUAR 3, 0, 32⟩, 0x00010001) :: linkedUp ++ lanesIn)).modLink .ul fun x => { x with upSinceMode := true }, cfg 2 0, by decide⟩,
    ⟨up, spareBase kFlow, by decide⟩⟩

/-- A read or a write of one 32-bit element at the first address of the local Stacks, by flow 1. -/
def byFlow1 (op : Byte) (data : List Byte) : List Byte := [op, 0xA0, 0, 0, 1, 0, 0, 0, 0, 0, 0, 0, 1, 0, 0, 0] ++ data

/-- A posted write of one 32-bit element through window 0. -/
def byWindow : List Byte := [2, 0x80, 0, 0, 1, 0, 0, 0, 0, 0, 0, 0, 0, 0, 0, 0, 1, 2, 3, 4, 0, 0, 0, 0]

/-- A read of 32-bit elements through window 0, at an offset. -/
def readWindow (off : Byte) (cnt : Byte) : List Byte := [1, 0x80, 0, 0, cnt, 0, 0, 0, off, 0, 0, 0, 0, 0, 0, 0]

/-- A read or a write by flow 1 of EV_ENABLE of page 0x3D. -/
def regByFlow1 (op : Byte) (data : List Byte) : List Byte := [op, 0xA0, 0, 0, 1, 0, 0, 0, 0x18, 0xD0, 3, 0, 0, 0, 0, 0] ++ data

/-- Flow 3 ends at the bridge and window 0 shows the local Stacks. -/
def windowed (l : List (Fld × Nat)) : Chip :=
  put ([(FLOW_STATE.STATE 3, 1), (FLOW_CFG.ENDPOINT 3, 4), (WIN_CTRL.EN 0, 1), (WIN_BASE.BASE 0, 2 ^ 20)] ++ l)

set_option maxRecDepth 8000 in
theorem test_bridgeRequests_met :
    (∃ (c : Chip) (q : Arrived), c.takesOn q.f = true ∧ (c.counted q).planOf q = .stkAt 0 ∧ (c.counted q).on (FLOW_CFG.ENC q.f) = false ∧
      q.op = 1 ∧ q.win = none ∧ (c.counted q).stkBadIn 0 q.span = false) ∧
    (∃ (c : Chip) (q : Arrived), c.takesOn q.f = true ∧ (c.counted q).planOf q = .stkAt 0 ∧ (c.counted q).on (FLOW_CFG.ENC q.f) = false ∧
      q.op = 2 ∧ q.typ ≠ clsP) ∧
    (∃ (c : Chip) (q : Arrived), c.takesOn q.f = true ∧ (c.counted q).planOf q = .stkAt 0 ∧ (c.counted q).on (FLOW_CFG.ENC q.f) = false ∧
      q.op = 2 ∧ q.typ = clsP) ∧
    (∃ (c : Chip) (q : Arrived) (b : PrefetchBuf), c.takesOn q.f = true ∧ (c.counted q).on (FLOW_CFG.ENC q.f) = false ∧ q.op = 1 ∧
      q.win = some 0 ∧ (c.counted q).planOf q = .stkAt 0 ∧
      (c.counted q).prefetchFor 0 (planKey ((c.counted q).targetOf q) ((c.counted q).planOf q)) q.span = some b ∧ b.bad = []) ∧
    (∃ (c : Chip) (q : Arrived), c.takesOn q.f = true ∧ (c.counted q).on (FLOW_CFG.ENC q.f) = false ∧ q.op = 1 ∧ q.win = some 0 ∧
      (c.counted q).planOf q = .stkAt 0 ∧ (c.counted q).on (WIN_CTRL.PREFETCH 0) = true ∧
      (c.counted q).prefetchFor 0 ((c.counted q).targetOf q) q.span = none ∧ (c.counted q).stkBadIn 0 q.span = false ∧
      (c.counted q).aheadSpan 0 ((c.counted q).targetOf q + q.span) 0 false ≠ 0) ∧
    (∃ (c : Chip) (q : Arrived), c.takesOn q.f = true ∧ (c.counted q).on (FLOW_CFG.ENC q.f) = false ∧ (c.counted q).planOf q = .reg 0x3D018 ∧
      q.op = 1 ∧ q.count = 1 ∧ q.win = none ∧ hiOf 0x3D018 = none ∧ c.latch q.path = none) ∧
    (∃ (c : Chip) (q : Arrived), c.takesOn q.f = true ∧ (c.counted q).on (FLOW_CFG.ENC q.f) = false ∧ (c.counted q).planOf q = .reg 0x3D018 ∧
      q.op = 2 ∧ q.count = 1 ∧ q.typ ≠ clsP ∧ pagePresent c.part (pageOf 0x3D018) = true) ∧
    (∃ (c : Chip) (q : Arrived), c.takesOn q.f = true ∧ (q.shapeOk && (c.counted q).typeOk q) = false) ∧
    (∃ (c : Chip) (q : Arrived), c.takesOn q.f = true ∧ (q.shapeOk && (c.counted q).typeOk q) = true ∧ q.win = some 0 ∧
      (c.counted q).on (WIN_CTRL.EN 0) = false) ∧
    (∃ (c : Chip) (q : Arrived), c.takesOn q.f = true ∧ (q.shapeOk && (c.counted q).typeOk q) = true ∧ q.win = some 0 ∧
      (c.counted q).on (WIN_CTRL.EN 0) = true ∧ q.offset % 2 ^ q.width ≠ 0) ∧
    (∃ (c : Chip) (q : Arrived), c.takesOn q.f = true ∧ (q.shapeOk && (c.counted q).typeOk q) = true ∧ q.win = some 0 ∧
      (c.counted q).on (WIN_CTRL.EN 0) = true ∧ q.offset % 2 ^ q.width = 0 ∧ isRegister ((c.counted q).targetOf q) = false ∧
      (c.counted q).winSize 0 ≤ q.offset) ∧
    (∃ (c : Chip) (q : Arrived), c.takesOn q.f = true ∧ (q.shapeOk && (c.counted q).typeOk q) = true ∧ q.win = some 0 ∧
      (c.counted q).on (WIN_CTRL.EN 0) = true ∧ q.offset % 2 ^ q.width = 0 ∧ isRegister ((c.counted q).targetOf q) = false ∧
      q.offset < (c.counted q).winSize 0 ∧ (c.counted q).winSize 0 < q.offset + q.span) ∧
    (∃ (c : Chip) (q : Arrived), c.takesOn q.f = true ∧ (c.counted q).planOf q = .refuse 5 ∧ q.op = 2 ∧ q.typ = clsP) :=
  ⟨⟨up, ⟨.ul, 1, clsMgmt, byFlow1 1 []⟩, by decide⟩, ⟨up, ⟨.ul, 1, clsMgmt, byFlow1 2 [1, 2, 3, 4, 0, 0, 0, 0]⟩, by decide⟩,
    ⟨windowed [(WIN_CTRL.CLASS 0, 1)], ⟨.ul, 3, clsP, byWindow⟩, by decide⟩,
    ⟨{ windowed [(WIN_CTRL.PREFETCH 0, 1)] with prefetch := [(0, ⟨2 ^ 32, [1, 2, 3, 4, 5, 6, 7, 8], 0, .ul, [], []⟩)] },
      ⟨.ul, 3, clsNp, readWindow 0 1⟩, ⟨2 ^ 32, [1, 2, 3, 4, 5, 6, 7, 8], 0, .ul, [], []⟩, by decide⟩,
    ⟨windowed [(WIN_CTRL.PREFETCH 0, 1)], ⟨.ul, 3, clsNp, readWindow 0 1⟩, by decide⟩,
    ⟨up, ⟨.ul, 1, clsMgmt, regByFlow1 1 []⟩, by decide⟩, ⟨up, ⟨.ul, 1, clsMgmt, regByFlow1 2 [1, 2, 3, 4, 0, 0, 0, 0]⟩, by decide⟩,
    ⟨up, ⟨.ul, 1, clsP, byFlow1 1 []⟩, by decide⟩, ⟨windowed [(WIN_CTRL.EN 0, 0)], ⟨.ul, 3, clsNp, readWindow 0 1⟩, by decide⟩,
    ⟨windowed [], ⟨.ul, 3, clsNp, readWindow 1 1⟩, by decide⟩,
    ⟨windowed [], ⟨.ul, 3, clsNp, [1, 0x80, 0, 0, 1, 0, 0, 0, 0, 0x10, 0, 0, 0, 0, 0, 0]⟩, by decide⟩,
    ⟨windowed [], ⟨.ul, 3, clsNp, [1, 0x80, 0, 0, 2, 0, 0, 0, 0xFC, 0x0F, 0, 0, 0, 0, 0, 0]⟩, by decide⟩,
    ⟨up, ⟨.ul, 1, clsP, byFlow1 2 []⟩, by decide⟩⟩

/-- A request of flow 3 that waits for its completion under tag 0. -/
def asking (tag : Option Nat) : FwdReq :=
  { asker := .sender .ul 3 2 (List.replicate 16 0) 0, win := none, write := false, lnk := .cs, pflow := 1, pos := 1, width := 2, count := 1,
    addr := 0, here := 0x1100000, data := [], tag := tag }

theorem test_bridgeInitiator_met :
    (∃ c : Chip, ∃ t r, c.freeTag = some t ∧ (c.fwd.reqs.find? fun r => r.tag.isNone && c.maySend r) = some r) ∧
    (∃ c : Chip, c.awaited .cs 1 0 [] false = none) ∧
    (∃ c : Chip, ∃ r, c.awaited .cs 1 (cplClass 1) [0x81, 0, 0, 0] false = some r ∧ r.asker = .sender .ul 3 2 (List.replicate 16 0) 0 ∧
      r.win = none ∧ c.on (FLOW_CFG.ENC 3) = false) ∧
    (∃ c : Chip, ∃ r, (c.fwd.reqs.find? fun r => r.tag == some 0 && r.asker != .poll) = some r ∧
      r.asker = .sender .ul 3 2 (List.replicate 16 0) 0 ∧ r.win = none ∧ c.on (FLOW_CFG.ENC 3) = false) ∧
    (∃ c : Chip, 255 ∈ c.fwd.stale) :=
  ⟨⟨(put [(LINK_STATUS.STATE 1, 2)] { up with fwd := ⟨[asking none], [], false, false, false, 0⟩ }).modLink .cs fun x =>
      { x with credits := ⟨9, 9, 9, 9⟩ }, 0, asking none, by decide⟩,
    ⟨up, by decide⟩, ⟨{ up with fwd := ⟨[asking (some 0)], [], false, false, false, 0⟩ }, asking (some 0), by decide⟩,
    ⟨{ up with fwd := ⟨[asking (some 0)], [], false, false, false, 0⟩ }, asking (some 0), by decide⟩, ⟨{ up with fwd := ⟨[], [255], false, false, false, 0⟩ }, by decide⟩⟩

theorem test_bridgeAndCascade_met :
    (∃ c : Chip, ∃ v, c.on (WIN_CTRL.EN 15) = false ∧ bit v 31 = true ∧ c.pageLocked 0x1B = false ∧
      (c.writeMasked (WIN_CTRL 15) v).badWindow 15 = false) ∧
    (∃ c : Chip, ∃ v, c.on (WIN_CTRL.EN 0) = false ∧ bit v 31 = true ∧ c.pageLocked 0x1B = false ∧
      (c.writeMasked (WIN_CTRL 0) v).badWindow 0 = true) ∧
    (∃ c : Chip, c.on (WIN_CTRL.EN 0) = true ∧ c.fld BRDG_STATUS.LOG_COUNT ≠ 0) ∧
    (∃ c : Chip, c.part = .mh4160 ∧ c.paired = false) ∧ (∃ c : Chip, c.part = .mh4160 ∧ c.paired = true) ∧
    (∃ c : Chip, c.part = .mh4160 ∧ c.on CASC_RLY_CTRL.GO = false ∧ c.aLink = some .cs ∧ c.upNow .cs = true ∧
      c.fld CASC_RLY_ADDR.ADDR % 4 = 0 ∧ c.pageOn 0x1C = true ∧ c.on CASC_CTRL.POLL_EN = true) ∧
    (∃ c : Chip, ∃ r, (c.fwd.reqs.find? fun r => r.asker == .poll && r.tag.isSome) = some r) ∧
    (∃ c : Chip, c.aLink = some .cs ∧ c.missLim ≤ c.fwd.missed ∧ c.linkState .cs = 2) ∧
    (∃ c : Chip, c.aLink = some .cs ∧ c.fwd.missed = 0 ∧ c.linkState .cs = 7) :=
  ⟨⟨up, 0x80000000, by decide⟩, ⟨up, 0xB0000000, by decide⟩,
    ⟨put [(WIN_CTRL.EN 0, 1), (BRDG_STATUS.LOG_COUNT, 1)], by decide⟩, ⟨up, by decide⟩, ⟨put [(STRAP_STATUS.CASC_ROLE, 1)], by decide⟩,
    ⟨put [(LINK_STATUS.STATE 1, 2)], by decide⟩, ⟨{ up with fwd := ⟨[{ asking (some 0) with asker := .poll }], [], false, false, false, 0⟩ }, _, rfl⟩,
    ⟨put [(LINK_STATUS.STATE 1, 2)] { up with fwd := ⟨[], [], false, false, false, 3⟩ }, by decide⟩, ⟨put [(LINK_STATUS.STATE 1, 7)], by decide⟩⟩

/-- A valid RING surface 0 of 64 lines of 320 pixels, 4 bytes each. -/
def ringSurface : List (Fld × Nat) :=
  [(SD_CTRL.VALID 0, 1), (SD_CTRL.LAYOUT 0, layRing), (SD_CTRL.FORMAT 0, 1), (SD_SIZE.WIDTH 0, 320), (SD_SIZE.HEIGHT 0, 64), (SD_AUX.AUX 0, 20)]

/-- A valid ESPALIER surface 0 of one tile. -/
def tiledSurface : List (Fld × Nat) :=
  [(SD_CTRL.VALID 0, 1), (SD_CTRL.LAYOUT 0, layEspalier), (SD_CTRL.FORMAT 0, 1), (SD_SIZE.WIDTH 0, 64), (SD_SIZE.HEIGHT 0, 16), (SD_AUX.AUX 0, 9)]

/-- A FILL of the first tile of surface 0. -/
def fillOne : List MsgCell := one clsP [0x11, 2, 0, 0, 0, 0, 0, 0, 1, 0, 1, 0]

set_option maxRecDepth 8000 in
theorem test_surfacesAndTiles_met :
    (∃ c : Chip, ∃ v, c.on (SD_CTRL.VALID 0) = false ∧ bit v 31 = true ∧ c.pageLocked 0x1E = false ∧
      (c.writeMasked (SD_CTRL 0) v).badSurface 0 = false) ∧
    (∃ c : Chip, ∃ v, c.on (SD_CTRL.VALID 63) = false ∧ bit v 31 = true ∧ c.pageLocked 0x1E = false ∧
      (c.writeMasked (SD_CTRL 63) v).badSurface 63 = true) ∧
    (∃ c : Chip, c.on (SD_CTRL.VALID 0) = true) ∧
    (∃ c : Chip, c.fld (FLOW_CFG.ENDPOINT 3) = 5 ∧ c.pageOn 0x1D = true ∧ c.ingressClear = true ∧ c.bufferFor 3 = true ∧
      c.tileReason 3 fillOne = 0) ∧
    (∃ c : Chip, c.fld (FLOW_CFG.ENDPOINT 3) = 5 ∧ c.pageOn 0x1D = true ∧ c.ingressClear = true ∧ c.bufferFor 3 = true ∧
      c.tileReason 3 fillOne ≠ 0) ∧
    (∃ c : Chip, ∃ rest, c.surf.wait = (3, fillOne) :: rest ∧ c.bufferFor 3 = true ∧ c.tileReason 3 fillOne = 0) :=
  let flow : List (Fld × Nat) := [(FLOW_CFG.ENDPOINT 3, 5), (FLOW_CFG.CLASS 3, 3)]
  ⟨⟨put (tiledSurface.drop 1), BitVec.ofNat 32 (2 ^ 31 + layEspalier * 2 ^ 29 + 2 ^ 26), by decide⟩, ⟨up, 0x80000000, by decide⟩,
    ⟨put [(SD_CTRL.VALID 0, 1)], by decide⟩, ⟨put (tiledSurface ++ flow), by decide⟩, ⟨put flow, by decide⟩,
    ⟨put (tiledSurface ++ flow) { up with surf := { Surf.init with wait := [(3, fillOne)] } }, [], rfl, by decide⟩⟩

/-- An update of one tile in a buffer. -/
def oneJob : SurfJob := { flow := 3, cells := fillOne, tiles := [(0, 0)], desc := none }

theorem test_tileWrites_met :
    (∃ c : Chip, ∃ j, (c.surf.unit0 = none ∨ c.surf.unit1 = none) ∧
      (c.surf.jobs.find? fun j => j.flow == 3 && !j.tiles.isEmpty) = some j ∧ j.tiles = [(0, 0)] ∧
      (j.desc.isSome = true ∨ c.descReason j.cells = 0) ∧ c.bandFetched (tileSurf j.cells) 0 = false ∧
      (∀ w ∈ c.surf.writes, ¬(w.surf = tileSurf j.cells ∧ w.tx = 0 ∧ w.ty = 0)) ∧ c.lateFor 3 j.cells 0 = none) ∧
    (∃ c : Chip, ∃ w, c.surf.unit1 = some w ∧ w.desc.layout = layEspalier) :=
  ⟨⟨put tiledSurface { up with surf := { Surf.init with jobs := [oneJob] } }, oneJob, by decide⟩,
    ⟨{ up with surf := { Surf.init with unit1 := some ⟨3, 0, 0, 0, fillOne, ⟨layEspalier, 1, 64, 16, 0, 9⟩, true⟩ } }, _, rfl, by decide⟩⟩

theorem test_ringLines_met :
    (∃ c : Chip, ∃ m, c.pageOn 0x1D = true ∧ c.fld (FLOW_CFG.ENDPOINT 3) = 6 ∧ c.rawReason 3 m = 0) ∧
    (∃ c : Chip, ∃ m, c.pageOn 0x1D = true ∧ c.fld (FLOW_CFG.ENDPOINT 3) = 6 ∧ c.rawReason 3 m ≠ 0) ∧
    (∃ c : Chip, c.pageOn 0x1D = true ∧ c.fallback = true ∧ 3 < c.streams ∧ c.on (RX_CTRL.EN 3) = true) ∧
    (∃ c : Chip, c.on (RX_STATUS.ACTIVE 3) = true) :=
  let flow : List (Fld × Nat) := [(FLOW_CFG.ENDPOINT 3, 6), (FLOW_CFG.CLASS 3, 2)]
  ⟨⟨put (ringSurface ++ flow), [{ typ := clsP, len := 2, payload := fitBytes 120 [0x20, 0, 0, 0, 0, 0, 1, 0, 9, 9, 9, 9] }], by decide⟩,
    ⟨put flow, one clsP [0x20], by decide⟩, ⟨put [(PD_STATUS.MODE 0, 3), (RX_CTRL.EN 3, 1)], by decide⟩,
    ⟨put [(RX_STATUS.ACTIVE 3, 1)], by decide⟩⟩

/-- Head 0 scanning a raster of 320 by 200. -/
def showing : List (Fld × Nat) :=
  [(HEAD_STATUS.SCANNING 0, 1), (HEAD_HTIM.HTOTAL 0, 400), (HEAD_HTIM.HACTIVE 0, 320), (HEAD_VTIM.VTOTAL 0, 250), (HEAD_VTIM.VACTIVE 0, 200),
    (HEAD_SYNC.HFP 0, 8), (HEAD_SYNC.HSW 0, 8), (HEAD_SYNC.VFP 0, 3), (HEAD_SYNC.VSW 0, 4), (HEAD_PCLK.PCLK 0, 25000)]

theorem test_headLines_met :
    (∃ c : Chip, c.scanning 0 = true ∧ (c.head 0).stopping = false ∧ rasterOk (c.raster 0) = true ∧ c.awaitsLag 0 = false ∧ c.panelTimed 0 = false) ∧
    (∃ c : Chip, c.scanning 0 = true ∧ (c.head 0).stopping = false ∧ rasterOk (c.raster 0) = true ∧ c.awaitsLag 0 = false ∧ c.panelTimed 0 = true ∧
      c.fld (HEAD_POS.LINE 0) = (c.raster 0).vactive + (c.raster 0).vfp - 1 ∧ (c.head 0).edge = false) ∧
    (∃ c : Chip, c.scanning 0 = true ∧ (c.head 0).stopping = false ∧ c.awaitsLag 0 = true) ∧
    (∃ c : Chip, c.scanning 3 = true ∧ (c.head 3).stopping = true) ∧
    (∃ c : Chip, ∃ n, c.bandSurface 0 = some n ∧ c.mayFetch 0 n = true) ∧
    (∃ c : Chip, ∃ n b, (c.head 3).fetch = some (n, b)) ∧
    (∃ c : Chip, ∃ rising, c.scanning 0 = true ∧ c.panelTimed 0 = true ∧ rising ≠ c.on (HEAD_CTRL.TE_POL 0)) ∧
    (∃ c : Chip, c.on (HEAD_STATUS.TE_HOLD 0) = true ∧ (c.head 0).edge = false ∧ max 1 (c.fld (HEAD_OPT.TE_TO 0)) ≤ (c.head 0).held) :=
  ⟨⟨put showing, by decide⟩, ⟨put (showing ++ [(HEAD_CTRL.TE_EN 0, 1), (HEAD_POS.LINE 0, 202)]), by decide⟩,
    ⟨((put (showing ++ [(HEAD_CTRL.MODE 0, 2), (RX_STATUS.ACTIVE 0, 1), (HEAD_POS.LINE 0, 249)])).setStream 0
      (some { noRaster with vtotal := 250 }, 7)).modHead 0 fun x => { x with resync := true }, by decide⟩,
    ⟨(put [(HEAD_STATUS.SCANNING 3, 1)]).modHead 3 fun x => { x with stopping := true }, by decide⟩,
    ⟨(put (showing ++ tiledSurface ++ [(HEAD_POS.LINE 0, 230)])).modHead 0 fun x => { x with plane := 0x80000000 }, 0, by decide⟩,
    ⟨up.modHead 3 fun x => { x with fetch := some (63, 1) }, 63, 1, by decide⟩,
    ⟨put (showing ++ [(HEAD_CTRL.TE_EN 0, 1)]), true, by decide⟩,
    ⟨(put [(HEAD_STATUS.TE_HOLD 0, 1), (HEAD_OPT.TE_TO 0, 5)]).modHead 0 fun x => { x with held := 5 }, by decide⟩⟩

theorem test_headCommits_met :
    (∃ c : Chip, ∃ v, c.headList.contains 3 = true ∧ bit v 0 = true ∧ bit v 1 = false ∧ bit v 2 = false ∧
      c.on (HEAD_STATUS.ARMED 3) = false ∧ c.on (MARG_STATUS.ARMED 3) = false) ∧
    (∃ c : Chip, ∃ v, c.headList.contains 0 = true ∧ bit v 0 = false ∧ bit v 1 = true ∧ bit v 2 = true) :=
  ⟨⟨up, 1, by decide⟩, ⟨up, 6, by decide⟩⟩

theorem test_headEnableAndPower_met :
    (∃ c : Chip, ∃ v, c.headList.contains 0 = true ∧ c.on (HEAD_CTRL.EN 0) = false ∧ bit v 31 = true ∧
      (c.writeMasked (HEAD_CTRL 0) v).enableRefusal 0 = 0) ∧
    (∃ c : Chip, ∃ v, c.headList.contains 0 = true ∧ c.on (HEAD_CTRL.EN 0) = false ∧ bit v 31 = true ∧
      (c.writeMasked (HEAD_CTRL 0) v).enableRefusal 0 ≠ 0) ∧
    (∃ c : Chip, ∃ v, c.headList.contains 3 = true ∧ c.on (HEAD_CTRL.EN 3) = true ∧ bit v 31 = false) ∧
    (∃ c : Chip, ∃ v, (DPTX_SLOTS.S0 3).get v + (DPTX_SLOTS.S1 3).get v + (DPTX_SLOTS.S2 3).get v + (DPTX_SLOTS.S3 3).get v = 63 ∧
      c.hasOut 3 = true ∧ c.pageLocked (0x24 + 3) = false) ∧
    (∃ v, (DPTX_SLOTS.S0 3).get v + (DPTX_SLOTS.S1 3).get v + (DPTX_SLOTS.S2 3).get v + (DPTX_SLOTS.S3 3).get v = 64) ∧
    (∃ c : Chip, c.on (DPTX_STATUS.PWR_ON 0) = true) ∧
    (∃ c : Chip, ∃ v, c.hasOut 0 = true ∧ bit v 29 = true ∧ bit v 22 = false ∧ c.on (DPTX_CTRL.PWR_EN 0) = false ∧ c.dpHeldOff 0 = true) ∧
    (∃ c : Chip, ∃ v, c.hasOut 0 = true ∧ bit v 29 = true ∧ bit v 22 = false ∧ c.on (DPTX_CTRL.PWR_EN 0) = false ∧ c.dpHeldOff 0 = false ∧
      c.outHeld 0 = false ∧ c.dpRuns 0 = true ∧ c.on (DPTX_STATUS.PWR_ON 0) = false) ∧
    (∃ c : Chip, ∃ v, c.hasOut 0 = true ∧ bit v 29 = false ∧ bit v 22 = false ∧
      (c.boot.rampNow ≠ some (.dp 0) ∨ .dp 0 ∉ c.boot.rampWait)) :=
  ⟨⟨put (showing.drop 1), 0x80000000, by decide⟩, ⟨up, 0x80000000, by decide⟩, ⟨put [(HEAD_CTRL.EN 3, 1)], 0, by decide⟩,
    ⟨up, 0x0F101010, by decide⟩, ⟨0x10101010, by decide⟩, ⟨put [(DPTX_STATUS.PWR_ON 0, 1)], by decide⟩,
    ⟨(put [(DPTX_CTRL.PWR_EN 0, 0)]).modDp 0 fun x => { x with openedNs := some 0 }, 0x20000000, by decide⟩, ⟨put [(DPTX_CTRL.PWR_EN 0, 0)], 0x20000000, by decide⟩, ⟨up, 0, by decide⟩⟩

theorem test_outputTraining_met :
    (∃ c : Chip, c.hasOut 3 = true ∧ c.on (DPTX_STATUS.HPD 3) = false) ∧
    (∃ c : Chip, c.hasOut 0 = true ∧ c.on (DPTX_STATUS.HPD 0) = true ∧ c.on (DPTX_STATUS.TRAINED 0) = true ∧ c.dpRuns 0 = true) ∧
    (∃ c : Chip, ∃ (rate : Fin 7) (lanes : Fin 3), (c.dp 0).training = true ∧ rate.val ≤ (c.dpLimit 0).1 ∧ lanes.val ≤ (c.dpLimit 0).2) ∧
    (∃ c : Chip, ∃ v, bit v 22 = true ∧ c.dpRuns 0 = true ∧ c.on (DPTX_STATUS.HPD 0) = true) :=
  ⟨⟨up, by decide⟩, ⟨put [(DPTX_STATUS.HPD 0, 1), (DPTX_STATUS.TRAINED 0, 1)], by decide⟩,
    ⟨(put [(DPTX_CTRL.MAX_RATE 0, 6), (DPTX_CTRL.MAX_LANES 0, 2)]).modDp 0 fun x => { x with training := true }, 6, 2, by decide⟩,
    ⟨put [(DPTX_STATUS.HPD 0, 1)], 0x400000, by decide⟩⟩

theorem test_auxTransactions_met :
    (∃ c : Chip, ∃ v, bit v 31 = true ∧ (DPTX_AUX.CMD 3).get v = 7 ∧ c.dpRuns 3 = true ∧ (c.dp 3).aux = none ∧ (c.dp 3).training = false) ∧
    (∃ c : Chip, ∃ v, bit v 31 = true ∧ (DPTX_AUX.CMD 0).get v = 0 ∧ c.dpRuns 0 = true ∧ (c.dp 0).aux = none ∧ (c.dp 0).training = false) ∧
    (∃ c : Chip, ∃ v, (c.dp 0).aux = some v ∧ (c.dp 0).training = false ∧ v.getLsbD 28 = false ∧ (c.dp 0).defers = 6 ∧
      (c.dp 0).retries = 2) ∧
    (∃ c : Chip, ∃ v, (c.dp 0).aux = some v ∧ (c.dp 0).training = false ∧ 3 ≤ (c.dp 0).retries) ∧
    (∃ c : Chip, ∃ v, (c.dp 3).aux = some v ∧ (c.dp 3).training = false ∧ v.getLsbD 28 = true) :=
  ⟨⟨up, 0xF0000000, by decide⟩, ⟨up, 0x80000000, by decide⟩,
    ⟨up.modDp 0 fun x => { x with aux := some 0x80000000, defers := 6, retries := 2 }, 0x80000000, by decide⟩,
    ⟨up.modDp 0 fun x => { x with aux := some 0x80000000, retries := 3 }, 0x80000000, by decide⟩,
    ⟨up.modDp 3 fun x => { x with aux := some 0x90000000 }, 0x90000000, by decide⟩⟩

/-- The tunnel open on flows 3 and 4. -/
def tunnel : List (Fld × Nat) := [(HUB_TUN.EN, 1), (HUB_STATUS.UP, 1), (HUB_TUN.BULK_FLOW, 3), (HUB_TUN.ISO_FLOW, 4),
  (FLOW_CFG.ENDPOINT 3, 9), (FLOW_CFG.ENDPOINT 4, 9)]

/-- A transaction of the tunnel for microframe `u` with no data: its token, 1 for OUT and 9 for IN, is in the low half of byte 4. -/
def tunMsg (u token : Byte) : List MsgCell := one clsP [0x10, 1, 0, 0, token, 0, 0, 0, u, 0]

theorem test_tunnelMessages_met :
    (∃ c : Chip, ∃ m, c.tunFlow 3 = true ∧ (m.all fun x => x.typ % 8 == clsP) = true ∧ c.tunBad 3 m false = false ∧
      c.fld HUB_TUN.BULK_FLOW ≠ 0 ∧ c.on (FLOW_CFG.ENC 3) = false ∧ c.hub.uframe = hdrNat m 8 2 % 16384) ∧
    (∃ c : Chip, ∃ m, c.tunFlow 4 = true ∧ (m.all fun x => x.typ % 8 == clsP) = true ∧
      c.tunBad 4 m (true && tokenOf (tunBytes m) == 1) = false ∧
      8192 ≤ (c.hub.uframe + 16384 - hdrNat m 8 2 % 16384) % 16384) ∧
    (∃ c : Chip, ∃ m, c.tunFlow 3 = true ∧ (m.all fun x => x.typ % 8 == clsP) = true ∧
      c.tunBad 3 m (true && tokenOf (tunBytes m) == 1) = false ∧ tokenOf (tunBytes m) = 9 ∧ c.hub.uframe = hdrNat m 8 2 + 8191) ∧
    (∃ c : Chip, ∃ m, c.tunFlow 3 = true ∧ (m.all fun x => x.typ % 8 == clsP) = true ∧ c.tunBad 3 m false = false ∧
      hdrNat m 1 1 = 1 ∧ c.resuming = false ∧ c.on HUB_STATUS.SUSPENDED = true) ∧
    (∃ c : Chip, ∃ m : List MsgCell, c.tunFlow 3 = true ∧ (m.all fun x => x.typ % 8 == clsP) = true ∧ c.tunBad 3 m false = true) :=
  ⟨⟨put tunnel, tunMsg 0 1, by decide⟩, ⟨put tunnel, tunMsg 1 1, by decide⟩,
    ⟨put tunnel { up with hub := { Hub.init with uframe := 8200 } }, tunMsg 9 9, by decide⟩,
    ⟨put (tunnel ++ [(HUB_STATUS.SUSPENDED, 1)]), tunMsg 0 1, by decide⟩, ⟨put tunnel, [], by decide⟩⟩

theorem test_upstreamAndPorts_met :
    (∃ c : Chip, 2 ≤ c.fld HUB_STATUS.UP ∧ c.resuming = false ∧ c.on HUB_STATUS.SUSPENDED = true) ∧
    (∃ c : Chip, c.fld HUB_STATUS.UP = 1) ∧ (∃ v : Word, bit v 12 = true) ∧
    (∃ c : Chip, c.on (PORT_STATUS.VBUS_ON 3) = true ∧ c.hubRuns = true ∧ c.fld (PORT_STATUS.SPEED 3) ≠ 3) ∧
    (∃ c : Chip, c.on (PORT_STATUS.CONNECTED 5) = true) ∧
    (∃ c : Chip, (c.port 1).asked = true ∧ (c.port 1).attached = false ∧ c.domainOn 8 = true) ∧
    (∃ c : Chip, c.domainOn 8 = false) ∧
    (∃ c : Chip, 2 ≤ c.fld HUB_STATUS.UP ∧ c.resuming = true ∧ c.hub.rsmPort = some 5) ∧
    (∃ c : Chip, 2 ≤ c.fld HUB_STATUS.UP ∧ c.resuming = false ∧ c.on HUB_STATUS.SUSPENDED = false) ∧
    (∃ c : Chip, c.fld HUB_STATUS.UP < 2) ∧ (∃ c : Chip, c.fld HUB_STATUS.UP ≠ 1) ∧
    (∃ c : Chip, c.on HUB_STATUS.SUSPENDED = true ∧ c.resuming = false ∧ c.fld HUB_STATUS.UP ≠ 1) ∧
    (∃ c : Chip, c.resuming = true ∧ c.hub.rsmHost = true) ∧ (∃ c : Chip, c.resuming = false ∧ c.on HUB_STATUS.SUSPENDED = false) ∧
    (∃ c : Chip, ∃ wakes, c.on (PORT_STATUS.VBUS_ON 0) = true ∧ c.hubRuns = true ∧ c.fld (PORT_STATUS.SPEED 0) ≠ 3 ∧ wakes = true ∧
      c.on HUB_STATUS.SUSPENDED = true ∧ c.resuming = false) :=
  ⟨⟨put [(HUB_STATUS.UP, 2), (HUB_STATUS.SUSPENDED, 1)], by decide⟩, ⟨put [(HUB_STATUS.UP, 1)], by decide⟩, ⟨0x1000, by decide⟩,
    ⟨put [(PORT_STATUS.VBUS_ON 3, 1)], by decide⟩, ⟨put [(PORT_STATUS.CONNECTED 5, 1)], by decide⟩,
    ⟨up.modPort 1 fun x => { x with asked := true }, by decide⟩, ⟨put [(PS_DOMAIN.PWR, 0)], by decide⟩,
    ⟨put [(HUB_STATUS.UP, 3)] { up with hub := { Hub.init with resumeNs := some 0, rsmPort := some 5 } }, by decide⟩,
    ⟨put [(HUB_STATUS.UP, 3)], by decide⟩, ⟨put [(HUB_STATUS.UP, 1)], by decide⟩, ⟨put [(HUB_STATUS.UP, 2)], by decide⟩,
    ⟨put [(HUB_STATUS.SUSPENDED, 1)], by decide⟩,
    ⟨{ up with hub := { Hub.init with resumeNs := some 0, rsmHost := true } }, by decide⟩, ⟨up, by decide⟩,
    ⟨put [(PORT_STATUS.VBUS_ON 0, 1), (HUB_STATUS.SUSPENDED, 1)], true, by decide⟩⟩

theorem test_portPower_met :
    (∃ c : Chip, c.on (PORT_STATUS.CUTOFF 0) = false ∧ (c.port 0).holdoff = false) ∧
    (∃ c : Chip, c.on (PORT_STATUS.CUTOFF 5) = false ∧ (c.port 5).holdoff = true) ∧ (∃ c : Chip, c.on (PORT_STATUS.CUTOFF 1) = true) ∧
    (∃ c : Chip, c.hubRuns = true ∧ (List.range 6).find? (fun q => (c.port q).waiting) = some 5) :=
  ⟨⟨up, by decide⟩, ⟨up.modPort 5 fun x => { x with holdoff := true }, by decide⟩, ⟨put [(PORT_STATUS.CUTOFF 1, 1)], by decide⟩,
    ⟨up.modPort 5 fun x => { x with waiting := true }, by decide⟩⟩

theorem test_portFaults_met :
    (∃ c : Chip, c.on (PORT_STATUS.CONNECTED 2) = true ∧ (c.port 2).disabled = false ∧ c.fld HUB_CTRL.BABBLE_LIM = 0) ∧
    (∃ c : Chip, c.on (PORT_STATUS.CONNECTED 2) = true ∧ (c.port 2).disabled = false ∧ c.fld HUB_CTRL.BABBLE_LIM = 2 ∧
      ((c.port 2).babbles.filter fun t => decide (c.timeNs < t + babbleSpan)) ++ [c.timeNs] = [0, 0]) ∧
    (∃ c : Chip, c.on (PORT_STATUS.VBUS_ON 0) = true) ∧ (∃ c : Chip, c.boot.rampNow = some (.ds 5)) ∧
    (∃ c : Chip, (c.port 4).heldReq = false) ∧ (∃ c : Chip, (c.port 4).heldReq = true ∧ c.on (PORT_STATUS.CUTOFF 4) = false) ∧
    (∃ c : Chip, c.on (PORT_STATUS.GANGED 2) = true ∧ c.on (PORT_STATUS.GANGED 4) = true) :=
  ⟨⟨put [(PORT_STATUS.CONNECTED 2, 1), (HUB_CTRL.BABBLE_LIM, 0)], by decide⟩,
    ⟨(put [(PORT_STATUS.CONNECTED 2, 1), (HUB_CTRL.BABBLE_LIM, 2)]).modPort 2 fun x => { x with babbles := [0] }, by decide⟩,
    ⟨put [(PORT_STATUS.VBUS_ON 0, 1)], by decide⟩, ⟨{ up with boot := { up.boot with rampNow := some (.ds 5) } }, rfl⟩,
    ⟨up, by decide⟩, ⟨up.modPort 4 fun x => { x with heldReq := true, holdoff := true }, by decide⟩,
    ⟨put [(PORT_STATUS.GANGED 2, 1), (PORT_STATUS.GANGED 4, 1), (PORT_STATUS.VBUS_ON 2, 1)], by decide⟩⟩

theorem test_serviceFunction_met :
    (∃ c : Chip, ∃ (a : Word) (n : BitVec 16), c.svcfOpen = true ∧ c.noRouter = false ∧ a.toNat % 4 = 0 ∧ n.toNat % 4 = 0 ∧ n.toNat = 256 ∧
      a.toNat + n.toNat = 0x40000) ∧
    (∃ c : Chip, ∃ (a : Word) (n : BitVec 16), c.svcfOpen = true ∧ c.noRouter = false ∧ a.toNat % 4 = 0 ∧ n.toNat % 4 = 0 ∧ n.toNat = 4096 ∧
      a.toNat + n.toNat = 2 ^ 32 ∧ c.stkBadIn a.toNat n.toNat = false) ∧
    (∃ c : Chip, ∃ w, c.svcfOpen = true ∧ c.noRouter = false ∧ c.svcf.write = some w ∧ w.req = 4 ∧ c.svcf.busy = false) ∧
    (∃ c : Chip, c.svcfOpen = true ∧ c.noRouter = false ∧ c.svcf.write = none) :=
  ⟨⟨put [(HUB_STATUS.UP, 2)], 0x3FF00, 256, by decide⟩, ⟨put [(HUB_STATUS.UP, 2)], 0xFFFFF000, 4096, by decide⟩,
    ⟨put [(HUB_STATUS.UP, 2)] { up with svcf := { Svcf.init with write := some ⟨4, 0, [1, 2, 3, 4]⟩ } }, _, by decide, by decide, rfl, by decide⟩,
    ⟨put [(HUB_STATUS.UP, 2)], by decide⟩⟩

theorem test_servicePortAndSupplies_met :
    (∃ c : Chip, c.boot.svcVref = true ∧ c.svcp.waiting = false ∧ c.sstate = 2 ∧ c.seq.target = 0 ∧ (c.fld PS_WAKE_EN.EN).testBit 9 = true) ∧
    (∃ c : Chip, ∃ a : BitVec 40, c.svcpOpen = true ∧ c.sstate < 2 ∧ c.svcp.waiting = false ∧ a.toNat % 0x1000 = 0x018 ∧ a.toNat < 0x40000 ∧
      pagePresent c.part (pageOf a.toNat) = true) ∧
    (∃ a : BitVec 40, a.toNat % 4 = 0 ∧ 2 ^ 32 ≤ a.toNat ∧ a.toNat + 4 = 2 ^ 33) ∧
    (∃ c : Chip, ∃ a, c.svcpOpen = true ∧ c.sstate < 2 ∧ c.svcp.waiting = false ∧ c.svcp.read = some (true, a) ∧ a % 4 = 0 ∧ 2 ^ 32 ≤ a ∧
      a + 4 * (255 + 1) = 2 ^ 33 ∧ c.stkBadIn (a - 2 ^ 32) (4 * (255 + 1)) = false) ∧
    (∃ c : Chip, c.svcpOpen = true ∧ c.sstate < 2 ∧ c.svcp.waiting = false ∧ c.svcp.read = none) ∧
    (∃ (c : Chip) (a : SvcpSetup), c.svcpOpen = true ∧ c.sstate < 2 ∧ c.svcp.waiting = false ∧ a.other = none ∧ a.after = [1, 2]) ∧
    (∃ c : Chip, c.copp.ganged.contains (1, 1) = true ∧ c.on (PEP_STATUS.PWR_ON 1) = true ∧ c.copp.ganged.contains (1, 5) = true ∧
      c.on (DPTX_STATUS.PWR_ON 3) = true) :=
  ⟨⟨put [(PS_STATUS.STATE, 2), (PS_WAKE_EN.EN, 0x200)], by decide⟩, ⟨up, 0x3D018, by decide⟩, ⟨0x1FFFFFFFC, by decide⟩,
    ⟨{ up with svcp := { Svcp.init with read := some (true, 2 ^ 33 - 1024) } }, _, by decide, by decide, by decide, rfl, by decide⟩,
    ⟨up, by decide⟩, ⟨up, ⟨0, none, [1, 2]⟩, by decide⟩,
    ⟨put [(PEP_STATUS.PWR_ON 1, 1), (DPTX_STATUS.PWR_ON 3, 1)] { up with copp := { Copp.init with ganged := [(1, 1), (1, 5)] } }, by decide⟩⟩

/-- A configuration request of the host in the tunnel, and a memory write for a port. -/
def cfgRead : List MsgCell := one clsNp [0x40, 0, 12, 0, 0, 0, 0, 0, 4, 0, 0, 1, 0, 0, 7, 15, 1, 0, 0, 0]
def memWrite : List MsgCell := one clsP [0x40, 0, 16, 0, 0, 0, 0, 0, 0x40, 0, 0, 1, 0, 0, 7, 15, 0, 0, 0, 4, 1, 2, 3, 4]

/-- The tunnel of PCIE open in native mode on flow 3, port 1 on flow 4. -/
def pcieOpen : List (Fld × Nat) := [(PD_STATUS.MODE 0, 2), (PCIE_TUN.EN, 1), (PCIE_TUN.CFG_FLOW, 3), (PEP_CTRL.FLOW 1, 4), (PEP_STATUS.LINK_UP 1, 1)]

theorem test_pcieTunnel_met :
    (∃ c : Chip, c.tlpsOn = true ∧ c.safe = false ∧ c.tlpBad 4 cfgRead 0 = true) ∧
    (∃ c : Chip, c.tlpsOn = true ∧ c.safe = false ∧ c.tlpBad 3 memWrite 0 = false ∧ tlpClass (tunnelledTlp memWrite) ≠ some clsNp) ∧
    (∃ c : Chip, c.tlpsOn = true ∧ c.safe = false ∧ c.tlpBad 3 cfgRead 0 = false ∧ tlpClass (tunnelledTlp cfgRead) = some clsNp ∧
      tlpIsConfig (tunnelledTlp cfgRead) = true ∧ tlpHasData (tunnelledTlp cfgRead) = false ∧
      c.cfgTarget (tunnelledTlp cfgRead) = some 0 ∧ c.cfgFlow ≠ 0 ∧ c.on (FLOW_CFG.ENC c.cfgFlow) = false) ∧
    (∃ c : Chip, c.tlpsOn = true ∧ c.safe = false ∧ c.tlpBad 4 memWrite 2 = false ∧ 1 ∈ c.pepList ∧
      c.on (PEP_STATUS.LINK_UP 1) = true ∧ tlpIsRead (tunnelledTlp memWrite) = false) ∧
    (∃ c : Chip, ∃ t cls, c.on (PEP_STATUS.LINK_UP 1) = true ∧ c.tlpsOn = true ∧ c.pepFlow 1 ≠ 0 ∧ t.length = tlpBytes t ∧
      tlpClass t = some cls ∧ tlpIsCompletion t = false ∧ c.tlpHeld + 8 + t.length ≤ 131072 ∧ c.upSpace (c.pepFlow 1) t = true ∧
      c.on (FLOW_CFG.ENC (c.pepFlow 1)) = false ∧ c.portLinked (1 - 1) = true) ∧
    (∃ c : Chip, ∃ v, bit v 31 = true ∧
      ((c.writeMasked PCIE_TUN v).cfgFlow :: (c.pepList.map c.pepFlow).filter (· != 0)).all c.pciFlow = true ∧
      ((c.writeMasked PCIE_TUN v).cfgFlow :: (c.pepList.map c.pepFlow).filter (· != 0)).Nodup) ∧
    (∃ c : Chip, ∃ v, bit v 31 = true ∧ bit v 2 = true ∧
      ((c.writeMasked PCIE_TUN v).cfgFlow :: (c.pepList.map c.pepFlow).filter (· != 0)).all c.pciFlow = false) :=
  ⟨⟨put pcieOpen, by decide⟩, ⟨put pcieOpen, by decide⟩, ⟨put pcieOpen, by decide⟩, ⟨put pcieOpen, by decide⟩,
    ⟨put (pcieOpen ++ [(PEP_STATUS.LINK_UP 0, 1)]), tunnelledTlp memWrite, clsP, by decide⟩,
    ⟨put [(PEP_CTRL.FLOW 0, 0), (PEP_CTRL.FLOW 1, 4), (FLOW_STATE.STATE 3, 1), (FLOW_CFG.CLASS 3, 4), (FLOW_CFG.ENDPOINT 3, 7),
      (FLOW_STATE.STATE 4, 1), (FLOW_CFG.CLASS 4, 4), (FLOW_CFG.ENDPOINT 4, 7)], 0x80000003, by decide⟩, ⟨up, 0x80000004, by decide⟩⟩

theorem test_sockets_met :
    (∃ c : Chip, c.tlpsOn = true ∧ 1 ∈ c.pepList ∧ (c.pep 1).asked = false) ∧
    (∃ c : Chip, (c.pep 1).waiting = true ∧ c.boot.rampNow = none) ∧
    (∃ c : Chip, c.on (PEP_STATUS.PWR_ON 1) = true ∧ (c.pep 1).ready = true ∧ c.on (PEP_STATUS.PERST 1) = true ∧ c.safe = false) ∧
    (∃ c : Chip, c.pcie.offDelay = true ∧ c.native .ul = false) ∧ (∃ c : Chip, c.boot.rampNow = some (.m2 1)) ∧
    (∃ c : Chip, ∃ level l12, c.on (PEP_STATUS.PWR_ON 0) = true ∧ (c.pep 0).refclk ≠ !(level && l12)) ∧
    (∃ c : Chip, c.on (PEP_STATUS.PWR_ON 0) = true ∧ c.tlpsOn = true ∧ c.cfgFlow ≠ 0 ∧ c.on (FLOW_CFG.ENC c.cfgFlow) = false ∧
      c.on (PEP_STATUS.LINK_UP 0) = true) ∧
    (∃ c : Chip, ∃ speed : Fin 5, c.on (PEP_STATUS.PWR_ON 1) = true ∧ c.on (PEP_STATUS.PERST 1) = false ∧
      c.on (PEP_STATUS.LINK_UP 1) = false ∧ speed.val ≤ c.maxSpeed 1) :=
  let on : List (Fld × Nat) := [(PEP_STATUS.PWR_ON 0, 1), (PEP_STATUS.PWR_ON 1, 1)]
  ⟨⟨put pcieOpen, by decide⟩, ⟨up.modPep 1 fun x => { x with waiting := true }, by decide⟩,
    ⟨(put (on ++ [(PEP_STATUS.PERST 1, 1)])).modPep 1 fun x => { x with ready := true }, by decide⟩,
    ⟨{ up with pcie := { Pcie.init with offDelay := true } }, by decide⟩,
    ⟨{ up with boot := { up.boot with rampNow := some (.m2 1) } }, rfl⟩, ⟨put on, true, false, by decide⟩,
    ⟨put (on ++ pcieOpen ++ [(PEP_STATUS.LINK_UP 0, 1)]), by decide⟩,
    ⟨put (on ++ [(PEP_STATUS.PERST 1, 0), (PEP_CTRL.MAX_SPEED 1, 4)]), 4, by decide⟩⟩

/-- The chip after start-up with the Ethernet block granted. -/
def ethUp : Chip := { up with budget := { granted := [itEth], hold := false } }

/-- A FRAME message of 14 bytes. -/
def frameMsg : List MsgCell := one clsP [0x30, 0, 14, 0, 0, 0, 0, 0]

/-- A received frame of these bytes and its FCS. -/
def wire (bs : List Byte) : List Byte := bs ++ toBytes 4 (crc32 bs)

/-- A PAUSE frame of two quanta. -/
def pause : List Byte := fitBytes 60 (pauseAddr ++ List.replicate 6 2 ++ [0x88, 0x08, 0, 1, 0, 2])

set_option maxRecDepth 20000 in
theorem test_ethernet_met :
    (∃ c : Chip, c.ethOn = true ∧ c.native .ul = true ∧ c.on ENET_TUN.EN = true ∧ c.flowState 3 = 1 ∧
      c.fld (FLOW_CFG.ENDPOINT 3) = 8 ∧ c.frameBad 3 frameMsg = false ∧ c.eth.pausedNs ≤ c.timeNs ∧ c.frameBad 3 [] = true) ∧
    (∃ c : Chip, c.ethOn = true ∧ c.native .ul = true ∧ c.on ENET_TUN.EN = true ∧ c.flowState 3 = 1 ∧
      c.fld (FLOW_CFG.ENDPOINT 3) = 8 ∧ c.frameBad 3 frameMsg = false ∧ c.timeNs < c.eth.pausedNs) ∧
    (∃ c : Chip, ∃ bs : List Byte, c.ethOn = true ∧ bs.length = 64 ∧ bs.length ≤ c.maxLen ∧
      ofBytes (bs.drop (bs.length - 4)) = crc32 (bs.take (bs.length - 4)) ∧ c.isPause (bs.take (bs.length - 4)) = false ∧ c.native .ul = true ∧
      c.pcpFlow (c.framePcp (bs.take (bs.length - 4))) = 3 ∧ c.flowState 3 = 1 ∧ c.fld (FLOW_CFG.ENDPOINT 3) = 8 ∧ c.on ENET_TUN.EN = true ∧
      c.rxHeld + 8 + 60 ≤ 262144 ∧ c.on (FLOW_CFG.ENC 3) = false) ∧
    (∃ c : Chip, ∃ bs : List Byte, c.ethOn = true ∧ bs.length = 64 ∧ bs.length ≤ c.maxLen ∧
      ofBytes (bs.drop (bs.length - 4)) ≠ crc32 (bs.take (bs.length - 4))) ∧
    (∃ c : Chip, ∃ bs : List Byte, c.ethOn = true ∧ bs.length = 64 ∧ bs.length ≤ c.maxLen ∧
      ofBytes (bs.drop (bs.length - 4)) = crc32 (bs.take (bs.length - 4)) ∧ c.on ENET_CTRL.PAUSE = true ∧
      c.isPause (bs.take (bs.length - 4)) = true ∧ c.eth.txQ = []) ∧
    (∃ c : Chip, ∃ bs : List Byte, c.ethOn = true ∧ bs.length = 64 ∧ bs.length ≤ c.maxLen ∧
      ofBytes (bs.drop (bs.length - 4)) = crc32 (bs.take (bs.length - 4)) ∧ c.isPause (bs.take (bs.length - 4)) = false ∧ c.native .ul = false ∧
      2 ≤ c.fld HUB_STATUS.UP ∧ c.filterPasses (bs.take (bs.length - 4)) = true ∧ c.ncmReady = true) ∧
    (∃ c : Chip, c.ethOn = true ∧ 2 ≤ c.fld HUB_STATUS.UP ∧ c.on HUB_STATUS.SUSPENDED = false ∧ c.noRouter = true) ∧
    (∃ c : Chip, ∃ frames : List (List Byte), c.ethOn = true ∧ 2 ≤ c.fld HUB_STATUS.UP ∧ c.on HUB_STATUS.SUSPENDED = false ∧
      c.noRouter = false ∧ ntbFits frames = true ∧ c.eth.pausedNs ≤ c.timeNs ∧ frames ≠ [] ∧
      ∀ x ∈ frames, 14 ≤ x.length ∧ x.length ≤ c.maxLen - 4) ∧
    (∃ c : Chip, ∃ adv : BitVec 5, c.ethRuns = true ∧ c.on ENET_STATUS.LINK = false ∧
      ((List.range 5).filter fun j => (c.fld EPHY_CTRL.ADV &&& adv.toNat &&& c.ethSpeeds).testBit j).getLast? = some 4) ∧
    (∃ c : Chip, c.on ENET_STATUS.LINK = true ∧ c.on ENET_STATUS.EEE = true ∧ c.ethRuns = true ∧ c.eth.txQ = [] ∧ c.lpi = false) ∧
    (∃ v, bit v 21 = true ∧ bit v 25 = true) :=
  let linked : List (Fld × Nat) := [(ENET_STATUS.LINK, 1), (PP_HELD.ETH, 0), (ENET_MAC_LO.ADDR_LO, 2)]
  let flow : List (Fld × Nat) :=
    [(PD_STATUS.MODE 0, 2), (ENET_TUN.EN, 1), (FLOW_STATE.STATE 3, 1), (FLOW_CFG.CLASS 3, 2), (FLOW_CFG.ENDPOINT 3, 8), (⟨ENET_MAP0, 0, 32⟩, 3)]
  ⟨⟨put (linked ++ flow) ethUp, by decide⟩, ⟨put (linked ++ flow) { ethUp with eth := { Eth.init with pausedNs := 1 } }, by decide⟩,
    ⟨put (linked ++ flow) ethUp, wire (List.replicate 60 0), by decide⟩,
    ⟨put linked ethUp, List.replicate 64 1, by decide⟩, ⟨put (linked ++ [(ENET_CTRL.PAUSE, 1)]) ethUp, wire pause, by decide⟩,
    ⟨put (linked ++ [(HUB_STATUS.UP, 2)]) ethUp, wire (List.replicate 60 0xFF), by decide⟩,
    ⟨put (linked ++ [(HUB_STATUS.UP, 2), (ROUT_STATUS.STATE, 1)]) ethUp, by decide⟩,
    ⟨put (linked ++ [(HUB_STATUS.UP, 2)]) ethUp, [List.replicate 14 0], by decide⟩, ⟨ethUp, 31, by decide⟩,
    ⟨put (linked ++ [(ENET_STATUS.EEE, 1)]) ethUp, by decide⟩, ⟨0x2200000, by decide⟩⟩

/-- A port of Power Delivery attached as source or as sink. -/
def attach (p src : Nat) : List (Fld × Nat) := [(PD_CTRL.EN p, 1), (PD_STATUS.ATTACHED p, 1), (PD_STATUS.SOURCE p, src)]

/-- A Request for 5 V and 3 A. -/
def fiveVolts : PdReq := { pos := 1, mv := 5000, ma := 3000, typ := 2, mismatch := false }

theorem test_portsAttachAndDetach_met :
    (∃ c : Chip, c.pdOn 1 = true ∧ c.attached 1 = false ∧ c.safe = false ∧ 1 ≤ c.boot.step) ∧
    (∃ c : Chip, c.pdOn 0 = true ∧ c.attached 0 = false ∧ c.safe = false ∧ 1 ≤ c.boot.step ∧ c.inputPresent = true) ∧
    (∃ c : Chip, c.pdOn 2 = true ∧ c.attached 2 = false ∧ 1 ≤ c.boot.step) ∧
    (∃ c : Chip, c.attached 1 = true ∧ c.isSource 1 = true) ∧ (∃ c : Chip, c.attached 0 = true ∧ c.isSource 0 = false) :=
  ⟨⟨put [(PD_CTRL.EN 1, 1)], by decide⟩,
    ⟨put [(PD_CTRL.EN 0, 1), (PD_STATUS.EXPLICIT 2, 1), (PD_CONTRACT.VOLT 2, 1000), (PD_CONTRACT.CURR 2, 100), (PD_SNK_CFG.SRC_MIN 2, 60)], by decide⟩,
    ⟨put [(PD_CTRL.EN 2, 1)], by decide⟩, ⟨put (attach 1 1), by decide⟩, ⟨put (attach 0 0), by decide⟩⟩

theorem test_pdRequests_met :
    (∃ c : Chip, ∃ caps r, c.sourceOn 2 = true ∧ c.pdOn 2 = true ∧ (c.pdPort 2).off = false ∧ c.chooseRequest 2 caps = some r) ∧
    (∃ c : Chip, ∃ r, (c.pdPort 0).asked = some r ∧ c.sourceOn 0 = true ∧ (c.pdPort 0).tries = 7 ∧ (c.pdPort 0).waited = true ∧ (c.pdPort 0).swap = none) ∧
    (∃ c : Chip, ∃ caps, c.sourceOn 0 = true ∧ c.pdOn 0 = true ∧ (c.pdPort 0).off = false ∧ c.candidates 0 caps = []) ∧
    (∃ c : Chip, c.sourceOn 2 = true ∧ 3 ≤ c.fld (PD_CONTRACT.TYPE 2) ∧ (c.pdPort 2).asked = none) ∧
    (∃ c : Chip, ∃ r, (c.pdPort 1).switch = true ∧ (c.pdPort 1).discharge = none ∧ c.safe = false ∧ (c.pdPort 1).levelMoving = false ∧
      c.partnerRequest 1 1 0 3000 = some r ∧ c.inOffers 1 r = true) ∧
    (∃ c : Chip, (c.pdPort 0).switch = true ∧ (c.pdPort 0).discharge = none ∧ c.safe = false ∧ (c.pdPort 0).levelMoving = false ∧
      ∀ r, c.partnerRequest 0 15 0 3000 = some r → c.inOffers 0 r = false) ∧
    (∃ c : Chip, (c.pdPort 0).switch = true ∧ (c.pdPort 0).discharge = none ∧ c.safe = false ∧ (c.pdPort 0).levelMoving = true) :=
  ⟨⟨put (attach 2 0), [{ kind := .fixed, mv := 5000, ma := 3000, epr := false }], _, by decide, by decide, by decide, rfl⟩,
    ⟨(put (attach 0 0)).modPd 0 fun x => { x with asked := some fiveVolts, tries := 7, waited := true }, _, rfl, by decide⟩,
    ⟨put (attach 0 0), [], by decide⟩,
    ⟨put (attach 2 0 ++ [(PD_CONTRACT.TYPE 2, 3)]), by decide⟩,
    ⟨(put (attach 1 1 ++ [(PP_LEVEL.CS_W, 15)])).modPd 1 fun x => { x with switch := true }, fiveVolts, by decide⟩,
    ⟨(put (attach 0 1 ++ [(PP_LEVEL.UL_W, 15)])).modPd 0 fun x => { x with switch := true }, by decide, by decide, by decide, by decide,
      fun _ h => nomatch h⟩,
    ⟨(put (attach 0 1)).modPd 0 fun x => { x with switch := true, levelMoving := true }, by decide⟩⟩

theorem test_roleSwaps_met :
    (∃ c : Chip, c.attached 2 = true ∧ c.pdOn 2 = true) ∧
    (∃ c : Chip, c.attached 0 = true ∧ c.pdOn 0 = true ∧ c.isSource 0 = c.inputPresent) ∧
    (∃ c : Chip, c.attached 0 = true ∧ c.pdOn 0 = true ∧ c.safe = false ∧ c.isSource 0 ≠ c.inputPresent) ∧
    (∃ c : Chip, (c.pdPort 0).waited = true ∧ (c.pdPort 0).swap = some .toSource ∧ (c.pdPort 0).swapWaited = false ∧
      (c.pdPort 0).swapTries = 2) ∧
    (∃ c : Chip, (c.pdPort 0).asked = none ∧ (c.pdPort 0).swap = some .toSink ∧ (c.pdPort 0).swapWaited = false) ∧
    (∃ c : Chip, (c.pdPort 0).asked = none ∧ (c.pdPort 0).swap = some .vconn ∧ (c.pdPort 0).swapWaited = false) ∧
    (∃ c : Chip, (c.pdPort 0).swapWaited = true ∧ (c.pdPort 0).swap.isSome = true) ∧
    (∃ c : Chip, c.attached 1 = true ∧ c.pdOn 1 = true ∧ c.safe = false) ∧
    (∃ c : Chip, c.attached 0 = true ∧ c.pdOn 0 = true ∧ c.safe = false ∧ c.pd.frs = .fed) ∧
    (∃ c : Chip, c.attached 0 = true ∧ c.pdOn 0 = true ∧ c.safe = false ∧ c.pd.frs ≠ .fed) :=
  ⟨⟨put (attach 2 0), by decide⟩, ⟨put (attach 0 0), by decide⟩, ⟨put (attach 0 1), by decide⟩,
    ⟨up.modPd 0 fun x => { x with asked := some fiveVolts, waited := true, swap := some .toSource, swapTries := 2 }, by decide⟩,
    ⟨up.modPd 0 fun x => { x with swap := some .toSink }, by decide⟩, ⟨up.modPd 0 fun x => { x with swap := some .vconn }, by decide⟩,
    ⟨up.modPd 0 fun x => { x with swap := some .toSink, swapWaited := true }, by decide⟩, ⟨put (attach 1 1), by decide⟩,
    ⟨put (attach 0 1) { up with pd := { up.pd with frs := .fed } }, by decide⟩, ⟨put (attach 0 1), by decide⟩⟩

theorem test_cableAndModes_met :
    (∃ c : Chip, c.attached 0 = true ∧ c.on (PD_STATUS.VCONN 0) = true ∧ c.on (PD_STATUS.CBL_DONE 0) = false) ∧
    (∃ c : Chip, c.attached 1 = true ∧ c.on (PD_STATUS.VCONN 1) = true ∧ c.on (PD_STATUS.CBL_DONE 1) = false ∧ c.paired = false) ∧
    (∃ c : Chip, c.attached 0 = true ∧ c.pdOn 0 = true ∧ 1 ≤ c.boot.step ∧ c.boot.step ≤ 3) ∧
    (∃ c : Chip, c.attached 0 = true ∧ c.pdOn 0 = true ∧ 4 ≤ c.boot.step ∧ c.offersMode .caraxline = true ∧
      c.offersMode .displayPort = true ∧ c.inMode = false) ∧
    (∃ c : Chip, c.attached 0 = true ∧ c.pdOn 0 = true ∧ 4 ≤ c.boot.step ∧ c.offersMode .displayPort = false) ∧
    (∃ c : Chip, c.attached 0 = true ∧ c.pdOn 0 = true ∧ 4 ≤ c.boot.step ∧ c.isMode .caraxline = true ∧ c.inMode = true) ∧
    (∃ c : Chip, c.attached 0 = true ∧ c.pdOn 0 = true ∧ 4 ≤ c.boot.step ∧ c.pd.dpMode = true ∧ c.on (PD_ALT_CFG.PIN_C 0) = true ∧
      c.on (PD_ALT_CFG.PIN_D 0) = true) ∧
    (∃ c : Chip, ∃ q, c.pdOn 1 = true ∧ c.paired = false ∧ c.on (PD_STATUS.EXPLICIT 1) = true ∧ c.native .ul = true ∧
      c.on (PD_ALT_CFG.CARAX 1) = true ∧ c.native .cs = false ∧ c.position = some q ∧ q ≠ 3) :=
  let alt : List (Fld × Nat) := [(PD_ALT_CFG.CARAX 0, 1), (PD_ALT_CFG.DP 0, 1), (PD_ALT_CFG.PIN_C 0, 1), (PD_ALT_CFG.PIN_D 0, 1)]
  ⟨⟨put (attach 0 1 ++ [(PD_STATUS.VCONN 0, 1)]), by decide⟩, ⟨put (attach 1 1 ++ [(PD_STATUS.VCONN 1, 1)]), by decide⟩,
    ⟨put (attach 0 1) { up with boot := { Boot.init with step := 3 } }, by decide⟩, ⟨put (attach 0 1 ++ alt), by decide⟩,
    ⟨put (attach 0 1 ++ [(PD_ALT_CFG.DP 0, 0)]), by decide⟩, ⟨put (attach 0 1 ++ [(PD_STATUS.MODE 0, 2)]), by decide⟩,
    ⟨put (attach 0 1 ++ alt) { up with pd := { up.pd with dpMode := true } }, by decide⟩,
    ⟨put (attach 1 1 ++ [(PD_STATUS.EXPLICIT 1, 1), (PD_STATUS.MODE 0, 2), (PD_ALT_CFG.CARAX 1, 1), (CASC_POSN.VALID, 1), (CASC_POSN.POS, 2)]), 2,
      by decide⟩⟩

theorem test_hardResetsAndInput_met :
    (∃ c : Chip, ∃ v, c.attached 2 = true ∧ bit v 25 = true ∧ (c.writeMasked (PD_CTRL 2) v).on (PD_CTRL.EN 2) = true) ∧
    (∃ c : Chip, c.attached 1 = true ∧ c.isSource 1 = true ∧ 3 ≤ c.fld (PD_CONTRACT.TYPE 1) ∧ (c.pdPort 1).overLevel = true ∧
      (c.pdPort 1).switch = true) ∧
    (∃ c : Chip, c.attached 2 = true ∧ (c.pdPort 2).off = false ∧ c.fld PP_STATUS.FEED = 1 ∧ c.attached 0 = true ∧ c.isSource 0 = true ∧
      c.safe = false ∧ c.on (PD_CTRL.FRS_EN 0) = true ∧ c.frsMa ≠ 0) ∧
    (∃ c : Chip, c.pd.frs = .signal) ∧ (∃ c : Chip, (c.pdPort 2).switch = false ∧ c.sourceOn 2 = true) ∧
    (∃ c : Chip, (c.pdPort 1).switch = true ∧ c.attached 1 = true) ∧
    (∃ c : Chip, (c.pdPort 0).discharge.isSome = true ∧ (c.pdPort 0).stuck = false) ∧ (∃ v : Word, bit v 0 = true) :=
  ⟨⟨put (attach 2 0), 0x82000000, by decide⟩,
    ⟨(put (attach 1 1 ++ [(PD_CONTRACT.TYPE 1, 3)])).modPd 1 fun x => { x with overLevel := true, switch := true }, by decide⟩,
    ⟨put (attach 2 0 ++ attach 0 1 ++ [(PP_STATUS.FEED, 1), (PD_CTRL.FRS_EN 0, 1), (PD_CTRL.FRS_CUR 0, 3)]), by decide⟩,
    ⟨{ up with pd := { up.pd with frs := .signal } }, by decide⟩, ⟨put (attach 2 0), by decide⟩,
    ⟨(put (attach 1 1)).modPd 1 fun x => { x with switch := true }, by decide⟩,
    ⟨up.modPd 0 fun x => { x with discharge := some 0 }, by decide⟩, ⟨1, by decide⟩⟩

/-- A command of the power sequencer, accepted. -/
def asked (w : Word) : Chip := { up with seq := { Seq.init with cmd := some w } }

theorem test_powerCommands_met :
    (∃ c : Chip, ∃ w, c.cmdOf 1 = some w ∧ c.safe = true) ∧
    (∃ c : Chip, ∃ w, c.cmdOf 1 = some w ∧ c.safe = false ∧ PS_MODE.STATE.get w = 1 ∧ c.native .ul = true) ∧
    (∃ c : Chip, ∃ w, c.cmdOf 1 = some w ∧ c.safe = false ∧ PS_MODE.STATE.get w = 3 ∧ c.reg PS_TIMER ≠ 0) ∧
    (∃ c : Chip, ∃ w, c.cmdOf 2 = some w ∧ c.safe = false ∧ c.sstate = 0 ∧ PS_MODE.OP.get w = c.op) ∧
    (∃ c : Chip, ∃ w, c.cmdOf 2 = some w ∧ c.safe = false ∧ c.sstate = 0 ∧ c.op < PS_MODE.OP.get w) ∧
    (∃ c : Chip, ∃ w, c.cmdOf 2 = some w ∧ c.safe = false ∧ c.sstate = 0 ∧ PS_MODE.OP.get w < c.op ∧ c.pointFits (PS_MODE.OP.get w) = true) ∧
    (∃ c : Chip, ∃ t, c.seq.toOp = some t ∧ c.seq.ramping = true ∧ c.swinging = true) ∧
    (∃ c : Chip, ∃ t, c.seq.toOp = some t ∧ t < 4 ∧ c.seq.ramping = true ∧ c.swinging = false) :=
  ⟨⟨put [(SAFE_STATUS.ACTIVE, 1)] (asked 0x70000000), _, rfl, by decide⟩,
    ⟨put [(PD_STATUS.MODE 0, 2)] (asked 0x50000000), _, rfl, by decide⟩, ⟨put [(PS_TIMER.MS, 1)] (asked 0x70000000), _, rfl, by decide⟩,
    ⟨put [(PS_STATUS.OP, 2)] (asked 0x82000000), _, rfl, by decide⟩, ⟨put [(PS_STATUS.OP, 0)] (asked 0x83000000), _, rfl, by decide⟩,
    ⟨put [(PS_STATUS.OP, 3)] (asked 0x82000000), _, rfl, by decide⟩,
    ⟨{ up with seq := { Seq.init with toOp := some 0, ramping := true, turnDone := true } }, 0, by decide⟩,
    ⟨{ up with seq := { Seq.init with toOp := some 3, ramping := true } }, 3, by decide⟩⟩

/-- The sequencer asking a block on its way into a state. -/
def entering (t b : Nat) : Chip := { up with seq := { Seq.init with target := t, block := b } }

theorem test_powerEntriesAndExits_met :
    (∃ c : Chip, ∃ l2, c.seq.target = 2 ∧ c.blockAnswer c.seq.block l2 = .agrees ∧ c.seq.block = 1 ∧
      (c.blocks c.seq.target).find? (fun b => decide (c.seq.block < b)) = some 2) ∧
    (∃ c : Chip, ∃ l2, c.seq.target = 1 ∧ c.blockAnswer c.seq.block l2 = .agrees ∧ c.seq.block ∈ [2, 7, 8, 10, 11, 12] ∧
      c.seq.woke = false ∧ c.recordWaits = false ∧ (c.blocks c.seq.target).find? (fun b => decide (c.seq.block < b)) = none) ∧
    (∃ c : Chip, ∃ l2 code, c.seq.target = 3 ∧ c.blockAnswer c.seq.block l2 = .refuses code) ∧
    (∃ c : Chip, ∃ b : Fin 11, c.seq.target = 0 ∧ c.seq.exiting = none ∧ c.sstate = 2 ∧ c.wakesFrom c.sstate b = true) ∧
    (∃ c : Chip, ∃ b : Fin 11, c.seq.target = 0 ∧ c.seq.exiting = none ∧ c.sstate = 3 ∧ c.wakesFrom c.sstate b = true) ∧
    (∃ c : Chip, c.seq.target = 0 ∧ c.seq.exiting = none ∧ c.sstate = 2 ∧ c.reg PS_TIMER ≠ 0) ∧
    (∃ c : Chip, ∃ x xs, c.seq.ramps = x :: xs) ∧ (∃ c : Chip, ∃ x, c.boot.rampNow = some (.domain x) ∧ x ∈ [3, 4, 6]) :=
  ⟨⟨entering 2 1, false, by decide⟩, ⟨entering 1 7, false, by decide⟩, ⟨put [(HUB_STATUS.UP, 2)] (entering 3 4), false, 1, by decide⟩,
    ⟨put [(PS_STATUS.STATE, 2)], 10, by decide⟩, ⟨put [(PS_STATUS.STATE, 3)], 10, by decide⟩,
    ⟨put [(PS_STATUS.STATE, 2), (PS_TIMER.MS, 5)], by decide⟩, ⟨{ up with seq := { Seq.init with ramps := [4, 3] } }, _, _, rfl⟩,
    ⟨{ up with boot := { up.boot with rampNow := some (.domain 6) } }, 6, by decide⟩⟩

/-- Key slot 0 holding a key of a type. -/
def keySlot (typ : Nat) : KeySlot := { KeySlot.free 0 with state := 1, typ := typ, data := List.replicate 48 7, mask := List.replicate 48 0 }

/-- The key engine with a root key, slots and its entropy source ready. -/
def keyed (slots : Cells KeySlot) : Chip := put [(MUNI_STATUS.ENT, 1)] { up with muni := { Muni.init with root := some [1], slots := slots } }

theorem test_keyCommands_met :
    (∃ c : Chip, ∃ v root k, c.takesKey v root ∧ KD_CMD.OP.get v = 1 ∧ KD_CMD.TYPE.get v = 2 ∧ KD_CMD.PERSIST.get v = 0 ∧
      (c.slot (KD_CMD.DST.get v)).state = 0 ∧ c.fld KD_LEN.LLEN + c.fld KD_LEN.CLEN ≤ 128 ∧
      ((c.regBytes KD_IN 128).take (c.fld KD_LEN.LLEN)).take 3 ≠ asciiBytes "MH-" ∧ (c.parentKey (KD_CMD.PARENT.get v)).1 = some k) ∧
    (∃ c : Chip, ∃ v root, c.takesKey v root ∧ KD_CMD.OP.get v = 2 ∧ KD_CMD.TYPE.get v = 1 ∧ KD_CMD.PERSIST.get v = 0 ∧
      (c.slot (KD_CMD.DST.get v)).state = 0 ∧ c.masked = true) ∧
    (∃ c : Chip, ∃ v root, c.takesKey v root ∧ KD_CMD.OP.get v = 3 ∧ KD_CMD.PERSIST.get v = 0 ∧
      (c.slot (KD_CMD.DST.get v)).state = 1 ∧ entReady c = true) ∧
    (∃ c : Chip, ∃ v root, c.takesKey v root ∧ KD_CMD.OP.get v = 4 ∧ c.slotInUse (KD_CMD.DST.get v) = false ∧
      (c.slot (KD_CMD.DST.get v)).persist = false) ∧
    (∃ c : Chip, ∃ v root, c.takesKey v root ∧ KD_CMD.OP.get v = 4 ∧ c.slotInUse (KD_CMD.DST.get v) = true) ∧
    (∃ c : Chip, ∃ v root, c.takesKey v root ∧ KD_CMD.OP.get v = 5 ∧ (c.slot (KD_CMD.DST.get v)).persist = false ∧
      5 ∈ descendants c.muni.slots (KD_CMD.DST.get v) ∧ (c.slot 5).state = 1) :=
  let child : Cells KeySlot := [(0, keySlot 1), (5, { keySlot 1 with parent := 0, phys := 5 })]
  ⟨⟨keyed [], 0x923F7F00, [1], [1], by unfold Chip.takesKey; decide⟩, ⟨keyed [], 0xA1000000, [1], by unfold Chip.takesKey; decide⟩,
    ⟨keyed [(0, keySlot 1)], 0xB1000000, [1], by unfold Chip.takesKey; decide⟩, ⟨keyed [(0, { keySlot 1 with parent := 0x7F })], 0xC1000000, [1], by unfold Chip.takesKey; decide⟩,
    ⟨keyed child, 0xC1000000, [1], by unfold Chip.takesKey; decide⟩, ⟨keyed child, 0xD1000000, [1], by unfold Chip.takesKey; decide⟩⟩

theorem test_attestationAndLifeCycle_met :
    (∃ c : Chip, ∃ v root, c.muni.queue = [] ∧ c.muni.after = none ∧ bit v 31 = true ∧ bit v 30 = false ∧
      c.on ATST_STATUS.BUSY = false ∧ c.muni.root = some root ∧ entReady c = true) ∧
    (∃ c : Chip, c.muni.queue = [] ∧ c.muni.after = none ∧ c.on ATST_STATUS.BUSY = false ∧ entReady c = false) ∧
    (∃ c : Chip, c.muni.queue = [] ∧ c.muni.after = none ∧ c.on ATST_STATUS.BUSY = true) ∧
    (∃ c : Chip, ∃ v, c.muni.queue = [] ∧ c.muni.after = none ∧ bit v 30 = true ∧ bit v 31 = false ∧ c.on ATST_STATUS.BUSY = false ∧
      c.fld LC_STATUS.STATE = 2 ∧ 0 < c.fld ATST_CERT_SRC.LEN ∧ c.fld ATST_CERT_SRC.LEN = 2048) ∧
    (∃ c : Chip, ∃ v, c.muni.queue = [] ∧ c.muni.after = none ∧ bit v 31 = true ∧ c.on LC_CTRL.GO = false ∧
      (c.on LC_STATUS.PEND = false ∧ LC_CTRL.CONFIRM.get v = 0xA5 ∧ lcAllowed (c.fld LC_STATUS.STATE) (LC_CTRL.TARGET.get v) = true) ∧
      LC_CTRL.TARGET.get v = 2 ∧ c.fuses.seeds.length < 4 ∧ c.muni.seedWritten = 0xFFF) ∧
    (∃ c : Chip, ∃ v, c.muni.queue = [] ∧ c.muni.after = none ∧ bit v 31 = true ∧ c.on LC_CTRL.GO = false ∧
      (c.on LC_STATUS.PEND = false ∧ LC_CTRL.CONFIRM.get v = 0xA5 ∧ lcAllowed (c.fld LC_STATUS.STATE) (LC_CTRL.TARGET.get v) = true) ∧
      LC_CTRL.TARGET.get v ≠ 2) ∧
    (∃ c : Chip, ∃ v, c.muni.queue = [] ∧ c.muni.after = none ∧ bit v 31 = true ∧ c.on LC_CTRL.GO = false ∧
      ¬(c.on LC_STATUS.PEND = false ∧ LC_CTRL.CONFIRM.get v = 0xA5 ∧ lcAllowed (c.fld LC_STATUS.STATE) (LC_CTRL.TARGET.get v) = true)) :=
  ⟨⟨keyed [], 0x80000000, [1], by decide⟩, ⟨up, by decide⟩, ⟨put [(ATST_STATUS.BUSY, 1)], by decide⟩, ⟨put [(LC_STATUS.STATE, 2), (ATST_CERT_SRC.LEN, 2048)], 0x40000000, by decide⟩,
    ⟨put [(LC_STATUS.STATE, 1)] { up with muni := { Muni.init with seedWritten := 0xFFF } }, 0xA0A50000, by decide⟩,
    ⟨put [(LC_STATUS.STATE, 2)], 0xB0A50000, by decide⟩, ⟨up, 0x80000000, by decide⟩⟩

/-- A sealed message of one cell, opened on flow 3. -/
def sealedOne : SealedMsg := { cls := clsP, lens := [15], cells := [List.replicate 120 0], tail := List.replicate 32 0 }

/-- Flow 3 encrypted under slot 0. -/
def encrypted (state : Nat) : Chip :=
  (put [(FLOW_CFG.ENC 3, 1), (FLOW_STATE.STATE 3, state), (FLOW_CFG.HOLD_LIM 3, 1), (FLOW_KEY.BOUND 3, 1)] (keyed [(0, keySlot 2)])).modKeyFlow 3
    fun x => { x with cur := some 0 }

theorem test_flowEncryptionAndEntropy_met :
    (∃ c : Chip, ∃ v, c.on (FLOW_KEY.BOUND 3) = false ∧ (c.slot ((FLOW_KEY.SLOT 3).get v)).usable 2 = true) ∧
    (∃ c : Chip, ∃ v, c.on (FLOW_KEY.BOUND 255) = false ∧ (c.slot ((FLOW_KEY.SLOT 255).get v)).usable 2 = false) ∧
    (∃ c : Chip, ∃ key, c.on (FLOW_CFG.ENC 3) = true ∧ c.flowState 3 = 1 ∧ c.safe = false ∧ (c.keyFlow 3).cur = some 0 ∧
      (c.useSlot 0 2).1 = some key ∧ (c.keyFlow 3).prev = none ∧ (c.keyFlow 3).early = [] ∧
      ofBytes ((sealedOne.tail.drop 8).take 2) = c.fld (FLOW_KEY.KGEN 3)) ∧
    (∃ c : Chip, c.on (FLOW_CFG.ENC 3) = true ∧ c.safe = false ∧ c.flowState 3 = 3 ∧ (c.keyFlow 3).early = [] ∧
      heldCells (c.keyFlow 3).held + sealedOne.cells.length + 1 ≤ 16 * c.fld (FLOW_CFG.HOLD_LIM 3) ∧
      c.holdStore + sealedOne.cells.length + 1 ≤ 4096) ∧
    (∃ c : Chip, ∃ p, c.on (FLOW_CFG.ENC 3) = true ∧ c.safe = false ∧ c.flowState 3 = 1 ∧ (c.keyFlow 3).prev = some p ∧
      ofBytes ((sealedOne.tail.drop 8).take 2) = p.kgen ∧ c.epoch = p.epoch + 2) ∧
    (∃ c : Chip, c.on (FLOW_CFG.ENC 3) = true ∧ c.safe = false ∧ c.flowState 3 = 3 ∧
      (c.keyFlow 3).early.contains (sealedOne.cls % 8) = true ∧ (c.keyFlow 3).prev = none ∧
      ofBytes ((sealedOne.tail.drop 8).take 2) = c.fld (FLOW_KEY.KGEN 3)) ∧
    (∃ c : Chip, entRuns c = true ∧ entReady c = false ∧ c.muni.contFail = false ∧ c.muni.entFails = 2) ∧
    (∃ c : Chip, entRuns c = true ∧ entReady c = true ∧ c.masked = true ∧ c.maintAnswer [.keys] = .granted ∧ c.muni.remaskDone = false) ∧
    (∃ c : Chip, c.on MUNI_CTRL.SCRUB_EN = true ∧ c.resting 3 = false ∧ c.maintAnswer [.keys] = .granted ∧ (c.slot 0).state = 1) ∧
    (∃ c : Chip, c.folio.job = none ∧ c.folio.keyClear = true ∧ c.keyFoliosClear = true) ∧
    (∃ c : Chip, c.folio.job = none ∧ c.folio.keyClear = true ∧ c.keyFoliosClear = false ∧
      c.maintAnswer [.folio c.writeTarget] = .granted) :=
  let clear : Chip := { up with folio := { Folio.init with keyClear := true } }
  ⟨⟨keyed [(0, keySlot 2)], 0, by decide⟩, ⟨up, 0, by decide⟩, ⟨encrypted 1, List.replicate 48 7, by decide⟩, ⟨encrypted 3, by decide⟩,
    ⟨((encrypted 1).setFld ⟨EPOCH_LO, 0, 32⟩ 2).modKeyFlow 3 fun x => { x with prev := some ⟨List.replicate 48 9, 0, 0, 0, false⟩ }, _, by decide, by decide,
      by decide, rfl, by decide⟩,
    ⟨(encrypted 3).modKeyFlow 3 fun x => { x with cur := none, early := [clsP], earlyKey := List.replicate 48 7 }, by decide⟩,
    ⟨{ up with muni := { Muni.init with entFails := 2 } }, by decide⟩,
    ⟨{ keyed [] with muni := { (keyed []).muni with remaskDone := false } }, by decide⟩, ⟨put [(MUNI_CTRL.SCRUB_EN, 1)] (keyed [(0, keySlot 1)]), by decide⟩,
    ⟨put [(validFld 0, 1), (validFld 1, 1)] clear, by decide⟩, ⟨clear, by decide⟩⟩

theorem test_fabricAndSram_met :
    (∃ x : FlitFault, ∀ p, x.planes ≠ [p]) ∧ (∃ x : FlitFault, x.planes = [8] ∧ x.cell.isSome = true) ∧ (∃ c : Chip, c.pageOn 0x3B = true) ∧
    (∃ c : Chip, c.repairs 73 = true ∧ c.nextSpare kPlane 0 ≠ none ∧ c.copp.planeDue = none ∧ c.copp.planeHits = List.replicate 15 (7, 0)) ∧
    (∃ c : Chip, ∃ sp, c.repairOn = true ∧ c.nextSpare kSram 183 = some sp ∧
      (c.copp.sramHits.any fun h => h.1 == 183 && h.2.1 == 65535 && decide (c.timeNs ≤ h.2.2 + dayNs)) = true) ∧
    (∃ c : Chip, c.repairOn = true ∧
      (c.copp.sramHits.any fun h => h.1 == 0 && h.2.1 == 0 && decide (c.timeNs ≤ h.2.2 + dayNs)) = false) ∧
    (∃ v : Word, bit v 12 = true) :=
  ⟨⟨⟨[0, 8], none⟩, fun _ h => nomatch h⟩, ⟨⟨[8], some ⟨.ul, 3, false⟩⟩, rfl, rfl⟩, ⟨up, by decide⟩, ⟨put [(COPP_CTRL.EN, 1), (EVT_SRC.REACT 73, 3)] { up with copp := { Copp.init with planeHits := List.replicate 15 (7, 0) } }, by decide⟩,
    ⟨put [(COPP_CTRL.EN, 1)] { up with copp := { Copp.init with sramHits := [(183, 65535, 0)] } }, spareBase kSram, by decide⟩,
    ⟨put [(COPP_CTRL.EN, 1)], by decide⟩, ⟨0x1000, by decide⟩⟩

/-- A row or a bank of the Stacks being repaired. -/
def rowJob : StkRepair := { kind := kRow, unitNo := 263, orig := 5, spare := spareBase kRow, bist := false }
def bankJob (bist : Bool) : StkRepair := { kind := kBank, unitNo := 7, orig := 31, spare := spareBase kBank, bist := bist }

theorem test_coppiceRepairs_met :
    (∃ c : Chip, c.granuleFilled (0xFFFFFFFF : BitVec 32).toNat = true) ∧
    (∃ c : Chip, (c.copp.waiting.find? fun r => r.kind == kRow) = some rowJob ∧ c.repairOn = true ∧ c.deferredRepair rowJob = false ∧
      c.maintAnswer rowJob.locks = .granted) ∧
    (∃ c : Chip, (c.copp.running.find? fun r => r.kind == kBank && r.bist) = some (bankJob true)) ∧
    (∃ c : Chip, c.copp.running = [bankJob false, rowJob] ∧ c.endingCopy = some rowJob) ∧
    (∃ c : Chip, c.endingCopy = some (bankJob false) ∧ (bankJob false).kind = kBank) ∧
    (∃ c : Chip, c.fld SCRB_CTRL.PERIOD ≠ 0 ∧ c.on STAK_STATUS.FILLED = true ∧ c.resting 6 = false ∧ c.maintAnswer [.bank 7 32] = .granted ∧
      c.fld SCRB_POS.STRETCH = 65535) ∧
    (∃ v : Word, bit v 8 = true) ∧
    (∃ c : Chip, c.repairOn = true ∧ (7, 27) ∉ c.copp.slices ∧ (7, 27) ∉ c.copp.badSlices ∧ c.nextSpare kSlice 7 ≠ none ∧
      c.linkState (lnkOf 7) ≠ 1) ∧
    (∃ c : Chip, c.repairOn = true ∧ (0, 0) ∉ c.copp.slices ∧ (0, 0) ∉ c.copp.badSlices ∧ c.nextSpare kSlice 0 = none) ∧
    (∃ c : Chip, c.repairOn = true ∧ (c.copp.slices.any fun e => e.1 == 0) = true ∧ c.inService 0 = true ∧ (c.lane 0).out = .in_ ∧
      c.linkUp (lnkOf 0) = true ∧
      ((c.group (lnkOf 0) (c.fld (LANE_STATUS.DIR 0))).any fun m => m != 0 && (c.lane m).out == .in_) = true ∧ c.maintAnswer [.lane 0] = .granted) ∧
    (∃ c : Chip, ∃ sp, c.repairOn = true ∧ (4, 13) ∉ c.copp.lostSegments ∧ c.nextSpare kSegment 4 = some sp) ∧
    (∃ c : Chip, c.repairOn = true ∧ (0, 13) ∉ c.copp.lostSegments ∧ c.nextSpare kSegment 0 = none) ∧
    (∃ c : Chip, ∃ sp, c.repairOn = true ∧ c.copp.ganged.contains (2, 5) = false ∧ c.nextSpare kSensor 2 = some sp) ∧
    (∃ c : Chip, c.repairOn = true ∧ c.copp.ganged.contains (0, 5) = false ∧ c.nextSpare kSensor 0 = none) :=
  let spent (kind : Nat) (l : List (Fld × Nat)) : Chip := put ((COPP_CTRL.EN, 1) :: l) { up with copp := { Copp.init with
    map := (List.range (poolSpares kind 0)).map fun i => ⟨kind, false, 0, 0, spareBase kind + i, false, true⟩ } }
  ⟨⟨put [(STAK_STATUS.FILLED, 1)], by decide⟩, ⟨put [(COPP_CTRL.EN, 1)] { up with copp := { Copp.init with waiting := [rowJob] } }, by decide⟩,
    ⟨{ up with copp := { Copp.init with running := [bankJob true] } }, by decide⟩,
    ⟨{ up with copp := { Copp.init with running := [bankJob false, rowJob] } }, rfl, by decide⟩,
    ⟨{ up with copp := { Copp.init with running := [bankJob false] } }, by decide⟩,
    ⟨put [(SCRB_CTRL.PERIOD, 1), (STAK_STATUS.FILLED, 1), (SCRB_POS.STRETCH, 65535)], by decide⟩, ⟨0x100, by decide⟩,
    ⟨put [(COPP_CTRL.EN, 1)], by decide⟩, ⟨spent kSlice [], by decide⟩,
    ⟨put [(COPP_CTRL.EN, 1), (LINK_STATUS.STATE 0, 2), (LANE_STATUS.SVC 0, 1), (LANE_STATUS.SVC 1, 1), (LANE_STATUS.DIR 0, 0),
      (LANE_STATUS.DIR 1, 0)] { up with copp := { Copp.init with slices := [(0, 3)] } }, by decide⟩,
    ⟨put [(COPP_CTRL.EN, 1)], spareBase kSegment, by decide⟩, ⟨spent kSegment [], by decide⟩,
    ⟨put [(COPP_CTRL.EN, 1)], spareBase kSensor, by decide⟩, ⟨spent kSensor [], by decide⟩⟩

/-- A checkpoint half of epoch 0 that saved nothing beyond reset. -/
def half0 : Ckpt := ⟨0, [], none, none, [], [], []⟩

theorem test_routerFailover_met :
    (∃ c : Chip, c.pageOn (evSource 75).page = true ∧ c.pageOn (evSource 76).page = true ∧ c.pageOn (evSource 77).page = true) ∧
    (∃ c : Chip, c.pageOn (evSource 77).page = true ∧ c.on STBY_STATUS.CKPT_VALID = true ∧ c.fld STBY_STATUS.HALF = 0 ∧
      c.router.halfA = some half0 ∧ half0.epoch = c.epoch) ∧
    (∃ c : Chip, ∃ v, bit v 31 = true ∧ c.sstate = 0 ∧ c.fld ROUT_STATUS.STATE = 0 ∧ c.safe = false) ∧
    (∃ c : Chip, ∃ cause k, c.router.want = some cause ∧ c.safe = false ∧ c.fld ROUT_STATUS.STATE = 0 ∧ c.on ROUT_STATUS.STBY_OK = true ∧
      c.fld STBY_STATUS.HALF = 1 ∧ c.router.halfB = some k ∧ c.router.image = none ∧ ∀ l, (c.link l).turn = none) ∧
    (∃ c : Chip, ∃ cause k x, c.router.want = some cause ∧ c.safe = false ∧ c.fld ROUT_STATUS.STATE = 0 ∧ c.on ROUT_STATUS.STBY_OK = true ∧
      c.fld STBY_STATUS.HALF = 0 ∧ c.router.halfA = some k ∧ c.router.image = some x) ∧
    (∃ c : Chip, c.router.phase = 1 ∧ c.fld ROUT_STATUS.STATE = 1 ∧ c.router.t0 < c.timeNs ∧ c.router.held = [] ∧ c.svcp.waiting = false) ∧
    (∃ c : Chip, c.safe = false ∧ c.router.proofDue = true ∧ c.fld ROUT_STATUS.STATE = 3 ∧ c.router.phase = 0) ∧
    (∃ c : Chip, c.safe = false ∧ c.fld ROUT_STATUS.STATE = 0 ∧ c.fld ROUT_CTRL.PROVE ≠ 0 ∧ c.sstate = 0) ∧
    (∃ c : Chip, c.fld ROUT_STATUS.STATE = 2) ∧ (∃ c : Chip, c.fld ROUT_STATUS.STATE ≠ 2) :=
  ⟨⟨up, by decide⟩, ⟨put [(STBY_STATUS.CKPT_VALID, 1)] { up with router := { Router.init with halfA := some half0 } }, by decide⟩,
    ⟨up, 0x80000000, by decide⟩,
    ⟨put [(ROUT_STATUS.STBY_OK, 1), (STBY_STATUS.HALF, 1)] { up with router := { Router.init with want := some 5, halfB := some half0 } },
      5, half0, by decide, by decide, by decide, by decide, by decide, rfl, rfl, fun l => by cases l <;> rfl⟩,
    ⟨put [(ROUT_STATUS.STBY_OK, 1)] { up with router :=
      { Router.init with want := some 4, halfA := some half0, image := some ⟨[(CIRC_CTRL, 1)], [], []⟩ } }, 4, half0, _, by decide, by decide, by decide, by decide, by decide, rfl, rfl⟩,
    ⟨put [(ROUT_STATUS.STATE, 1)] { up with timeNs := 1, router := { Router.init with phase := 1 } }, by decide⟩,
    ⟨put [(ROUT_STATUS.STATE, 3)] { up with router := { Router.init with proofDue := true } }, by decide⟩,
    ⟨put [(ROUT_CTRL.PROVE, 1)], by decide⟩, ⟨put [(ROUT_STATUS.STATE, 2)], by decide⟩, ⟨up, by decide⟩⟩

/-! ## Well-formedness: a term for each check, which the check refuses -/

theorem test_illFormed_part1 : (([
    .warm .svcp 0xFFFFFFFE, .registerWrite .svcp 2 0, .folioWrite 0xFFFFFFFE, .folioVerify 0xFFFFFFFB, .blockReceive 0 ⟨0, []⟩,
    .ack .ul { bcnt := 0, nextSeq := 0, maps := [] }, .eq .ul [], .eq .ul (List.replicate 4 { mode := 0, req := [], resp := 0, pre := none }),
    .adaptationComplete 0 true [], .laneOut .ul 0 3, .retrain .ul 0xFFFFFDFF, .linkRecover .ul 0xFFFFFEFF, .linkCntClr .ul 0xFFFFFBFF,
    .allot .ul ⟨1, 1, 0, 0, 0, []⟩, .allot .ul ⟨0, 5, 0, 0, 0, []⟩, .allot .ul ⟨0, 1, 0, 0, 0, List.replicate 38 (0, 0)⟩, .demand .ul ⟨1, 1, 0, []⟩,
    .demand .ul ⟨0, 11, 0, []⟩, .demand .ul ⟨0, 1, 0, List.replicate 29 (0, 0, 0)⟩, .eyeScanStart 0 0x7FFFFFFF, .eyeScanAbort 0 0xBFFFFFFF,
    .laneEqRetrain 0 0xFFFFFEFF, .nearEndSerial 0 0x20, .nearEndParallel 0 0x30] : List Instr).map Instr.wf).all (· == false) = true := by decide +kernel

theorem test_illFormed_part2 : (([
    .farEndRetimed 0 0x40, .pattern 0 0x50, .loopNone 0 0x10, .flowEntryParityError 2 .oneCopy, .circCntClr 0xFFFFFBFF, .read .ul 1 0 [2],
    .writeNonPosted .ul 1 4 [2], .writeNonPosted .ul 1 0 [1], .writePosted .ul 1 0 [2], .writePosted .ul 1 4 [1], .readCpl .ul 1 0 [0x82],
    .writeCpl .ul 1 0 [0x81], .windowEnable 0 0x7FFFFFFF, .windowDisable 0 0x80000000, .rel 0xFFFFFFFE, .brdgCntClr 0xFFFFFEFF,
    .surfaceValidate 0 0x7FFFFFFF, .surfaceInvalidate 0 0x80000000, .tile 3 fillOne, .fill 3 [], .rawLine 3 [], .surfCntClr 0xFFFFFEFF,
    .headEnable 0 0x7FFFFFFF, .headDisable 0 0x80000000] : List Instr).map Instr.wf).all (· == false) = true := by decide +kernel

set_option maxRecDepth 8000 in
theorem test_illFormed_part3 : (([
    .headArm 0 0xFFFFFFFE, .headCancel 0 0xFFFFFFFD, .headCntClr 0 0xFFFFFFFB, .margArm 0 0xFFFFFFFE, .margCancel 0 0xFFFFFFFD,
    .dptxRetrain 0 0xFFBFFFFF, .nativeWrite 0 0x0, .nativeWrite 0 0x90000000, .nativeRead 0 0x10000000, .nativeRead 0 0xA0000000,
    .i2cWrite 0 0x40000000, .i2cWrite 0 0xD0000000, .i2cRead 0 0x50000000, .i2cRead 0 0xE0000000, .i2cWriteMot 0 0x60000000,
    .i2cWriteMot 0 0xF0000000, .i2cReadMot 0 0x70000000, .i2cReadMot 0 0x80000000, .ssHdr 3 (tunMsg 0 1) ⟨0, []⟩, .ssData 3 (tunMsg 0 1) ⟨0, []⟩ false,
    .u2Txn 3 [] 0 false 0 [], .u2Txn 3 (tunMsg 0 1) 0 false 0 (List.replicate 1025 0), .uportReset 3 (tunMsg 0 1), .uportReset 3 (one clsP [0x20, 1])] : List Instr).map Instr.wf).all (· == false) = true := by decide +kernel

theorem test_illFormed_part4 : (([
    .uportSuspend 3 (tunMsg 0 1), .uportSuspend 3 (one clsP [0x20, 0]), .uportSuspend 3 (one clsP [0x20, 2]), .uportResume 3 (tunMsg 0 1),
    .uportResume 3 (one clsP [0x20, 1]), .hubCntClr 0xFFFFEFFF, .pcieTunEnable 0x7FFFFFFF, .pcieCntClr 0xFFFFFFFB, .ntb ⟨List.replicate 33 [], none⟩,
    .reneg 0xFFDFFFFF, .enetCntClr 0xFDFFFFFF, .sourceCapabilities true [], .hrst 0 0xFDFFFFFF, .ppCntClr 0xFFFFFFFE, .derive 0x10000000,
    .derive 0xA0000000, .importKey 0x20000000, .importKey 0xB0000000, .ecdh 0x30000000, .ecdh 0xC0000000, .clear 0x40000000, .clear 0xD0000000,
    .invalidate 0x50000000, .invalidate 0xE0000000] : List Instr).map Instr.wf).all (· == false) = true := by decide +kernel

theorem test_illFormed_part5 : (([
    .atstGo 0x7FFFFFFF, .certWrite 0xBFFFFFFF true, .lcGo 0x7FFFFFFF true, .openMsg .ul 3 ⟨0, [15], [], List.replicate 32 0⟩,
    .openMsg .ul 3 ⟨0, [], [], []⟩, .flitParityError 0 ⟨[], none⟩, .slackMeasurement [], .force 0x7FFFFFFF, .coppCntClr 0xFFFFEFFF, .scrbCntClr 0xFFFFFEFF,
    .evtCntClr 0xFFFFFEFF, .safeCtrlEnter 0x7FFFFFFF] : List Instr).map Instr.wf).all (· == false) = true := by decide +kernel

theorem test_stepRunsTheFront_met :
    (∃ s : State, ∃ c rest, s.pending = c :: rest) ∧ (∃ s : State, s.pending = []) :=
  ⟨⟨{ pending := [.epochStrobe], chip := up }, _, _, rfl⟩, ⟨State.reset, rfl⟩⟩

theorem test_stepKeepsStacksForm_met : ∃ s t : State, s.chip.stacksWf ∧ step s = .next t :=
  ⟨{ pending := [.frsSignalEnd], chip := { up with stkMem := [(0, 1), (2 ^ 32 - 1, 5)] } }, _, by unfold Chip.stacksWf; decide, rfl⟩

theorem test_stacksUntouched_met : ∃ i : Instr, mayStore i = false := ⟨.headArm 0 1, by decide⟩

theorem test_absentPages_met : ∃ (s : State) (a : BitVec 18), s.chip.part = .mh4142 ∧
    pageOf a.toNat ∈ [0x22, 0x23, 0x26, 0x27, 0x14, 0x15, 0x16, 0x17, 0x19, 0x1C, 0x2D, 0x31] :=
  ⟨{ pending := [], chip := { up with part := .mh4142 } }, 0x31FFC, by decide⟩

theorem test_newerAccession_met : (0 < 2 ^ 32 ∧ 2 ^ 32 - 1 < 2 ^ 32 ∧ newerAcc 0 (2 ^ 32 - 1) = true) ∧
    newerAcc (2 ^ 31) 0 = false ∧ newerAcc (2 ^ 31 - 1) 0 = true ∧ newerAcc 5 5 = false := by decide

theorem test_shortfallShares_met :
    (∃ (fs : List AFlow) (avail : Nat) (x : AFlow), fs[0]? = some x ∧ (fs.map fun x => min x.g x.need).sum ≤ avail) ∧
    (∃ (fs : List AFlow) (avail : Nat) (x : AFlow), fs[0]? = some x ∧ avail < (fs.map fun x => min x.g x.need).sum) :=
  let x : AFlow := ⟨3, 4, 10, 20, 0, 0, 0, 0, 1, 0, none⟩
  ⟨⟨[x], 10, x, rfl, by decide⟩, ⟨[x], 9, x, rfl, by decide⟩⟩

/-! ## Single steps, expected results from the rules and tables of spec/ -/

/-- The chip after one command. -/
def after (i : Instr) (c : Chip) : Chip := match exec i { pending := [], chip := c } with
  | .next t => t.chip
  | _ => c

/-- The table gives no row bits, so no word spells a command (log entry 1). -/
theorem test_noWordSpellsACommand : decodeTableWord 0 0 = none ∧ (State.reset.withFetchWord 0 0) = State.reset := by decide +kernel

/-- R2: COLOPHON of the MH4160 at stepping B0. -/
theorem test_colophon : up.readWord 0x00040 = 0x41604EB0 := by decide +kernel

/-- R53, R54: power good begins step 1. -/
theorem test_powerGood : (after (.powerGood ⟨.opn, .opn, .opn⟩ ⟨.gnd, .gnd, .gnd⟩) Chip.reset).boot.step = 1 := by decide +kernel

/-- R41: a strap tied high in two of three samples reads master, and UNSTABLE is set. -/
theorem test_strapMajority : (after (.powerGood ⟨.hi, .opn, .hi⟩ ⟨.gnd, .gnd, .gnd⟩) Chip.reset).fld STRAP_STATUS.CASC_ROLE = 2 ∧
    (after (.powerGood ⟨.hi, .opn, .hi⟩ ⟨.gnd, .gnd, .gnd⟩) Chip.reset).on STRAP_STATUS.UNSTABLE = true := by decide +kernel

/-- R7, R8: a write keeps reserved fields 0; FOLIO_SRC has BASE in its low half. -/
theorem test_reservedReadsZero : (after (.registerWrite .svcf 0x01044 0xFFFFFFFF) up).readWord 0x01044 = 0x0000FFFF := by decide +kernel

/-- R421: a locked page's RWL field keeps its value. -/
theorem test_lockedRegister : (after (.registerWrite .svcf 0x01044 5) (after (.lock 1) up)).readWord 0x01044 = 0 := by decide +kernel

/-- R150: the strobe counts the epoch. -/
theorem test_epochStrobe : (after .epochStrobe { Chip.reset with boot := { Boot.init with step := 2 } }).epoch = 1 := by decide +kernel

/-- R224: CANCEL disarms a commit. -/
theorem test_headCancel : (after (.headCancel 2 2) (after (.headArm 2 1) up)).on (HEAD_STATUS.ARMED 2) = false := by decide +kernel

/-- R234: slot counts that sum to 64 are ignored. -/
theorem test_slotsOverfull : (after (.dptxSlotsWrite 0 0x10101010) up).reg (DPTX_SLOTS 0) = up.reg (DPTX_SLOTS 0) := by decide +kernel

/-- R169: ORDER 3 does not enable a window. -/
theorem test_windowBadOrder : (after (.windowEnable 4 0xB0000000) up).on (WIN_CTRL.EN 4) = false := by decide +kernel

/-- R321: CMD 3 ends BAD_PARAM at once. -/
theorem test_badCommand : (after (.registerWrite .svcf 0x02044 1) (after (.registerWrite .svcf 0x02040 0xC0000000) up)).fld
    PS_STATUS.RESULT = 3 := by decide +kernel

/-- R262: CNT_CLR of the hub. -/
theorem test_hubCntClr : (after (.hubCntClr 0x1000) (put [(HUB_STATUS.TUN_REJ, 9)])).fld HUB_STATUS.TUN_REJ = 0 := by decide +kernel

/-- R282: DR_Swap is rejected and counted. -/
theorem test_drSwap : (after (.drSwap 2) (put (attach 2 0))).out = [.pd 2 .reject] := by decide +kernel

/-- R322: in safe state a state command ends SAFE. -/
theorem test_stateCmdSafe : (after .stateCmd (put [(SAFE_STATUS.ACTIVE, 1)] (asked 0x70000000))).fld PS_STATUS.RESULT = 5 := by decide +kernel

/-- R330: VISL rises to the need. -/
theorem test_vislRaise : (after (.vislRaiseRequest 3) up).fld PS_ISL.VISL = 3 := by decide +kernel

/-- R353: a transition the table of states does not allow is refused. -/
theorem test_lcRefused : (after (.lcGo 0x80000000 true) up).fld LC_STATUS.RESULT = 2 := by decide +kernel

/-- R393: CNT_CLR of Coppice. -/
theorem test_coppCntClr : (after (.coppCntClr 0x1000) (put [(COPP_CNT.REPAIRS, 3)])).reg COPP_CNT = 0 := by decide +kernel

/-- R427: a read without an address returns ones. -/
theorem test_svcpNoAddress : (after (.svcpRead 0) up).out = [.svcp [0xFF, 0xFF, 0xFF, 0xFF]] := by decide +kernel

end Sys2Proof.Tests
end

section
/-! PROOFS. The startup and the Folios: the order of accessions (R65). -/

namespace Sys2Proof.Proofs.Folios
open Sys2Proof Sys2Proof.Machine

/-! ## Serial-number order -/

/-- The natural-number distance `newerAcc` computes is the serial-number distance of R65. -/
theorem accDistance_eq_emod (a b : Nat) :
    (((a + 2 ^ 32 - b % 2 ^ 32) % 2 ^ 32 : Nat) : Int) = ((a : Int) - b) % 2 ^ 32 := by
  omega

theorem newerAcc_iff (a b : Nat) :
    newerAcc a b = true ↔ 1 ≤ ((a : Int) - b) % 2 ^ 32 ∧ ((a : Int) - b) % 2 ^ 32 ≤ 2 ^ 31 - 1 := by
  have hdist := accDistance_eq_emod a b
  simp only [newerAcc, Bool.and_eq_true, decide_eq_true_eq]
  omega

@[simp] theorem newerAcc_self (a : Nat) : newerAcc a a = false := by
  rw [Bool.eq_false_iff, Ne, newerAcc_iff]
  simp

/-- At the distance 2^31, which is its own negation modulo 2^32, neither accession is the newer one. -/
theorem newerAcc_eq_false_of_opposite {a b : Nat} (h : ((a : Int) - b) % 2 ^ 32 = 2 ^ 31) : newerAcc b a = false := by
  have hback : ((b : Int) - a) % 2 ^ 32 = 2 ^ 31 := by omega
  rw [Bool.eq_false_iff, Ne, newerAcc_iff, hback]
  decide

/-! ## The copy a load takes -/

theorem newestCopy_of_valid {x y : Cells Byte} (hx : imgValid x = true) (hy : imgValid y = true) :
    newestCopy x y = if newerAcc (imgAccession y) (imgAccession x) then some 1 else some 0 := by
  simp only [newestCopy, hx, hy, apply_ite some]

/-- Folio A is taken whenever Folio B's accession is not the newer one. -/
theorem newestCopy_eq_zero {x y : Cells Byte} (hx : imgValid x = true) (hy : imgValid y = true)
    (hnot : newerAcc (imgAccession y) (imgAccession x) = false) : newestCopy x y = some 0 := by
  simp [newestCopy_of_valid hx hy, hnot]

/-- Settles O8: both halves rest on the serial-number reading of `newerAcc`, under which neither draw makes Folio B newer. -/
theorem newerAccession : Obligations.NewerAccession := by
  unfold Obligations.NewerAccession
  refine ⟨fun a b _ _ => newerAcc_iff a b, fun x y hx hy => ⟨newestCopy_of_valid hx hy, fun hdraw => ?_⟩⟩
  apply newestCopy_eq_zero hx hy
  obtain heq | hopp := hdraw
  · rw [heq, newerAcc_self]
  · exact newerAcc_eq_false_of_opposite hopp

end Sys2Proof.Proofs.Folios
end

section
/-! PROOFS. The lanes: the arrangements and the lanes a change turns (R83, R100). -/

namespace Sys2Proof.Proofs.Lanes
open Sys2Proof Sys2Proof.Machine

/-! ## The downstream end (R83) -/

@[simp] theorem downEnd_ul (c : Chip) : c.downEnd .ul = true := rfl

@[simp] theorem downEnd_cs (c : Chip) : c.downEnd .cs = c.pairedFollower := rfl

/-! ## The downstream lanes (R100) -/

theorem zero_mem_arrDown (a : Arr) : 0 ∈ arrDown a := by
  cases a <;> decide

theorem three_notMem_arrDown (a : Arr) : 3 ∉ arrDown a := by
  cases a <;> decide

/-! ## The direction of a lane -/

theorem arrDir_eq (c : Chip) (k : Lnk) (a : Arr) (l : Nat) :
    c.arrDir k a l = if l ∈ arrDown a ↔ c.downEnd k = true then 0 else 1 := by
  have hdir : ((arrDown a).contains l == c.downEnd k) = true ↔ (l ∈ arrDown a ↔ c.downEnd k = true) := by
    rw [beq_iff_eq, Bool.eq_iff_iff, List.contains_iff_mem]
  exact if_congr hdir rfl rfl

/-- Which end of the link this device is does not matter to whether a change of arrangement turns a lane. -/
theorem arrDir_eq_arrDir_iff (c : Chip) (k : Lnk) (a b : Arr) (l : Nat) :
    c.arrDir k a l = c.arrDir k b l ↔ (l ∈ arrDown a ↔ l ∈ arrDown b) := by
  rw [arrDir_eq, arrDir_eq]
  split_ifs <;> tauto

theorem arrDir_zero_eq (c : Chip) (k : Lnk) (a b : Arr) : c.arrDir k a 0 = c.arrDir k b 0 :=
  (arrDir_eq_arrDir_iff c k a b 0).2 (iff_of_true (zero_mem_arrDown a) (zero_mem_arrDown b))

theorem arrDir_three_eq (c : Chip) (k : Lnk) (a b : Arr) : c.arrDir k a 3 = c.arrDir k b 3 :=
  (arrDir_eq_arrDir_iff c k a b 3).2 (iff_of_false (three_notMem_arrDown a) (three_notMem_arrDown b))

/-! ## The lanes a change of arrangement turns -/

theorem arrDir_ne_arrDir_iff (c : Chip) (k : Lnk) (l : Fin 4) :
    (c.arrDir k .a22 l ≠ c.arrDir k .a31 l ↔ l = 2) ∧
    (c.arrDir k .a22 l ≠ c.arrDir k .a13 l ↔ l = 1) ∧
    (c.arrDir k .a31 l ≠ c.arrDir k .a13 l ↔ l = 1 ∨ l = 2) := by
  simp only [Ne, arrDir_eq_arrDir_iff]
  revert l
  decide

/-- Settles O9: a lane turns exactly when one of the two arrangements has it downstream and the other has not, at either end. -/
theorem laneArrangements : Obligations.LaneArrangements := by
  unfold Obligations.LaneArrangements
  refine ⟨⟨rfl, rfl, rfl⟩, fun c k => ⟨fun a l => arrDir_eq c k a l, arrDir_ne_arrDir_iff c k, fun a b => ?_, downEnd_ul c, ?_⟩⟩
  · exact ⟨arrDir_zero_eq c k a b, arrDir_three_eq c k a b⟩
  · rw [downEnd_cs]

end Sys2Proof.Proofs.Lanes
end

section
/-! PROOFS. The bridge windows: the byte map of the byte-order modes (R174). -/

namespace Sys2Proof.Proofs.ByteOrder
open Sys2Proof Sys2Proof.Machine

/-! ## The map of each mode -/

theorem omap_native (width q : Nat) : omap 0 width q = q := rfl

theorem omap_addressInvariant (width q : Nat) : omap 1 width q = 7 - q := rfl

theorem omap_dataInvariant (width q : Nat) : omap 2 width q = q ^^^ [7, 6, 4, 0].getD width 0 := rfl

/-- An element of 64 bits fills the doubleword, so no byte of it moves. -/
theorem omap_dataInvariant_64bit (q : Nat) : omap 2 3 q = q := Nat.xor_zero q

/-! ## The map of each mode is its own inverse -/

/-- The reflection `7 - q` undoes itself only within the doubleword: beyond it the subtraction stops at 0. -/
theorem omap_addressInvariant_self_inverse (width : Nat) {q : Nat} (hq : q ≤ 7) :
    omap 1 width (omap 1 width q) = q := by
  simpa only [omap_addressInvariant] using Nat.sub_sub_self hq

/-- XOR with one mask cancels, whatever mask the width chooses. -/
theorem omap_dataInvariant_self_inverse (width q : Nat) : omap 2 width (omap 2 width q) = q := by
  simpa only [omap_dataInvariant] using Nat.xor_xor_cancel_right q _

theorem omap_self_inverse (order : Fin 3) (width : Nat) {q : Nat} (hq : q ≤ 7) :
    omap order width (omap order width q) = q := by
  match order with
  | 0 => rfl
  | 1 => exact omap_addressInvariant_self_inverse width hq
  | 2 => exact omap_dataInvariant_self_inverse width q

/-- Settles O10: the table is the model's map read mode by mode, and each mode reflects or masks within the doubleword. -/
theorem byteOrder : Obligations.ByteOrder := by
  unfold Obligations.ByteOrder
  intro w q
  have hq : q.val ≤ 7 := Nat.le_of_lt_succ q.isLt
  exact ⟨omap_native w q, omap_addressInvariant w q, omap_dataInvariant 0 q, omap_dataInvariant 1 q,
    omap_dataInvariant 2 q, omap_dataInvariant_64bit q, fun o => omap_self_inverse o w hq⟩

end Sys2Proof.Proofs.ByteOrder
end
